-- ==== Sys2Proof/Word.lean ====
section
/-! DEFINITION. The word types of the model: bytes, 64-bit registers, binary32 values, and sparse maps. -/

namespace Sys2Proof

/-- One byte of a memory, a descriptor or a record. -/
abbrev Byte := BitVec 8

/-- The contents of a register of up to 64 bits. -/
abbrev Word := BitVec 64

/-- A binary32 value by its bits (R66). -/
abbrev F32 := BitVec 32

/-- A sparse collection keyed by number: keys strictly rising. -/
abbrev SMap (α : Type) := List (Nat × α)

end Sys2Proof
end

