-- ==== Sys2Proof/Syntax.lean ====
section
/-! DEFINITION. The commands of the block: one constructor of Instr for each row of spec/opcode_table.json, with its operands. -/

namespace Sys2Proof

/-- Bytes a host has made visible in its memory before a doorbell (R348). -/
structure HostPub where
  addr  : Nat
  bytes : List Byte
deriving DecidableEq, Repr, Inhabited

/-- A pairing of weight and activation formats of the Riser array (R35). -/
inductive Pairing where
  | fp8 | int8 | bf16 | mxfp4 | mxfp4w
deriving DecidableEq, Repr, Inhabited

namespace Machine.Tile

/-- A tile kind of R38: its pairing, whether it holds 2:4 weights, and which FP8 encodings stand in it. -/
structure Kind where
  pair   : Pairing := .fp8
  sparse : Bool := false
  wE5    : Bool := false
  aE5    : Bool := false
deriving DecidableEq, Repr, Inhabited

end Machine.Tile

/-- A tier that an address of a step names (R93, R110): its own landing store, a pinned region, the HBM, a loan in another landing's store (`issued` says that the read was
issued before the loan was revoked, R106), a region that a peer exports, the memory of the submitting host. -/
inductive Tier where
  | own
  | pinned (region : Nat)
  | hbm
  | lent (landing : Nat) (issued : Bool)
  | peer
  | host
deriving DecidableEq, Repr, Inhabited

/-- A row of a step's region table (R110): the step's addresses from `lo` on, `len` of them, name the bytes from `base` on of a tier. -/
structure Region where
  lo   : Nat
  len  : Nat
  tier : Tier
  base : Nat
deriving DecidableEq, Repr, Inhabited

/-- A format in which operand elements stand in a landing store (R35 to R37); `none` for bytes that are no array operand. -/
inductive Fmt where
  | none | f32 | bf16 | e4m3 | e5m2 | int8 | mx
deriving DecidableEq, Repr, Inhabited

/-- The operations of the vector unit (R65), and the multiply by the scales of quantised weights (R67). -/
inductive VecOp where
  | add | sub | mul | fma | min | max | abs | neg | compare | select
deriving DecidableEq, Repr, Inhabited

/-- The row reductions (R68, R78). -/
inductive RowOp where
  | sum | sumSq | max | absmax
deriving DecidableEq, Repr, Inhabited

/-- Where a walk's EMIT goes (R110): the select unit, a list in the landing store, the step's expansion queue. -/
inductive EmitTo where
  | select
  | list (addr : Nat)
  | queue
deriving DecidableEq, Repr, Inhabited

/-- A walk that a step runs on its landing's Usher (R107 to R111): program, region table, input list of the step, first registers of each work item, the query of VDIST with its
format, its length and its metric (0 is L2), and where EMIT goes. -/
structure WalkRun where
  prog    : Nat
  regions : List Region
  input   : List Word
  items   : List (List Word)
  query   : Nat
  fmt     : Fmt
  dims    : Nat
  metric  : Nat
  emit    : EmitTo
deriving DecidableEq, Repr, Inhabited

/-- One operation that a task's step program had a unit of its landing do, in the order in which the program ran them (log entry 56). Addresses without a region are those of the landing store. -/
inductive UnitOp where
  /-- Bytes of a tier come into the landing store through the fill port; `fmt` is the format of the residues that are computed beside them (R55, R93). -/
  | load (src : Region) (dst : Nat) (fmt : Fmt)
  /-- Bytes of the landing store go to a tier (R94, R95). -/
  | store (src : Nat) (dst : Region)
  /-- A pass of one tile through the Riser array (R34 to R48): `image` none keeps the stored tile; `ku` and `nu` are the step's K and N within the tile (R44), `ktile` the K-tile index. -/
  | tile (kind : Machine.Tile.Kind) (transposed : Bool) (image : Option Nat) (act vectors out ku nu ktile : Nat)
  | vec (op : VecOp) (a b c dst n : Nat)
  /-- The scales of quantised weights: one for every output column, or one for all (R37, R67). -/
  | scale (src scales dst n : Nat) (perTensor : Bool)
  | convert (from_ to_ : Fmt) (src dst n : Nat)
  | sfu (code src dst n : Nat)
  | gated (unit : Nat) (gs us : Option F32) (gate up dst n : Nat)
  /-- The rotary step: pairs of elements at a position, with the frequencies of the pairs (R72). -/
  | rotary (pos : F32) (freqs src dst pairs : Nat)
  | row (op : RowOp) (src n dst : Nat)
  | softmax (src n : Nat) (scale : F32) (mask : Option Nat) (dst : Nat)
  | rmsNorm (src n : Nat) (eps : F32) (gain dst : Nat)
  | layerNorm (src n : Nat) (eps : F32) (gain bias dst : Nat)
  | walk (w : WalkRun)
  /-- The step begins a layer of its model (R113). -/
  | layer (l : Nat)
  /-- The router of a layer emits its choice (R114, R287): of the layer's router logits at `src` the best TOPK experts are chosen; their numbers (words of 4 bytes) and gate weights go to `dst` and `gates`. -/
  | router (l src dst gates : Nat)
  /-- The output of a layer's experts (R287): `shared` outputs one after another at `outs`, then `selected` ones in ascending index with their gate weights; n elements each. -/
  | experts (shared selected outs gates dst n : Nat)
  /-- The steering of a layer after the residual addition: n elements from element `at_` of the vector on (R290). -/
  | steer (l at_ src dst n : Nat)
deriving DecidableEq, Repr, Inhabited

/-- How the partials of an output group combine (R49, R69): K-tile sums, maxima, softmax pairs. -/
inductive FoldOp where
  | add | max | softmax
deriving DecidableEq, Repr, Inhabited

/-- What a finishing task reports beside its outputs (R57, R116, R252, R399, R447). -/
inductive TaskFault where
  /-- A tile output failed its residue check: expected and found residue, K-tile index (R57). -/
  | residue (expected found ktile : Nat)
  /-- An uncorrectable error: store 1 landing store, 2 pinned region, 3 session SRAM, 4 HBM (R116). -/
  | ecc (store : Nat) (addr : Nat)
  /-- A T4 read completed with Unsupported Request or Completer Abort at this host address (R252). -/
  | hostRead (addr : Nat)
  /-- A T3 read was refused at this T3 address (R399). -/
  | t3Read (addr : Nat)
  /-- A Gallery message that served the request failed its end-to-end CRC: port and peer (R391). -/
  | galleryCrc (port peer : Nat)
  /-- An uncorrectable error in an Alcove cache way, in the line of this device address (R116). -/
  | cacheLine (addr : Nat)
  /-- An uncorrectable error on a read of a loan in a lender's store (R116). -/
  | loanEcc (lender addr : Nat)
  /-- A read whose error was corrected: store 1 landing store, 3 session SRAM, 4 HBM (R116, R118). -/
  | corrected (store : Nat)
deriving DecidableEq, Repr, Inhabited

/-- The report of a task at its end: the unit operations that its step program ran (log entry 56), the faults it met, counts of those landing events of R508 that only the hardware sees;
`outputs` says that a tile output was produced and `storeReads` that the landing store was read (R551). -/
structure TaskReport where
  ops        : List UnitOp
  faults     : List TaskFault
  events     : List (Nat × Nat)
  outputs    : Bool
  storeReads : Bool
deriving DecidableEq, Repr, Inhabited

/-- A K-tile partial on its way to its owning landing (R49, R442). -/
structure PartialMsg where
  slot    : Nat
  group   : Nat
  total   : Nat
  index   : Nat
  spec    : Bool
  task    : Nat
  fold    : FoldOp
  dieFrom : Nat
  phyFrom : Nat
  gen     : Nat
  values  : List F32
deriving DecidableEq, Repr, Inhabited

/-- A candidate of a search: score, key, order key, passage (R212..R215, R240). -/
structure Cand where
  key   : Nat
  order : Nat
  id    : Nat
  ver   : Nat
  score : F32
  attr  : Nat
deriving DecidableEq, Repr, Inhabited

/-- A loan placed in a lender's store: T2 source address and length (R105). -/
structure Loan where
  src : Nat
  len : Nat
deriving DecidableEq, Repr, Inhabited

/-- One sampling entry's fields that the occurrence decides (R513). -/
structure SampleFields where
  step    : Nat
  instr   : Nat
  latency : Nat
  event   : Nat
  spec    : Bool
  part    : Nat
deriving DecidableEq, Repr, Inhabited

/-- A HELLO message (R394). -/
structure HelloMsg where
  moduleId  : Nat
  groupTag  : Nat
  orderCode : Nat
  behaviour : Nat
  ifVersion : Nat
  gen       : Nat
  peerPort  : Nat
deriving DecidableEq, Repr, Inhabited

/-- The answer a HELLO with an old generation, or a loss notice, carries (R396, R400). -/
structure LossMsg where
  about : Nat
  gen   : Nat
deriving DecidableEq, Repr, Inhabited

/-- A sub-request of a peer (R397). -/
structure SubReq where
  tag      : Nat
  tenant   : Nat
  part     : Nat
  deadline : Nat
  block    : List Byte
  index    : Nat
  query    : List F32
  compat   : Bool
deriving DecidableEq, Repr, Inhabited

/-- A VL 1 response of a peer (R392, R398). -/
inductive GalResp where
  | t3Data (slot addr : Nat) (data : List Byte)
  /-- Acknowledged adds; `direct` says that the owner's staging buffer was full (R328). -/
  | addAck (slot count : Nat) (direct : Bool)
  /-- The owner grants its staging buffers, or has applied them (R329). -/
  | stageAck (slot : Nat)
  | subStatus (slot : Nat) (refused : Bool) (causes : Nat)
deriving DecidableEq, Repr, Inhabited

/-- A peer's directory message (R398), with the modules that its own ports reach: routes of several hops follow from them (R395; log entry 69). -/
structure PeerDir where
  ready  : List (Nat × Nat)
  accept : Nat
  links  : List Nat
deriving DecidableEq, Repr, Inhabited

/-- What an update step asks of a row's owner: an add or a written row (R322, R323); for a deterministic step the staging buffers, a delta to stage with its source key, their application, or that they are given up (R327, R329). -/
inductive RowWork where
  | add (deltas : List F32)
  | write (data : List Byte)
  | acquire
  | stage (key : Nat) (deltas : List F32)
  | apply
  | discard
deriving DecidableEq, Repr, Inhabited

/-- A message of an update step to the owner of rows (R313, R322): the sender's tag, the table with its create record's CRC, the row. -/
structure RemoteAdd where
  tag    : Nat
  table  : Nat
  crc    : Nat
  row    : Nat
  work   : RowWork
deriving DecidableEq, Repr, Inhabited

/-- A transport on which SPDM requests arrive: DOE mailbox of a physical function, or MCTP (R487). -/
inductive SpdmEnd where
  | doe (pf : Nat)
  | mctp
deriving DecidableEq, Repr, Inhabited

/-- One finding of the patrol scrubber: store of R449, the site of R14 on which it lies, address, whether it was corrected (R117). -/
structure ScrubFinding where
  store     : Nat
  site      : Nat
  addr      : Nat
  corrected : Bool
deriving DecidableEq, Repr, Inhabited

/-- LTR values of one physical function at link training, latencies in µs (R470), and its Enable Relaxed Ordering bit (R338). -/
structure LtrVal where
  pf      : Nat
  enable  : Bool
  snoop   : Nat
  noSnoop : Nat
  relaxed : Bool
deriving DecidableEq, Repr, Inhabited

/-- The commands. Every command but the two boundary rows carries in `t` the Newel time of its arrival (log entry 2). -/
inductive Instr where
  | doorbellWrite (t fn off size : Nat) (value : Word) (pub : List HostPub)
  | descriptorFetchError (t fn ring : Nat)
  | embed (t fn ring : Nat)
  | retrieve (t fn ring : Nat)
  | generate (t fn ring : Nat)
  | tokenize (t fn ring : Nat)
  | detokenize (t fn ring : Nat)
  | indexInsert (t fn ring : Nat)
  | indexDelete (t fn ring : Nat)
  | indexSetAttr (t fn ring : Nat)
  | indexConsolidate (t fn ring : Nat)
  | indexBuildBegin (t fn ring : Nat)
  | indexBuildAdd (t fn ring : Nat)
  | indexBuildFinish (t fn ring : Nat)
  | indexBuildAbort (t fn ring : Nat)
  | recallProbe (t fn ring : Nat)
  | tableGather (t fn ring : Nat)
  | tableAdd (t fn ring : Nat)
  | tableWrite (t fn ring : Nat)
  | tableCreate (t fn ring : Nat)
  | tableDestroy (t fn ring : Nat)
  | tableInfo (t fn ring : Nat)
  | tableStep (t fn ring : Nat)
  | modelLoad (t fn ring : Nat)
  | modelUnload (t fn ring : Nat)
  | indexUnload (t fn ring : Nat)
  | expertSetUnload (t fn ring : Nat)
  | steeringSetUnload (t fn ring : Nat)
  | grammarUnload (t fn ring : Nat)
  | sessionOpen (t fn ring : Nat)
  | sessionClose (t fn ring : Nat)
  | syncAdd (t fn ring : Nat)
  | syncCreate (t fn ring : Nat)
  | syncDestroy (t fn ring : Nat)
  | syncWait (t fn ring : Nat)
  | cancel (t fn ring : Nat)
  | cancelComplete (t slot : Nat)
  | syncAfterRingEffect (t slot : Nat)
  | sessionCloseComplete (t slot : Nat)
  | objectRelease (t slot : Nat)
  | treadBoundary (homes : List Nat)
  | deadlineExpiry (t slot : Nat)
  | syncWaitTimeout (t slot : Nat)
  | decodeBatchThreshold (t landing shard : Nat)
  | taskTake (t landing : Nat)
  | taskComplete (t landing step : Nat) (rep : TaskReport)
  | partialArrival (t landing : Nat) (msg : PartialMsg)
  | arcadeStepComplete (t slot : Nat)
  | checkPassHandover (t slot : Nat)
  | balustradeStep (t slot : Nat)
  | indexCommit (t slot : Nat)
  | consolidationSwitch (t slot : Nat)
  | roomVersionReclaim (t index room : Nat)
  | tableAddApply (t slot k : Nat)
  | stagedRowsApply (t slot : Nat)
  | hotRowRebuild (t die : Nat)
  | statusBlockWrite (t slot : Nat)
  | moderationCount (t fn vec : Nat)
  | moderationTimeExpiry (t fn vec : Nat)
  | adminDoorbell (t fn : Nat) (value : Word)
  | identify (t : Nat)
  | logRead (t : Nat)
  | snapshotRead (t : Nat)
  | storeWrite (t : Nat)
  | selfTest (t failed durationUs : Nat)
  | raiseFloor (t : Nat)
  | revive (t : Nat)
  | configWriteComplete (t : Nat) (readBackOk : Bool)
  | fwStart (t fn : Nat) (value : Word)
  | fwImageChecked (t : Nat)
  | fwRunning (t : Nat)
  | watchdogExpiry (t proc : Nat) (regs : List Byte) (trace : List Byte)
  | processorReady (t proc : Nat)
  | landingHang (t landing : Nat)
  | selfTestComplete (t die phys failed : Nat)
  | sparePeriodicTest (t die phys failed : Nat)
  | staleSpeaker (t die phys gen count : Nat)
  | edgeFenced (t edge : Nat) (inFlight : List Nat)
  | patrolScrub (t : Nat) (findings : List ScrubFinding)
  | landingBecomesLender (t landing : Nat) (loans : List Loan)
  | functionLevelReset (t fn : Nat)
  | flrComplete (t fn : Nat)
  | flrTimeout (t fn : Nat)
  | vfEnableWrite (t fn : Nat) (enable : Bool) (numVfs : Nat)
  | portFundamentalReset (t port : Nat)
  | portHotReset (t port : Nat)
  | portLinkDown (t port : Nat)
  | apertureWrite (t fn off : Nat) (data : List Byte)
  | apertureRead (t fn off len : Nat) (badLine : Option Nat)
  | ringCfgWrite (t fn ring : Nat) (value : Word)
  | msixUnmask (t fn vec : Nat)
  | irqForce (t fn : Nat) (value : Word)
  | mpDataWrite (t fn : Nat) (value : Word)
  | mpCommit (t fn : Nat)
  | mpClear (t fn : Nat)
  | tblDataWrite (t fn : Nat) (value : Word)
  | tblCommit (t fn : Nat)
  | tblClear (t fn : Nat)
  | walkDataWrite (t fn : Nat) (value : Word)
  | walkCommit (t fn : Nat)
  | walkClear (t fn : Nat)
  | normCommit (t fn : Nat)
  | normClear (t fn : Nat)
  | eccCountClear (t fn : Nat) (value : Word)
  | alcPinWrite (t fn alcove : Nat) (value : Word)
  | pinRegionWrite (t fn region : Nat) (value : Word)
  | pcSetWrite (t fn set die : Nat) (value : Word)
  | partRegisterWrite (t fn off : Nat) (value : Word)
  | tenRegisterWrite (t fn off : Nat) (value : Word)
  | tenRefill (t fn : Nat) (value : Word)
  | newelTreadWrite (t fn : Nat) (value : Word)
  | treadLengthChange (homes : List Nat)
  | newelTimeRead (t fn : Nat)
  | retrainPort (t fn port : Nat)
  | declarePeerLost (t fn peer : Nat)
  | declareLandingDead (t fn die phys : Nat)
  | injectResidue (t fn landing : Nat) (noCount : Bool)
  | injectEcc (t fn landing : Nat) (noCount : Bool)
  | module (t fn key : Nat)
  | partition (t fn p key : Nat)
  | processor (t fn proc key : Nat)
  | partitionResetComplete (t p : Nat)
  | moduleResetEnd (t : Nat)
  | clearMin (t fn : Nat)
  | wake (t fn : Nat)
  | freeze (t fn : Nat)
  | unfreeze (t fn : Nat)
  | snapshot (t fn : Nat)
  | clear (t fn : Nat)
  | evselWrite (t fn i : Nat) (value : Word)
  | scheduledCounterAction (t j : Nat)
  | progCounterWrap (t landing i amount : Nat)
  | sampleWrite (t landing : Nat) (entry : SampleFields)
  | registerWrite (t fn off size : Nat) (value : Word)
  | modrstNAssert (t widthNs : Nat)
  | modrstNRelease (t : Nat)
  | ppsInEdge (t : Nat)
  | supplyWarning (t vin : Nat)
  | supplyWarningClear (t vin : Nat)
  | supplyReset (t vin : Nat) (enOpen : Bool)
  | overvoltage (t vin : Nat)
  | overvoltageEnd (t vin : Nat)
  | inputQualify (t vin : Nat)
  | inputEnable (t : Nat)
  | chargeComplete (t : Nat)
  | powerOk (t : Nat)
  | powerCapEvaluate (t avgW iin : Nat)
  | dieWarn (t site temp : Nat)
  | dieThrottle (t site temp : Nat)
  | coolantHigh (t temp : Nat)
  | dieTrip (t site temp : Nat)
  | leak (t : Nat)
  | thermalConditionClear (t kind site : Nat)
  | landingClockGate (t landing : Nat)
  | wingPowerGate (t wing : Nat)
  | dormantEntry (t : Nat)
  | dormantExitComplete (t : Nat)
  | storeTokenAdd (t : Nat)
  | holdoverLong (t : Nat)
  | sourceTimeout (t : Nat)
  | ptpAnnounce (t master rank intervalNs : Nat)
  | ptpSync (t master originNs : Nat) (followUp : Bool)
  | ptpDelayResp (t master reqNs respNs : Nat)
  | galleryLinkTrained (t port lanes : Nat)
  | galleryLaneLoss (t port : Nat) (halfTrains : Bool)
  | hello (t port : Nat) (msg : HelloMsg)
  | flitError (t port seq : Nat)
  | replayRequest (t port seq : Nat)
  | staleFlitDrop (t peer gen count : Nat)
  | heartbeatSend (t : Nat)
  | heartbeat (t port peer gen : Nat)
  | peerLossTimeout (t peer : Nat)
  | lossNotice (t peer : Nat) (msg : LossMsg)
  | subRequest (t peer : Nat) (msg : SubReq)
  | subRequestPool (t peer slot : Nat) (pool : List Cand) (causes : Nat) (crcOk : Bool) (counts : List Nat)
  | t3Read (t peer addr len tag : Nat)
  | remoteTableAdd (t peer : Nat) (msg : RemoteAdd)
  | galleryTimeExchange (t peer : Nat) (offset : Int) (locked : Bool)
  | spdmGetVersion (t : Nat) (ep : SpdmEnd)
  | spdmGetCapabilities (t : Nat) (ep : SpdmEnd) (req : List Byte)
  | spdmNegotiateAlgorithms (t : Nat) (ep : SpdmEnd) (req : List Byte)
  | spdmGetDigests (t : Nat) (ep : SpdmEnd) (req : List Byte)
  | spdmGetCertificate (t : Nat) (ep : SpdmEnd) (req : List Byte)
  | spdmChallenge (t : Nat) (ep : SpdmEnd) (req : List Byte)
  | spdmGetMeasurements (t : Nat) (ep : SpdmEnd) (req : List Byte)
  | spdmUnsupported (t : Nat) (ep : SpdmEnd) (req : List Byte)
  | doeDiscovery (t fn index : Nat)
  | perstNRelease (t port : Nat)
  | hostLinkTrained (t port : Nat) (ltr : List LtrVal)
  | galleryResponse (t peer : Nat) (resp : GalResp) (crcOk : Bool)
  | peerDirectory (t peer : Nat) (dir : PeerDir)
  | ppsOutEdge (t : Nat)
  | inputCrosses62v (t : Nat) (rising : Bool) (vin : Nat)
  | newelCtrlWrite (t fn : Nat) (value : Word)
  | stillExitComplete (t wing : Nat)
deriving DecidableEq, Repr

end Sys2Proof
end

