-- ==== Sys2Proof/Machine/Data.lean ====
section
/-! DEFINITION. Sparse maps, bit fields, byte order, and byte memories in canonical form. -/

namespace Sys2Proof

/-- The value listed at key k. -/
def SMap.find {α : Type} : SMap α → Nat → Option α
  | [], _ => none
  | (a, v) :: r, k => if a = k then some v else SMap.find r k

/-- The value at key k, or d where none is listed. -/
def SMap.at {α : Type} (m : SMap α) (k : Nat) (d : α) : α := (SMap.find m k).getD d

/-- Lists v at key k, keeping the keys rising. -/
def SMap.put {α : Type} : SMap α → Nat → α → SMap α
  | [], k, v => [(k, v)]
  | (a, w) :: r, k, v =>
    if k < a then (k, v) :: (a, w) :: r
    else if k = a then (k, v) :: r
    else (a, w) :: SMap.put r k v

/-- Removes key k. -/
def SMap.del {α : Type} : SMap α → Nat → SMap α
  | [], _ => []
  | (a, w) :: r, k => if a = k then SMap.del r k else (a, w) :: SMap.del r k

/-- Changes the value at key k, where it is listed. -/
def SMap.upd {α : Type} (m : SMap α) (k : Nat) (f : α → α) : SMap α :=
  m.map fun p => if p.1 = k then (p.1, f p.2) else p

/-- Changes every value. -/
def SMap.mapVals {α β : Type} (m : SMap α) (f : Nat → α → β) : SMap β := m.map fun p => (p.1, f p.1 p.2)

/-- Keys of the entries that pass. -/
def SMap.keysOf {α : Type} (m : SMap α) (p : Nat → α → Bool) : List Nat :=
  (m.filter fun e => p e.1 e.2).map Prod.fst

/-- The lowest number below n that is not listed. -/
def SMap.firstFree {α : Type} (m : SMap α) (n : Nat) : Option Nat :=
  (List.range n).find? fun k => (SMap.find m k).isNone

/-- A number shifted left by k places. -/
def shl (v k : Nat) : Nat := v * 2 ^ k
/-- Bits [hi:lo] of a number. -/
def bitsN (v hi lo : Nat) : Nat := (v >>> lo) % 2 ^ (hi + 1 - lo)
/-- Bit i of a number. -/
def bitN (v i : Nat) : Bool := v.testBit i
/-- Bits [hi:lo] of a register. -/
def bitsW (v : Word) (hi lo : Nat) : Nat := bitsN v.toNat hi lo
def bitW (v : Word) (i : Nat) : Bool := v.toNat.testBit i
/-- A number with bits [hi:lo] replaced by x. -/
def putBits (v hi lo x : Nat) : Nat :=
  v - (shl (bitsN v hi lo) lo) + (shl (x % 2 ^ (hi + 1 - lo)) lo)
def putBitsW (v : Word) (hi lo x : Nat) : Word := BitVec.ofNat 64 (putBits v.toNat hi lo x)
def setBitW (v : Word) (i : Nat) : Word := v ||| (1 <<< i)
def clrBitW (v : Word) (i : Nat) : Word := v &&& ~~~((1 : Word) <<< i)
def b2n (b : Bool) : Nat := if b then 1 else 0
/-- Number of set bits below position n. -/
def popN : Nat → Nat → Nat
  | 0, _ => 0
  | n + 1, v => popN n v + b2n (v.testBit n)
/-- Positions of the set bits below n, ascending. -/
def setBitsOf (n v : Nat) : List Nat := (List.range n).filter fun i => v.testBit i
/-- Saturating addition at 2^w - 1. -/
def satAdd (w a b : Nat) : Nat := min (2 ^ w - 1) (a + b)

/-- A byte string. -/
abbrev Blob := List Byte

/-- Value of bytes in little-endian order. -/
def leNat : Blob → Nat
  | [] => 0
  | b :: r => b.toNat + 256 * leNat r
/-- n bytes of x in little-endian order. -/
def leBytes : Nat → Nat → Blob
  | 0, _ => []
  | n + 1, x => BitVec.ofNat 8 x :: leBytes n (x / 256)
/-- Value of bytes in big-endian order. -/
def beNat (b : Blob) : Nat := b.foldl (fun a x => a * 256 + x.toNat) 0
def beBytes (n x : Nat) : Blob := (leBytes n x).reverse
def zeros (n : Nat) : Blob := List.replicate n 0#8
/-- The n bytes at an offset; bytes past the end read as zero. -/
def Blob.slice (b : Blob) (off n : Nat) : Blob :=
  let r := (b.drop off).take n
  r ++ zeros (n - r.length)
/-- The n-byte little-endian value at an offset. -/
def Blob.u (b : Blob) (off n : Nat) : Nat := leNat (Blob.slice b off n)
def Blob.u8 (b : Blob) (off : Nat) : Nat := Blob.u b off 1
def Blob.u16 (b : Blob) (off : Nat) : Nat := Blob.u b off 2
def Blob.u32 (b : Blob) (off : Nat) : Nat := Blob.u b off 4
def Blob.u64 (b : Blob) (off : Nat) : Nat := Blob.u b off 8
/-- Whether bytes lo up to and without hi are all zero. -/
def Blob.zeroIn (b : Blob) (lo hi : Nat) : Bool := (Blob.slice b lo (hi - lo)).all (· == 0#8)
/-- A byte string with the bytes at an offset replaced. -/
def Blob.patch (b : Blob) (off : Nat) (x : Blob) : Blob := b.take off ++ x ++ b.drop (off + x.length)

/-- A byte memory: addresses strictly rising, no zero byte listed (log entry 6). -/
abbrev Memory := List Host.Cell

/-- What an unlisted byte reads as (log entry 6). -/
def Memory.blank : Byte := 0#8

/-- Reads one byte. -/
def Memory.read : Memory → Nat → Byte
  | [], _ => Memory.blank
  | (a, b) :: r, k => if a = k then b else Memory.read r k

/-- Writes one byte, keeping the canonical form. -/
def Memory.write : Memory → Nat → Byte → Memory
  | [], k, b => if b = Memory.blank then [] else [(k, b)]
  | (a, c) :: r, k, b =>
    if k < a then (if b = Memory.blank then (a, c) :: r else (k, b) :: (a, c) :: r)
    else if k = a then (if b = Memory.blank then r else (k, b) :: r)
    else (a, c) :: Memory.write r k b

/-- Reads n bytes from an address upward. -/
def Memory.readN (m : Memory) (a n : Nat) : Blob := (List.range n).map fun i => Memory.read m (a + i)

/-- Writes bytes from an address upward. -/
def Memory.writeN : Memory → Nat → Blob → Memory
  | m, _, [] => m
  | m, a, b :: r => Memory.writeN (Memory.write m a b) (a + 1) r

/-- The keys of a memory rise from a lower bound and no byte listed is blank. -/
def Memory.wfFrom : Nat → Memory → Bool
  | _, [] => true
  | lo, (a, b) :: r => decide (lo ≤ a) && (b != Memory.blank) && Memory.wfFrom (a + 1) r

/-- The canonical form. -/
def Memory.wf (m : Memory) : Bool := Memory.wfFrom 0 m

end Sys2Proof
end

