-- ==== Sys2Proof/Machine/Crypto.lean ====
section
/-! DEFINITION. CRC-32C (R546), the SM3 digest, SM2 signatures and the device key (R418, R485, R488). SM3 and SM2 follow the standards the spec names (PRESUMED, log entry 10). -/

namespace Sys2Proof.Machine

/-- One bit of the reflected CRC register with polynomial 0x82F63B78 (R546). -/
def crcBit (r : BitVec 32) : BitVec 32 :=
  if r.getLsbD 0 then (r >>> 1) ^^^ 0x82F63B78#32 else r >>> 1

def crcByte (r : BitVec 32) (b : Byte) : BitVec 32 :=
  let x := r ^^^ b.setWidth 32
  crcBit (crcBit (crcBit (crcBit (crcBit (crcBit (crcBit (crcBit x)))))))

/-- CRC-32C of bytes with an initial value (R546). -/
def crc32cFrom (init : BitVec 32) (b : Blob) : BitVec 32 :=
  (b.foldl crcByte (init ^^^ 0xFFFFFFFF#32)) ^^^ 0xFFFFFFFF#32

/-- CRC-32C of bytes (R546). -/
def crc32c (b : Blob) : BitVec 32 := crc32cFrom 0#32 b

/-! ## SM3 -/

abbrev W32 := BitVec 32

def rotl (x : W32) (n : Nat) : W32 := x.rotateLeft n

def sm3P0 (x : W32) : W32 := x ^^^ rotl x 9 ^^^ rotl x 17
def sm3P1 (x : W32) : W32 := x ^^^ rotl x 15 ^^^ rotl x 23
def sm3FF (j : Nat) (x y z : W32) : W32 :=
  if j < 16 then x ^^^ y ^^^ z else (x &&& y) ||| (x &&& z) ||| (y &&& z)
def sm3GG (j : Nat) (x y z : W32) : W32 :=
  if j < 16 then x ^^^ y ^^^ z else (x &&& y) ||| (~~~x &&& z)
def sm3T (j : Nat) : W32 := if j < 16 then 0x79CC4519#32 else 0x7A879D8A#32

/-- The 68 expanded words of a block, from the 16 words given newest first. -/
def sm3Expand : Nat → List W32 → List W32
  | 0, w => w
  | n + 1, w =>
    let g := fun i => w.getD i 0#32
    -- w is newest first: W[j-1] stands at 0, W[j-16] at 15
    sm3Expand n ((sm3P1 (g 15 ^^^ g 8 ^^^ rotl (g 2) 15) ^^^ rotl (g 12) 7 ^^^ g 5) :: w)

structure Sm3V where
  a : W32
  b : W32
  c : W32
  d : W32
  e : W32
  f : W32
  g : W32
  h : W32
deriving DecidableEq, Repr, Inhabited

def sm3Round (v : Sm3V) (j : Nat) (w w4 : W32) : Sm3V :=
  let ss1 := rotl (rotl v.a 12 + v.e + rotl (sm3T j) (j % 32)) 7
  let ss2 := ss1 ^^^ rotl v.a 12
  let tt1 := sm3FF j v.a v.b v.c + v.d + ss2 + (w ^^^ w4)
  let tt2 := sm3GG j v.e v.f v.g + v.h + ss1 + w
  { a := tt1, b := v.a, c := rotl v.b 9, d := v.c, e := sm3P0 tt2, f := v.e, g := rotl v.f 19, h := v.g }

def sm3Rounds : Nat → Sm3V → List W32 → Sm3V
  | _, v, [] => v
  | j, v, w :: r =>
    match r with
    | _ :: _ :: _ :: w4 :: _ => sm3Rounds (j + 1) (sm3Round v j w w4) r
    | _ => v

def sm3Xor (x y : Sm3V) : Sm3V :=
  { a := x.a ^^^ y.a, b := x.b ^^^ y.b, c := x.c ^^^ y.c, d := x.d ^^^ y.d,
    e := x.e ^^^ y.e, f := x.f ^^^ y.f, g := x.g ^^^ y.g, h := x.h ^^^ y.h }

/-- Words of a byte string, big-endian. -/
def wordsBE : Nat → Blob → List W32
  | 0, _ => []
  | n + 1, b => BitVec.ofNat 32 (beNat (Blob.slice b 0 4)) :: wordsBE n (b.drop 4)

def sm3Block (v : Sm3V) (b : Blob) : Sm3V :=
  sm3Xor (sm3Rounds 0 v (sm3Expand 52 (wordsBE 16 b).reverse).reverse) v

def sm3Blocks : Nat → Sm3V → Blob → Sm3V
  | 0, v, _ => v
  | n + 1, v, b => sm3Blocks n (sm3Block v (b.take 64)) (b.drop 64)

def sm3Iv : Sm3V :=
  { a := 0x7380166F#32, b := 0x4914B2B9#32, c := 0x172442D7#32, d := 0xDA8A0600#32,
    e := 0xA96F30BC#32, f := 0x163138AA#32, g := 0xE38DEE4D#32, h := 0xB0FB0E4E#32 }

def sm3Pad (b : Blob) : Blob :=
  let n := b.length
  b ++ 0x80#8 :: zeros ((119 - n % 64) % 64) ++ beBytes 8 (8 * n)

/-- The 32-byte SM3 digest. -/
def sm3 (b : Blob) : Blob :=
  let p := sm3Pad b
  let v := sm3Blocks (p.length / 64) sm3Iv p
  [v.a, v.b, v.c, v.d, v.e, v.f, v.g, v.h].flatMap fun w => beBytes 4 w.toNat

/-! ## SM2 -/

def sm2P : Nat := 0xFFFFFFFEFFFFFFFFFFFFFFFFFFFFFFFFFFFFFFFF00000000FFFFFFFFFFFFFFFF
def sm2B : Nat := 0x28E9FA9E9D9F5E344D5A9E4BCF6509A7F39789F515AB8F92DDBCBD414D940E93
def sm2N : Nat := 0xFFFFFFFEFFFFFFFFFFFFFFFFFFFFFFFF7203DF6B21C6052B53BBF40939D54123
def sm2Gx : Nat := 0x32C4AE2C1F1981195F9904466A39C9948FE30BBFF2660BE1715A4589334C74C7
def sm2Gy : Nat := 0xBC3736A2F4F6779C59BDCEE36B692153D0A9877CC62A474002DF32E52139F0A0

/-- x to the power e modulo p, over the low n bits of e. -/
def powMod (p : Nat) : Nat → Nat → Nat → Nat
  | 0, _, _ => 1 % p
  | n + 1, x, e => (if e % 2 = 1 then x else 1) * powMod p n (x * x % p) (e / 2) % p

/-- A point in Jacobian coordinates; z = 0 is the point at infinity. -/
structure Jac where
  x : Nat
  y : Nat
  z : Nat
deriving DecidableEq, Repr, Inhabited

def subP (a b : Nat) : Nat := (a + (sm2P - b % sm2P)) % sm2P

def Jac.dbl (q : Jac) : Jac :=
  if q.z = 0 then q else
  let zz := q.z * q.z % sm2P
  let m := 3 * (subP q.x zz) * ((q.x + zz) % sm2P) % sm2P
  let yy := q.y * q.y % sm2P
  let s := 4 * q.x * yy % sm2P
  let x := subP (m * m) (2 * s)
  { x := x, y := subP (m * subP s x) (8 * yy * yy), z := 2 * q.y * q.z % sm2P }

def Jac.add (a b : Jac) : Jac :=
  if a.z = 0 then b else if b.z = 0 then a else
  let z1 := a.z * a.z % sm2P
  let z2 := b.z * b.z % sm2P
  let u1 := a.x * z2 % sm2P
  let u2 := b.x * z1 % sm2P
  let s1 := a.y * z2 % sm2P * b.z % sm2P
  let s2 := b.y * z1 % sm2P * a.z % sm2P
  if u1 = u2 then (if s1 = s2 then Jac.dbl a else { x := 1, y := 1, z := 0 }) else
  let h := subP u2 u1
  let r := subP s2 s1
  let hh := h * h % sm2P
  let hhh := hh * h % sm2P
  let v := u1 * hh % sm2P
  let x := subP (r * r) (hhh + 2 * v)
  { x := x, y := subP (r * subP v x) (s1 * hhh), z := a.z * b.z % sm2P * h % sm2P }

/-- Scalar multiple over the low n bits of k. -/
def Jac.mul : Nat → Nat → Jac → Jac
  | 0, _, _ => { x := 1, y := 1, z := 0 }
  | n + 1, k, q =>
    let h := Jac.mul n (k / 2) (Jac.dbl q)
    if k % 2 = 1 then Jac.add h q else h

/-- Affine x of a finite point. -/
def Jac.affX (q : Jac) : Nat :=
  let zi := powMod sm2P 256 q.z (sm2P - 2)
  q.x * (zi * zi % sm2P) % sm2P

/-- Affine y of a finite point. -/
def Jac.affY (q : Jac) : Nat :=
  let zi := powMod sm2P 256 q.z (sm2P - 2)
  q.y * (zi * zi % sm2P * zi % sm2P) % sm2P
def sm2G : Jac := { x := sm2Gx, y := sm2Gy, z := 1 }
/-- The 64-byte public key x ‖ y of a private key. -/
def sm2Public (d : Nat) : Blob := let q := Jac.mul 256 d sm2G; beBytes 32 q.affX ++ beBytes 32 q.affY

/-- The default identity of the standard. -/
def sm2Id : Blob := [0x31#8, 0x32#8, 0x33#8, 0x34#8, 0x35#8, 0x36#8, 0x37#8, 0x38#8,
                     0x31#8, 0x32#8, 0x33#8, 0x34#8, 0x35#8, 0x36#8, 0x37#8, 0x38#8]

def sm2Za (px py : Nat) : Blob :=
  sm3 ([0x00#8, 0x80#8] ++ sm2Id ++ beBytes 32 (sm2P - 3) ++ beBytes 32 sm2B ++ beBytes 32 sm2Gx
    ++ beBytes 32 sm2Gy ++ beBytes 32 px ++ beBytes 32 py)

/-- Whether a 64-byte signature r ‖ s over a message verifies with a 64-byte public key x ‖ y. -/
def sm2Verify (key msg sig : Blob) : Bool :=
  let px := beNat (Blob.slice key 0 32)
  let py := beNat (Blob.slice key 32 32)
  let r := beNat (Blob.slice sig 0 32)
  let s := beNat (Blob.slice sig 32 32)
  let onCurve := decide (px < sm2P) && decide (py < sm2P) &&
    (py * py % sm2P == (px * px % sm2P * px + (sm2P - 3) * px + sm2B) % sm2P)
  let e := beNat (sm3 (sm2Za px py ++ msg))
  let t := (r + s) % sm2N
  if !onCurve || r = 0 || sm2N ≤ r || s = 0 || sm2N ≤ s || t = 0 then false else
  let q := Jac.add (Jac.mul 256 s { x := sm2Gx, y := sm2Gy, z := 1 }) (Jac.mul 256 t { x := px, y := py, z := 1 })
  if q.z = 0 then false else (e + Jac.affX q) % sm2N == r

/-- A signature r ‖ s over a message with private key d and a random k; none where the standard draws another k. -/
def sm2SignWith (d k : Nat) (msg : Blob) : Option Blob :=
  let key := Jac.mul 256 d sm2G
  let e := beNat (sm3 (sm2Za key.affX key.affY ++ msg))
  let r := (e + (Jac.mul 256 k sm2G).affX) % sm2N
  let s := powMod sm2N 256 (1 + d) (sm2N - 2) * ((k + (sm2N - r * d % sm2N)) % sm2N) % sm2N
  if k = 0 || sm2N ≤ k || r = 0 || r + k = sm2N || s = 0 then none else some (beBytes 32 r ++ beBytes 32 s)
/-- A signature with the first random number that serves. -/
def sm2Sign (d : Nat) (ks : List Nat) (msg : Blob) : Blob := (ks.findSome? fun k => sm2SignWith d k msg).getD (zeros 64)

/-- The key derivation function of the SM2 standard for one block of 256 bits. -/
def sm2Kdf (z : Blob) : Nat := beNat (sm3 (z ++ beBytes 4 1))
/-- The ASCII label LSH-DEVID. -/
def deviceLabel : Blob := [0x4C#8, 0x53#8, 0x48#8, 0x2D#8, 0x44#8, 0x45#8, 0x56#8, 0x49#8, 0x44#8]
/-- The device private key of a fused secret (R485): a result of 0 is derived again with a counter byte appended. -/
def deviceKey (secret : Blob) : Nat :=
  let z := secret ++ deviceLabel
  let first := sm2Kdf z % sm2N
  if first != 0 then first else
  (((List.range 255).map fun i => sm2Kdf (z ++ beBytes 1 (i + 1)) % sm2N).find? fun d => d != 0).getD 0

end Sys2Proof.Machine
end

