-- ==== Sys2Proof/Config.lean ====
section
/-! DEFINITION. What a member of the family fixes (R1, R530), and the free values: constants without a body. -/

namespace Sys2Proof

/-- The members of the Loresh family (R1). -/
inductive Member where
  | e32 | e28 | e16 | e05
deriving DecidableEq, Repr, Inhabited

def Member.halls : Member → Nat
  | .e32 => 8 | .e28 => 8 | .e16 => 4 | .e05 => 1
def Member.vestibules : Member → Nat
  | .e32 => 4 | .e28 => 4 | .e16 => 2 | .e05 => 1
def Member.alcoves : Member → Nat
  | .e32 => 4 | .e28 => 4 | .e16 => 2 | .e05 => 1
def Member.nStacks : Member → Nat
  | .e32 => 16 | .e28 => 12 | .e16 => 8 | .e05 => 2
def Member.sites : Member → Nat
  | .e32 => 32 | .e28 => 28 | .e16 => 16 | .e05 => 5
def Member.landings (m : Member) : Nat := 48 * m.halls
def Member.wings (m : Member) : Nat := 6 * m.halls
def Member.ports (m : Member) : Nat := m.vestibules
def Member.galPorts (m : Member) : Nat := 3 * m.vestibules
/-- Capacity of the HBM in bytes: 36 GB a stack (R1, R14). -/
def Member.hbmBytes : Member → Nat
  | .e32 => 576000000000 | .e28 => 432000000000 | .e16 => 288000000000 | .e05 => 72000000000
def Member.speculates : Member → Bool
  | .e32 => true | _ => false
/-- Sustained maximum power in W (R530). -/
def Member.sustainedW : Member → Nat
  | .e32 => 4400 | .e28 => 4280 | .e16 => 2200 | .e05 => 650
/-- The bit of MEMBERS in a firmware image (R417). -/
def Member.imageBit : Member → Nat
  | .e32 => 0 | .e28 => 1 | .e16 => 2 | .e05 => 3
/-- Stacks local to Hall die h (R2, R15). -/
def Member.dieStacks (m : Member) (h : Nat) : Nat :=
  if m.halls ≤ h then 0 else match m with
    | .e28 => if h < 4 then 2 else 1
    | _ => 2

/-! Free values. Nothing in Lean can evaluate one; a statement that mentions one holds for every value of it. -/

/-- Bits of a special function whose accuracy alone the spec gives (R71, R73, R88), by the SFU revision, the mode, the code and the input. -/
opaque Config.sfuBits : (sfu : Nat) → (rilqua : Bool) → (code : Nat) → F32 → F32
/-- The stored keys (before the rotary transform) and values of a row (R266, R271), by the generator's image CRC, the variant number, the row's token and position, and what it attends to in ascending
order: the sines and cosines of each entry's position of use, and its keys and values (log entry 65). -/
opaque Config.rowKv : (image variant token pos : Nat) → (seen : List (List (F32 × F32) × List Byte)) → List Byte
/-- FP32 logit of the token `next` that the row of the last token gives (R288). -/
opaque Config.rowLogit : (image variant token pos : Nat) → (seen : List (List (F32 × F32) × List Byte)) → (next : Nat) → F32
/-- The frequencies of a generator's rotary transform (R72), which no header field gives. -/
opaque Config.rotaryFreqs : (image : Nat) → List F32
/-- Element e of the embedding of a token sequence (R353), by the model's image CRC and the mode. -/
opaque Config.embedElem : (image : Nat) → (rilqua : Bool) → (tokens : List Nat) → (e : Nat) → F32
/-- Output dimension of an embedding model, which no header field gives (R277, R353): below 2^30, so that an FP32 result fits the 32-bit result length (R351; log entry 38). -/
opaque Config.outDim : (image : Nat) → BitVec 30
/-- Attention probability of token j in a head and query row of the next layer of a cross-encoder (R256), by the model's image CRC, the mode, the pair's tokens and the places kept after each layer
so far. -/
opaque Config.pairProb : (image : Nat) → (rilqua : Bool) → (pair : List Nat) → (kept : List (List Nat)) → (head row j : Nat) → F32
/-- Cross-encoder score of a pair (R257), by the model's image CRC, the mode, the pair's tokens and the places kept after each layer. -/
opaque Config.pairScore : (image : Nat) → (rilqua : Bool) → (pair : List Nat) → (kept : List (List Nat)) → F32
/-- Whether a MODRST_N pulse of 150 ns to 200 ns starts a reset (R525), by a fresh number. -/
opaque Config.modrstTaken : Nat → Bool
/-- The random numbers of an SM2 signature (R488), by a fresh number and the attempt: the standard draws again where one does not serve. -/
opaque Config.signNonce : (fresh : Nat) → (attempt : Nat) → BitVec 256
/-- The message that an SPDM signature covers, by the transcript: DMTF and not the spec fixes its form (R488). -/
opaque Config.signedForm : List Byte → List Byte
/-- The Dorund root, the family intermediate and the device certificate in DER (R486); the device certificate names the serial number, the order code, the behaviour and the public key. -/
opaque Config.rootCert : List Byte
opaque Config.familyCert : List Byte
opaque Config.deviceCert : (serial orderCode behaviour : Nat) → (publicKey : List Byte) → List Byte
/-- The SM3 measurement of the boot ROM (R490 index 1). -/
opaque Config.romDigest : List Byte
/-- Encoded payload of an SPDM response whose bytes DMTF and not the spec fixes (R488), by kind, request and a fresh number. -/
opaque Config.spdmBody : (kind : Nat) → (req : List Byte) → (fresh : Nat) → List Byte
/-- The fraction of a nanosecond that a read of NEWEL_TIME latches (R404), by a fresh number: commands carry whole nanoseconds. -/
opaque Config.newelFrac : Nat → BitVec 32

/-- What section 8 of a rerank model's image gives (R255, R256, R277): the token runs of a pair, the keep count of each layer, and the attention heads of a layer. -/
structure PairRuns where
  pfx   : List Nat
  sep   : List Nat
  sfx   : List Nat
  keep  : List Nat
  heads : Nat
deriving DecidableEq, Repr, Inhabited

/-- The reading of section 8, whose format no rule gives (log entry 65). -/
opaque Config.pairRuns : (section8 : List Byte) → PairRuns
/-- A weight tile of an image: its kind, its offset in the image, its layer, its N-tile, and its expert where it is no dense tile (routed experts first, then shared ones; R39, R280). -/
structure TileRec where
  kind   : Machine.Tile.Kind
  off    : Nat
  layer  : Nat
  ntile  : Nat
  expert : Option Nat
deriving DecidableEq, Repr, Inhabited

/-- The tiles of an image in the order of its sections 4 and 5 (R277): no rule gives the directory that says where each tile stands (log entry 57). -/
opaque Config.imageTiles : (image : List Byte) → List TileRec

/-- What the step programs of an image name (R70, R94): function codes, and whether one names a T3 or T4 address as a write target. Their format is the firmware's (log entry 57). -/
structure StepNames where
  codes  : List Nat
  outward : Bool
deriving DecidableEq, Repr, Inhabited

opaque Config.stepNames : (image : List Byte) → StepNames
/-- The instructions of walker programs 0 to 15, which the firmware image supplies (R111): by release and program number. -/
opaque Config.walkProg : (release : Nat) → (program : Nat) → List Word
/-- A byte that a walk or a fill reads at an address that its step's region table does not map (R110). -/
opaque Config.unmappedByte : (addr : Nat) → Byte
/-- Detail bits of a RESIDUE record for an injected fault (expected, found, K-tile index of the output it fires on) and the address of a landing-store
word for an injected error (R551), by a fresh number: commands do not show the output or the word. -/
opaque Config.injectedDetail : Nat → BitVec 32
opaque Config.injectedAddr : Nat → BitVec 64

end Sys2Proof
end

