-- ==== Sys2Proof/Machine/Regs.lean ====
section
/-! DEFINITION. The register tables of the spec: offset in the Control window of a physical function (R11, R13), width, access, reset value, writable or clearable bits, and domain (00_scope, Conventions). -/

namespace Sys2Proof.Machine

/-- Access types (00_scope, Conventions). -/
inductive Access where
  | rw | ro | wo | w1c | rwl
deriving DecidableEq, Repr, Inhabited

/-- Reset domains (00_scope, Conventions). -/
inductive Domain where
  | cold | module | port | function | partition | processor | sticky | stored | none
deriving DecidableEq, Repr, Inhabited

/-- One row of a register table. `mask` holds the bits that a write can change (or, for W1C, clear). -/
structure RegRow where
  name   : String
  off    : Nat
  count  : Nat
  stride : Nat
  width  : Nat
  access : Access
  reset  : Nat
  mask   : Nat
  dom    : Domain
deriving DecidableEq, Repr, Inhabited

namespace Reg

/-- ID_ORDER_CODE (R8). -/
def idOrderCode : Nat := 0x0
/-- ID_STEPPING (R8). -/
def idStepping : Nat := 0x4
/-- ID_BEHAVIOUR (R8). -/
def idBehaviour : Nat := 0x8
/-- ID_IF_VERSION (R8). -/
def idIfVersion : Nat := 0xc
/-- ID_SERIAL (R8). -/
def idSerial : Nat := 0x10
/-- ID_RESOURCES (R8). -/
def idResources : Nat := 0x18
/-- SFU_CAPS (R90). -/
def sfuCaps : Nat := 0x70000
/-- SFU_MP_SEL (R90). -/
def sfuMpSel : Nat := 0x70008
/-- SFU_MP_DATA (R90). -/
def sfuMpData : Nat := 0x70010
/-- SFU_MP_SPECIAL (R90). -/
def sfuMpSpecial : Nat := 0x70018
/-- SFU_MP_CMD (R90). -/
def sfuMpCmd : Nat := 0x70020
/-- SFU_MP_STATUS (R90). -/
def sfuMpStatus : Nat := 0x70028
/-- SFU_MP_DIGEST (R90). -/
def sfuMpDigest : Nat := 0x70030
/-- SFU_TBL_SEL (R90). -/
def sfuTblSel : Nat := 0x70038
/-- SFU_TBL_DATA (R90). -/
def sfuTblData : Nat := 0x70040
/-- SFU_TBL_CMD (R90). -/
def sfuTblCmd : Nat := 0x70048
/-- SFU_TBL_STATUS (R90). -/
def sfuTblStatus : Nat := 0x70050
/-- SFU_LOCK (R90). -/
def sfuLock : Nat := 0x70058
/-- SFU_SLOT_VALID, an array of 8 (R90). -/
def sfuSlotValid (i : Nat) : Nat := 0x70080 + 0x4 * i
/-- SFU_TBL_VALID (R90). -/
def sfuTblValid : Nat := 0x700c0
/-- SFU_MP_CONST, an array of 32 (R90). -/
def sfuMpConst (i : Nat) : Nat := 0x70100 + 0x4 * i
/-- SFU_COMPAT, an array of 16 (R90). -/
def sfuCompat (i : Nat) : Nat := 0x70200 + 0x4 * i
/-- MEM_CAPS (R118). -/
def memCaps : Nat := 0x90000
/-- MEM_LOCK (R118). -/
def memLock : Nat := 0x90008
/-- MEM_LEND (R118). -/
def memLend : Nat := 0x90010
/-- MEM_STAIR (R118). -/
def memStair : Nat := 0x90018
/-- MEM_SCRUB (R118). -/
def memScrub : Nat := 0x90020
/-- MEM_STATUS (R118). -/
def memStatus : Nat := 0x90028
/-- MEM_ECC_CLEAR (R118). -/
def memEccClear : Nat := 0x90030
/-- MEM_ECC_COUNT, an array of 8 (R118). -/
def memEccCount (i : Nat) : Nat := 0x90040 + 0x4 * i
/-- MEM_OUTSTANDING, an array of 16 (R118). -/
def memOutstanding (i : Nat) : Nat := 0x90080 + 0x4 * i
/-- MEM_ALC_PIN, an array of 4 (R118). -/
def memAlcPin (i : Nat) : Nat := 0x90100 + 0x4 * i
/-- MEM_ALC_WAYS, an array of 16 (R118). -/
def memAlcWays (i : Nat) : Nat := 0x90140 + 0x4 * i
/-- MEM_PIN_REGION, an array of 32 (R118). -/
def memPinRegion (i : Nat) : Nat := 0x90200 + 0x8 * i
/-- MEM_PC_SET, an array of 136 (R118). -/
def memPcSet (i : Nat) : Nat := 0x91000 + 0x8 * i
/-- MEM_WALK_SEL (R118). -/
def memWalkSel : Nat := 0x91800
/-- MEM_WALK_DATA (R118). -/
def memWalkData : Nat := 0x91808
/-- MEM_WALK_CMD (R118). -/
def memWalkCmd : Nat := 0x91810
/-- MEM_WALK_STATUS (R118). -/
def memWalkStatus : Nat := 0x91818
/-- MEM_WALK_DIGEST (R118). -/
def memWalkDigest : Nat := 0x91820
/-- MEM_WALK_VALID, an array of 2 (R118). -/
def memWalkValid (i : Nat) : Nat := 0x91840 + 0x4 * i
/-- PART_CAPS (R147). -/
def partCaps : Nat := 0x10000
/-- PART_LOCK (R147). -/
def partLock : Nat := 0x10008
/-- PART_STATUS (R147). -/
def partStatus : Nat := 0x10010
/-- PART_SYNC_FREE (R147). -/
def partSyncFree : Nat := 0x10018
/-- PART_CTRL, an array of 16 (R147). -/
def partCtrl (i : Nat) : Nat := 0x11000 + 0x100 * i
/-- PART_WINGS, an array of 16 (R147). -/
def partWings (i : Nat) : Nat := 0x11008 + 0x100 * i
/-- PART_STATE, an array of 16 (R147). -/
def partState (i : Nat) : Nat := 0x11010 + 0x100 * i
/-- PART_STEAL, an array of 16 (R147). -/
def partSteal (i : Nat) : Nat := 0x11018 + 0x100 * i
/-- PART_DEADLINE, an array of 16 (R147). -/
def partDeadline (i : Nat) : Nat := 0x11020 + 0x100 * i
/-- PART_DECODE_BATCH, an array of 16 (R147). -/
def partDecodeBatch (i : Nat) : Nat := 0x11028 + 0x100 * i
/-- PART_SPEC, an array of 16 (R147). -/
def partSpec (i : Nat) : Nat := 0x11030 + 0x100 * i
/-- PART_SYNC, an array of 16 (R147). -/
def partSync (i : Nat) : Nat := 0x11038 + 0x100 * i
/-- PART_SYNC_USE, an array of 16 (R147). -/
def partSyncUse (i : Nat) : Nat := 0x11040 + 0x100 * i
/-- PART_LAT_TOL, an array of 16 (R147). -/
def partLatTol (i : Nat) : Nat := 0x11048 + 0x100 * i
/-- TXT_CAPS (R173). -/
def txtCaps : Nat := 0xb0000
/-- TXT_LOCK (R173). -/
def txtLock : Nat := 0xb0008
/-- TXT_NORM_SEL (R173). -/
def txtNormSel : Nat := 0xb0010
/-- TXT_NORM_SRC (R173). -/
def txtNormSrc : Nat := 0xb0018
/-- TXT_NORM_CMD (R173). -/
def txtNormCmd : Nat := 0xb0020
/-- TXT_NORM_STATUS (R173). -/
def txtNormStatus : Nat := 0xb0028
/-- TXT_NORM_VERSION, an array of 8 (R173). -/
def txtNormVersion (i : Nat) : Nat := 0xb0040 + 0x4 * i
/-- TXT_NORM_DIGEST, an array of 8 (R173). -/
def txtNormDigest (i : Nat) : Nat := 0xb0060 + 0x4 * i
/-- TXT_VOCAB, an array of 8 (R173). -/
def txtVocab (i : Nat) : Nat := 0xb0080 + 0x8 * i
/-- TXT_REPLACED, an array of 4 (R173). -/
def txtReplaced (i : Nat) : Nat := 0xb00c0 + 0x4 * i
/-- TXT_STOPS, an array of 4 (R173). -/
def txtStops (i : Nat) : Nat := 0xb00d0 + 0x4 * i
/-- IDX_CAPS (R210). -/
def idxCaps : Nat := 0xa0000
/-- IDX_EPOCH (R210). -/
def idxEpoch : Nat := 0xa0008
/-- IDX_OLDEST_SNAP (R210). -/
def idxOldestSnap : Nat := 0xa0010
/-- IDX_SLOTS_USED (R210). -/
def idxSlotsUsed : Nat := 0xa0018
/-- IDX_TOMB_USED (R210). -/
def idxTombUsed : Nat := 0xa0020
/-- IDX_STATUS (R210). -/
def idxStatus : Nat := 0xa0028
/-- IDX_WARN (R210). -/
def idxWarn : Nat := 0xa0030
/-- IDX_STATE, an array of 8 (R210). -/
def idxState (i : Nat) : Nat := 0xa1000 + 0x100 * i
/-- IDX_SHAPE, an array of 8 (R210). -/
def idxShape (i : Nat) : Nat := 0xa1008 + 0x100 * i
/-- IDX_BUDGET, an array of 8 (R210). -/
def idxBudget (i : Nat) : Nat := 0xa1010 + 0x100 * i
/-- IDX_SLOTS, an array of 8 (R210). -/
def idxSlots (i : Nat) : Nat := 0xa1018 + 0x100 * i
/-- IDX_LIVE, an array of 8 (R210). -/
def idxLive (i : Nat) : Nat := 0xa1020 + 0x100 * i
/-- IDX_SPILL, an array of 8 (R210). -/
def idxSpill (i : Nat) : Nat := 0xa1028 + 0x100 * i
/-- IDX_VERSIONS, an array of 8 (R210). -/
def idxVersions (i : Nat) : Nat := 0xa1030 + 0x100 * i
/-- IDX_BUILT, an array of 8 (R210). -/
def idxBuilt (i : Nat) : Nat := 0xa1038 + 0x100 * i
/-- RING_CAPS (R364). -/
def ringCaps : Nat := 0x2000
/-- RING_FUNC (R364). -/
def ringFunc : Nat := 0x2008
/-- RING_STATUS (R364). -/
def ringStatus : Nat := 0x2010
/-- RING_DB_ERRORS (R364). -/
def ringDbErrors : Nat := 0x2018
/-- RING_APT_BASE (R364). -/
def ringAptBase : Nat := 0x2020
/-- RING_ADMIN_SQ (R364). -/
def ringAdminSq : Nat := 0x2028
/-- RING_ADMIN_CQ (R364). -/
def ringAdminCq : Nat := 0x2030
/-- RING_ADMIN_DB (R364). -/
def ringAdminDb : Nat := 0x2038
/-- RING_ADMIN_STATE (R364). -/
def ringAdminState : Nat := 0x2040
/-- RING_BASE, an array of 64 (R364). -/
def ringBase (i : Nat) : Nat := 0x2800 + 0x20 * i
/-- RING_CFG, an array of 64 (R364). -/
def ringCfg (i : Nat) : Nat := 0x2808 + 0x20 * i
/-- RING_INDEX, an array of 64 (R364). -/
def ringIndex (i : Nat) : Nat := 0x2810 + 0x20 * i
/-- RING_SHADOW, an array of 64 (R364). -/
def ringShadow (i : Nat) : Nat := 0x2818 + 0x20 * i
/-- IRQ_CAPS (R366). -/
def irqCaps : Nat := 0x3000
/-- IRQ_FORCE (R366). -/
def irqForce : Nat := 0x3008
/-- IRQ_MOD, an array of 256 (R366). -/
def irqMod (i : Nat) : Nat := 0x3800 + 0x8 * i
/-- IRQ_MSIX_TABLE, an array of 256 (R366). -/
def irqMsixTable (i : Nat) : Nat := 0x4000 + 0x10 * i
/-- IRQ_MSIX_PBA, an array of 4 (R366). -/
def irqMsixPba (i : Nat) : Nat := 0x5000 + 0x8 * i
/-- TEN_CAPS (R378). -/
def tenCaps : Nat := 0x20000
/-- TEN_LOCK (R378). -/
def tenLock : Nat := 0x20008
/-- TEN_STATUS (R378). -/
def tenStatus : Nat := 0x20010
/-- TEN_SEL (R378). -/
def tenSel : Nat := 0x20018
/-- TEN_CFG (R378). -/
def tenCfg : Nat := 0x20020
/-- TEN_RATE (R378). -/
def tenRate : Nat := 0x20028
/-- TEN_BAL (R378). -/
def tenBal : Nat := 0x20030
/-- TEN_CHARGED (R378). -/
def tenCharged : Nat := 0x20038
/-- TEN_STATE (R378). -/
def tenState : Nat := 0x20040
/-- TEN_REFUSED (R378). -/
def tenRefused : Nat := 0x20048
/-- TEN_REFILL (R378). -/
def tenRefill : Nat := 0x20050
/-- TEN_BIND, an array of 1024 (R378). -/
def tenBind (i : Nat) : Nat := 0x22000 + 0x8 * i
/-- GAL_CAPS (R403). -/
def galCaps : Nat := 0x80000
/-- GAL_LOCK (R403). -/
def galLock : Nat := 0x80008
/-- GAL_ID (R403). -/
def galId : Nat := 0x80010
/-- GAL_STATUS (R403). -/
def galStatus : Nat := 0x80018
/-- GAL_LOSS (R403). -/
def galLoss : Nat := 0x80020
/-- GAL_CMD (R403). -/
def galCmd : Nat := 0x80028
/-- GAL_STALE (R403). -/
def galStale : Nat := 0x80030
/-- GAL_PORT, an array of 12 (R403). -/
def galPort (i : Nat) : Nat := 0x80100 + 0x4 * i
/-- GAL_PORT_CTRL, an array of 12 (R403). -/
def galPortCtrl (i : Nat) : Nat := 0x80140 + 0x4 * i
/-- GAL_ERR, an array of 12 (R403). -/
def galErr (i : Nat) : Nat := 0x80180 + 0x8 * i
/-- GAL_PEER, an array of 16 (R403). -/
def galPeer (i : Nat) : Nat := 0x80200 + 0x4 * i
/-- GAL_PART, an array of 16 (R403). -/
def galPart (i : Nat) : Nat := 0x80240 + 0x4 * i
/-- GAL_EXPORT_BASE, an array of 16 (R403). -/
def galExportBase (i : Nat) : Nat := 0x80300 + 0x8 * i
/-- GAL_EXPORT_CFG, an array of 16 (R403). -/
def galExportCfg (i : Nat) : Nat := 0x80380 + 0x8 * i
/-- NEWEL_CAPS (R412). -/
def newelCaps : Nat := 0x30000
/-- NEWEL_LOCK (R412). -/
def newelLock : Nat := 0x30008
/-- NEWEL_TIME (R412). -/
def newelTime : Nat := 0x30010
/-- NEWEL_FRAC (R412). -/
def newelFrac : Nat := 0x30018
/-- NEWEL_CTRL (R412). -/
def newelCtrl : Nat := 0x30020
/-- NEWEL_STATE (R412). -/
def newelState : Nat := 0x30028
/-- NEWEL_OFFSET (R412). -/
def newelOffset : Nat := 0x30030
/-- NEWEL_STATUS (R412). -/
def newelStatus : Nat := 0x30038
/-- NEWEL_PTP (R412). -/
def newelPtp : Nat := 0x30040
/-- NEWEL_IP (R412). -/
def newelIp : Nat := 0x30048
/-- NEWEL_MAC (R412). -/
def newelMac : Nat := 0x30050
/-- NEWEL_MASTER (R412). -/
def newelMaster : Nat := 0x30058
/-- NEWEL_TOD (R412). -/
def newelTod : Nat := 0x30060
/-- NEWEL_PPS_OUT (R412). -/
def newelPpsOut : Nat := 0x30068
/-- NEWEL_TREAD (R412). -/
def newelTread : Nat := 0x30070
/-- NEWEL_TREAD_NOW (R412). -/
def newelTreadNow : Nat := 0x30078
/-- NEWEL_TREADS (R412). -/
def newelTreads : Nat := 0x30080
/-- FW_CAPS (R431). -/
def fwCaps : Nat := 0x1000
/-- FW_LOCK (R431). -/
def fwLock : Nat := 0x1008
/-- FW_STATE (R431). -/
def fwState : Nat := 0x1010
/-- FW_ERROR (R431). -/
def fwError : Nat := 0x1018
/-- FW_LOAD_ADDR (R431). -/
def fwLoadAddr : Nat := 0x1020
/-- FW_LOAD_LEN (R431). -/
def fwLoadLen : Nat := 0x1028
/-- FW_CMD (R431). -/
def fwCmd : Nat := 0x1030
/-- FW_RELEASE (R431). -/
def fwRelease : Nat := 0x1038
/-- FW_SVN (R431). -/
def fwSvn : Nat := 0x1040
/-- FW_SVN_FLOOR (R431). -/
def fwSvnFloor : Nat := 0x1048
/-- FW_PROC, an array of 16 (R431). -/
def fwProc (i : Nat) : Nat := 0x1100 + 0x8 * i
/-- FW_WDOG, an array of 16 (R431). -/
def fwWdog (i : Nat) : Nat := 0x1180 + 0x8 * i
/-- FLT_CAPS (R454). -/
def fltCaps : Nat := 0x50000
/-- FLT_LOCK (R454). -/
def fltLock : Nat := 0x50008
/-- FLT_STATUS (R454). -/
def fltStatus : Nat := 0x50010
/-- FLT_POLICY (R454). -/
def fltPolicy : Nat := 0x50018
/-- FLT_WITHHELD (R454). -/
def fltWithheld : Nat := 0x50020
/-- FLT_STALE (R454). -/
def fltStale : Nat := 0x50028
/-- FLT_LOG_DROPPED (R454). -/
def fltLogDropped : Nat := 0x50030
/-- FLT_LOG_SEQ (R454). -/
def fltLogSeq : Nat := 0x50038
/-- FLT_SEL (R454). -/
def fltSel : Nat := 0x50040
/-- FLT_LANDING (R454). -/
def fltLanding : Nat := 0x50048
/-- FLT_LANDING_TOTALS (R454). -/
def fltLandingTotals : Nat := 0x50050
/-- FLT_EDGE (R454). -/
def fltEdge : Nat := 0x50058
/-- FLT_CMD (R454). -/
def fltCmd : Nat := 0x50060
/-- FLT_INJECT (R454). -/
def fltInject : Nat := 0x50068
/-- FLT_HALL, an array of 8 (R454). -/
def fltHall (i : Nat) : Nat := 0x50080 + 0x4 * i
/-- PWR_CAPS (R482). -/
def pwrCaps : Nat := 0x40000
/-- PWR_LOCK (R482). -/
def pwrLock : Nat := 0x40008
/-- PWR_STATUS (R482). -/
def pwrStatus : Nat := 0x40010
/-- PWR_SUPPLY (R482). -/
def pwrSupply : Nat := 0x40018
/-- PWR_MIN (R482). -/
def pwrMin : Nat := 0x40020
/-- PWR_RAMP (R482). -/
def pwrRamp : Nat := 0x40028
/-- PWR_CAP (R482). -/
def pwrCap : Nat := 0x40030
/-- PWR_CTRL (R482). -/
def pwrCtrl : Nat := 0x40038
/-- PWR_STATE (R482). -/
def pwrState : Nat := 0x40040
/-- PWR_GATED (R482). -/
def pwrGated : Nat := 0x40048
/-- PWR_EVENTS (R482). -/
def pwrEvents : Nat := 0x40050
/-- PWR_LAST_EVENT (R482). -/
def pwrLastEvent : Nat := 0x40058
/-- PWR_CMD (R482). -/
def pwrCmd : Nat := 0x40060
/-- RST_CAPS (R483). -/
def rstCaps : Nat := 0x48000
/-- RST_LOCK (R483). -/
def rstLock : Nat := 0x48008
/-- RST_CMD (R483). -/
def rstCmd : Nat := 0x48010
/-- RST_STATUS (R483). -/
def rstStatus : Nat := 0x48018
/-- RST_BUSY (R483). -/
def rstBusy : Nat := 0x48020
/-- RST_CAUSE (R483). -/
def rstCause : Nat := 0x48028
/-- RST_COUNTS (R483). -/
def rstCounts : Nat := 0x48030
/-- RST_PORT, an array of 4 (R483). -/
def rstPort (i : Nat) : Nat := 0x48040 + 0x4 * i
/-- STORE_CAPS (R501). -/
def storeCaps : Nat := 0xc0000
/-- STORE_STATUS (R501). -/
def storeStatus : Nat := 0xc0008
/-- STORE_SEQ (R501). -/
def storeSeq : Nat := 0xc0010
/-- STORE_DIGEST, an array of 8 (R501). -/
def storeDigest (i : Nat) : Nat := 0xc0020 + 0x4 * i
/-- STORE_TOKENS (R501). -/
def storeTokens : Nat := 0xc0040
/-- STORE_NEXT (R501). -/
def storeNext : Nat := 0xc0048
/-- STORE_REFUSED (R501). -/
def storeRefused : Nat := 0xc0050
/-- STORE_LOG (R501). -/
def storeLog : Nat := 0xc0058
/-- STORE_ERASES (R501). -/
def storeErases : Nat := 0xc0060
/-- STORE_ASSET, an array of 16 (R501). -/
def storeAsset (i : Nat) : Nat := 0xc0068 + 0x4 * i
/-- SEC_CAPS (R502). -/
def secCaps : Nat := 0xd0000
/-- SEC_LOCK (R502). -/
def secLock : Nat := 0xd0008
/-- SEC_STATE (R502). -/
def secState : Nat := 0xd0010
/-- SEC_ROOT_HASH, an array of 8 (R502). -/
def secRootHash (i : Nat) : Nat := 0xd0020 + 0x4 * i
/-- SEC_ID_HASH, an array of 8 (R502). -/
def secIdHash (i : Nat) : Nat := 0xd0040 + 0x4 * i
/-- SEC_SPDM_CTRL (R502). -/
def secSpdmCtrl : Nat := 0xd0060
/-- SEC_SPDM_COUNT (R502). -/
def secSpdmCount : Nat := 0xd0068
/-- SEC_DEBUG (R502). -/
def secDebug : Nat := 0xd0070
/-- CNT_CAPS (R515). -/
def cntCaps : Nat := 0x60000
/-- CNT_LOCK (R515). -/
def cntLock : Nat := 0x60008
/-- CNT_USER (R515). -/
def cntUser : Nat := 0x60010
/-- CNT_STATUS (R515). -/
def cntStatus : Nat := 0x60018
/-- CNT_STATE (R515). -/
def cntState : Nat := 0x60020
/-- CNT_SNAP_TIME (R515). -/
def cntSnapTime : Nat := 0x60028
/-- CNT_CMD (R515). -/
def cntCmd : Nat := 0x60030
/-- CNT_SEL (R515). -/
def cntSel : Nat := 0x60038
/-- CNT_SCHED_CTRL, an array of 4 (R515). -/
def cntSchedCtrl (i : Nat) : Nat := 0x60040 + 0x8 * i
/-- CNT_SCHED_TIME, an array of 4 (R515). -/
def cntSchedTime (i : Nat) : Nat := 0x60060 + 0x8 * i
/-- CNT_CYCLE (R515). -/
def cntCycle : Nat := 0x60100
/-- CNT_OVF (R515). -/
def cntOvf : Nat := 0x60108
/-- CNT_EVSEL, an array of 8 (R515). -/
def cntEvsel (i : Nat) : Nat := 0x60140 + 0x8 * i
/-- CNT_PROG, an array of 8 (R515). -/
def cntProg (i : Nat) : Nat := 0x60180 + 0x8 * i
/-- CNT_SNAP_CYCLE (R515). -/
def cntSnapCycle : Nat := 0x601c0
/-- CNT_SNAP_PROG, an array of 8 (R515). -/
def cntSnapProg (i : Nat) : Nat := 0x60200 + 0x8 * i
/-- CNT_SAMPLE_CFG (R515). -/
def cntSampleCfg : Nat := 0x60240
/-- CNT_SAMPLE_HEAD (R515). -/
def cntSampleHead : Nat := 0x60248
/-- CNT_SAMPLE_IDX (R515). -/
def cntSampleIdx : Nat := 0x60250
/-- CNT_SAMPLE_ENTRY, an array of 4 (R515). -/
def cntSampleEntry (i : Nat) : Nat := 0x60258 + 0x8 * i
/-- CNT_PART, an array of 128 (R515). -/
def cntPart (i : Nat) : Nat := 0x60400 + 0x8 * i
/-- CNT_SNAP_PART, an array of 128 (R515). -/
def cntSnapPart (i : Nat) : Nat := 0x60800 + 0x8 * i

end Reg

/-- The ID_ block. -/
def regRowsId : List RegRow := [
  ⟨"ID_ORDER_CODE", 0x0, 1, 0x4, 32, .ro, 0x0, 0x0, .cold⟩,
  ⟨"ID_STEPPING", 0x4, 1, 0x4, 32, .ro, 0x0, 0x0, .cold⟩,
  ⟨"ID_BEHAVIOUR", 0x8, 1, 0x4, 32, .ro, 0x0, 0x0, .cold⟩,
  ⟨"ID_IF_VERSION", 0xc, 1, 0x4, 32, .ro, 0x0, 0x0, .module⟩,
  ⟨"ID_SERIAL", 0x10, 1, 0x8, 64, .ro, 0x0, 0x0, .cold⟩,
  ⟨"ID_RESOURCES", 0x18, 1, 0x4, 32, .ro, 0x0, 0x0, .cold⟩]

/-- The SFU_ block. -/
def regRowsSfu : List RegRow := [
  ⟨"SFU_CAPS", 0x70000, 1, 0x4, 32, .ro, 0x2040ff0e, 0x0, .cold⟩,
  ⟨"SFU_MP_SEL", 0x70008, 1, 0x4, 32, .rwl, 0x0, 0x7fff, .module⟩,
  ⟨"SFU_MP_DATA", 0x70010, 1, 0x8, 64, .wo, 0x0, 0x0, .none⟩,
  ⟨"SFU_MP_SPECIAL", 0x70018, 1, 0x4, 32, .rwl, 0x5, 0xfffff, .module⟩,
  ⟨"SFU_MP_CMD", 0x70020, 1, 0x4, 32, .wo, 0x0, 0x0, .none⟩,
  ⟨"SFU_MP_STATUS", 0x70028, 1, 0x4, 32, .ro, 0x0, 0x0, .module⟩,
  ⟨"SFU_MP_DIGEST", 0x70030, 1, 0x4, 32, .ro, 0x0, 0x0, .module⟩,
  ⟨"SFU_TBL_SEL", 0x70038, 1, 0x4, 32, .rwl, 0x0, 0xffc1f, .module⟩,
  ⟨"SFU_TBL_DATA", 0x70040, 1, 0x4, 32, .wo, 0x0, 0x0, .none⟩,
  ⟨"SFU_TBL_CMD", 0x70048, 1, 0x4, 32, .wo, 0x0, 0x0, .none⟩,
  ⟨"SFU_TBL_STATUS", 0x70050, 1, 0x4, 32, .ro, 0x0, 0x0, .module⟩,
  ⟨"SFU_LOCK", 0x70058, 1, 0x4, 32, .rw, 0x0, 0x1, .module⟩,
  ⟨"SFU_SLOT_VALID", 0x70080, 8, 0x4, 32, .ro, 0x0, 0x0, .module⟩,
  ⟨"SFU_TBL_VALID", 0x700c0, 1, 0x4, 32, .ro, 0x0, 0x0, .module⟩,
  ⟨"SFU_MP_CONST", 0x70100, 32, 0x4, 32, .rwl, 0x0, 0xffffffff, .module⟩,
  ⟨"SFU_COMPAT", 0x70200, 16, 0x4, 32, .rw, 0x0, 0x3, .module⟩]

/-- The MEM_ block. -/
def regRowsMem : List RegRow := [
  ⟨"MEM_CAPS", 0x90000, 1, 0x4, 32, .ro, 0x40401084, 0x0, .cold⟩,
  ⟨"MEM_LOCK", 0x90008, 1, 0x4, 32, .rw, 0x0, 0x1, .module⟩,
  ⟨"MEM_LEND", 0x90010, 1, 0x4, 32, .rwl, 0x411, 0xff3, .module⟩,
  ⟨"MEM_STAIR", 0x90018, 1, 0x4, 32, .rwl, 0x145, 0x1f7, .module⟩,
  ⟨"MEM_SCRUB", 0x90020, 1, 0x4, 32, .rw, 0x3c18, 0xffff, .module⟩,
  ⟨"MEM_STATUS", 0x90028, 1, 0x4, 32, .w1c, 0x0, 0x7, .module⟩,
  ⟨"MEM_ECC_CLEAR", 0x90030, 1, 0x4, 32, .wo, 0x0, 0x0, .none⟩,
  ⟨"MEM_ECC_COUNT", 0x90040, 8, 0x4, 32, .ro, 0x0, 0x0, .sticky⟩,
  ⟨"MEM_OUTSTANDING", 0x90080, 16, 0x4, 32, .rwl, 0x400, 0x7ff, .module⟩,
  ⟨"MEM_ALC_PIN", 0x90100, 4, 0x4, 32, .rwl, 0x0, 0xffff, .module⟩,
  ⟨"MEM_ALC_WAYS", 0x90140, 16, 0x4, 32, .rwl, 0xffff, 0xffff, .module⟩,
  ⟨"MEM_PIN_REGION", 0x90200, 32, 0x8, 64, .rwl, 0x0, 0xffffffffffffffff, .module⟩,
  ⟨"MEM_PC_SET", 0x91000, 136, 0x8, 64, .rwl, 0x0, 0xffffffffffffffff, .module⟩,
  ⟨"MEM_WALK_SEL", 0x91800, 1, 0x4, 32, .rwl, 0x0, 0x7f3f, .module⟩,
  ⟨"MEM_WALK_DATA", 0x91808, 1, 0x8, 64, .wo, 0x0, 0x0, .none⟩,
  ⟨"MEM_WALK_CMD", 0x91810, 1, 0x4, 32, .wo, 0x0, 0x0, .none⟩,
  ⟨"MEM_WALK_STATUS", 0x91818, 1, 0x4, 32, .ro, 0x0, 0x0, .module⟩,
  ⟨"MEM_WALK_DIGEST", 0x91820, 1, 0x4, 32, .ro, 0x0, 0x0, .module⟩,
  ⟨"MEM_WALK_VALID", 0x91840, 2, 0x4, 32, .ro, 0xffff, 0x0, .module⟩]

/-- The PART_ block. -/
def regRowsPart : List RegRow := [
  ⟨"PART_CAPS", 0x10000, 1, 0x4, 32, .ro, 0x20013010, 0x0, .cold⟩,
  ⟨"PART_LOCK", 0x10008, 1, 0x4, 32, .rw, 0x0, 0x1, .module⟩,
  ⟨"PART_STATUS", 0x10010, 1, 0x4, 32, .w1c, 0x0, 0x7, .module⟩,
  ⟨"PART_SYNC_FREE", 0x10018, 1, 0x4, 32, .ro, 0x8000, 0x0, .module⟩,
  ⟨"PART_CTRL", 0x11000, 16, 0x100, 32, .rwl, 0x0, 0x3, .module⟩,
  ⟨"PART_WINGS", 0x11008, 16, 0x100, 64, .rwl, 0x0, 0xffffffffffff, .module⟩,
  ⟨"PART_STATE", 0x11010, 16, 0x100, 32, .ro, 0x0, 0x0, .module⟩,
  ⟨"PART_STEAL", 0x11018, 16, 0x100, 32, .rwl, 0x3, 0x3, .module⟩,
  ⟨"PART_DEADLINE", 0x11020, 16, 0x100, 64, .rwl, 0x30d4004e20007d0, 0xfffffffffffffff, .module⟩,
  ⟨"PART_DECODE_BATCH", 0x11028, 16, 0x100, 32, .rwl, 0x40, 0x3ff, .module⟩,
  ⟨"PART_SPEC", 0x11030, 16, 0x100, 32, .rwl, 0x2021, 0xfffff1, .module⟩,
  ⟨"PART_SYNC", 0x11038, 16, 0x100, 32, .rwl, 0x0, 0xffff, .module⟩,
  ⟨"PART_SYNC_USE", 0x11040, 16, 0x100, 32, .ro, 0x0, 0x0, .partition⟩,
  ⟨"PART_LAT_TOL", 0x11048, 16, 0x100, 32, .rwl, 0x2, 0x7fffff, .module⟩]

/-- The TXT_ block. -/
def regRowsTxt : List RegRow := [
  ⟨"TXT_CAPS", 0xb0000, 1, 0x4, 32, .ro, 0x1081088, 0x0, .cold⟩,
  ⟨"TXT_LOCK", 0xb0008, 1, 0x4, 32, .rw, 0x0, 0x1, .module⟩,
  ⟨"TXT_NORM_SEL", 0xb0010, 1, 0x4, 32, .rwl, 0x0, 0x7, .module⟩,
  ⟨"TXT_NORM_SRC", 0xb0018, 1, 0x8, 64, .rwl, 0x0, 0xffffffffffffffff, .module⟩,
  ⟨"TXT_NORM_CMD", 0xb0020, 1, 0x4, 32, .wo, 0x0, 0x0, .none⟩,
  ⟨"TXT_NORM_STATUS", 0xb0028, 1, 0x4, 32, .ro, 0x0, 0x0, .module⟩,
  ⟨"TXT_NORM_VERSION", 0xb0040, 8, 0x4, 32, .ro, 0x0, 0x0, .module⟩,
  ⟨"TXT_NORM_DIGEST", 0xb0060, 8, 0x4, 32, .ro, 0x0, 0x0, .module⟩,
  ⟨"TXT_VOCAB", 0xb0080, 8, 0x8, 64, .ro, 0x0, 0x0, .module⟩,
  ⟨"TXT_REPLACED", 0xb00c0, 4, 0x4, 32, .ro, 0x0, 0x0, .module⟩,
  ⟨"TXT_STOPS", 0xb00d0, 4, 0x4, 32, .ro, 0x0, 0x0, .module⟩]

/-- The IDX_ block. -/
def regRowsIdx : List RegRow := [
  ⟨"IDX_CAPS", 0xa0000, 1, 0x4, 32, .ro, 0x35465618, 0x0, .cold⟩,
  ⟨"IDX_EPOCH", 0xa0008, 1, 0x8, 64, .ro, 0x0, 0x0, .module⟩,
  ⟨"IDX_OLDEST_SNAP", 0xa0010, 1, 0x8, 64, .ro, 0x0, 0x0, .module⟩,
  ⟨"IDX_SLOTS_USED", 0xa0018, 1, 0x8, 64, .ro, 0x0, 0x0, .module⟩,
  ⟨"IDX_TOMB_USED", 0xa0020, 1, 0x4, 32, .ro, 0x0, 0x0, .module⟩,
  ⟨"IDX_STATUS", 0xa0028, 1, 0x4, 32, .w1c, 0x0, 0x3ff, .module⟩,
  ⟨"IDX_WARN", 0xa0030, 1, 0x4, 32, .rw, 0x5a5a, 0x7f7f, .module⟩,
  ⟨"IDX_STATE", 0xa1000, 8, 0x100, 32, .ro, 0x0, 0x0, .module⟩,
  ⟨"IDX_SHAPE", 0xa1008, 8, 0x100, 64, .ro, 0x0, 0x0, .module⟩,
  ⟨"IDX_BUDGET", 0xa1010, 8, 0x100, 64, .ro, 0x0, 0x0, .module⟩,
  ⟨"IDX_SLOTS", 0xa1018, 8, 0x100, 64, .ro, 0x0, 0x0, .module⟩,
  ⟨"IDX_LIVE", 0xa1020, 8, 0x100, 64, .ro, 0x0, 0x0, .module⟩,
  ⟨"IDX_SPILL", 0xa1028, 8, 0x100, 32, .ro, 0x0, 0x0, .module⟩,
  ⟨"IDX_VERSIONS", 0xa1030, 8, 0x100, 32, .ro, 0x0, 0x0, .module⟩,
  ⟨"IDX_BUILT", 0xa1038, 8, 0x100, 64, .ro, 0x0, 0x0, .module⟩]

/-- The RING_ block. -/
def regRowsRing : List RegRow := [
  ⟨"RING_CAPS", 0x2000, 1, 0x4, 32, .ro, 0x2004840, 0x0, .cold⟩,
  ⟨"RING_FUNC", 0x2008, 1, 0x4, 32, .ro, 0x0, 0x0, .cold⟩,
  ⟨"RING_STATUS", 0x2010, 1, 0x4, 32, .w1c, 0x0, 0x7f, .function⟩,
  ⟨"RING_DB_ERRORS", 0x2018, 1, 0x4, 32, .ro, 0x0, 0x0, .function⟩,
  ⟨"RING_APT_BASE", 0x2020, 1, 0x8, 64, .rw, 0x0, 0xffffe00000, .port⟩,
  ⟨"RING_ADMIN_SQ", 0x2028, 1, 0x8, 64, .rw, 0x0, 0xfffffff1f1, .port⟩,
  ⟨"RING_ADMIN_CQ", 0x2030, 1, 0x8, 64, .rw, 0x0, 0xfffffff1f1, .port⟩,
  ⟨"RING_ADMIN_DB", 0x2038, 1, 0x8, 64, .wo, 0x0, 0x0, .none⟩,
  ⟨"RING_ADMIN_STATE", 0x2040, 1, 0x8, 64, .ro, 0x100000000, 0x0, .port⟩,
  ⟨"RING_BASE", 0x2800, 64, 0x20, 64, .rw, 0x0, 0xffffffffffffffff, .function⟩,
  ⟨"RING_CFG", 0x2808, 64, 0x20, 64, .rw, 0x0, 0xf1fffdff, .function⟩,
  ⟨"RING_INDEX", 0x2810, 64, 0x20, 64, .ro, 0x100000000, 0x0, .function⟩,
  ⟨"RING_SHADOW", 0x2818, 64, 0x20, 64, .rw, 0x0, 0xfffffffffffffff8, .function⟩]

/-- The IRQ_ block. -/
def regRowsIrq : List RegRow := [
  ⟨"IRQ_CAPS", 0x3000, 1, 0x4, 32, .ro, 0x100, 0x0, .cold⟩,
  ⟨"IRQ_FORCE", 0x3008, 1, 0x4, 32, .wo, 0x0, 0x0, .none⟩,
  ⟨"IRQ_MOD", 0x3800, 256, 0x8, 64, .rw, 0x1, 0xffffff00ff, .function⟩,
  ⟨"IRQ_MSIX_TABLE", 0x4000, 256, 0x10, 128, .rw, 0x0, 0xffffffffffffffffffffffffffffffff, .function⟩,
  ⟨"IRQ_MSIX_PBA", 0x5000, 4, 0x8, 64, .ro, 0x0, 0x0, .function⟩]

/-- The TEN_ block. -/
def regRowsTen : List RegRow := [
  ⟨"TEN_CAPS", 0x20000, 1, 0x4, 32, .ro, 0x801000, 0x0, .cold⟩,
  ⟨"TEN_LOCK", 0x20008, 1, 0x4, 32, .rw, 0x0, 0x1, .module⟩,
  ⟨"TEN_STATUS", 0x20010, 1, 0x4, 32, .w1c, 0x0, 0x7, .module⟩,
  ⟨"TEN_SEL", 0x20018, 1, 0x4, 32, .rw, 0x0, 0xfff, .module⟩,
  ⟨"TEN_CFG", 0x20020, 1, 0x4, 32, .rwl, 0x0, 0xffff0003, .module⟩,
  ⟨"TEN_RATE", 0x20028, 1, 0x8, 64, .rwl, 0x0, 0xffffffffffffffff, .module⟩,
  ⟨"TEN_BAL", 0x20030, 1, 0x8, 64, .ro, 0x0, 0x0, .module⟩,
  ⟨"TEN_CHARGED", 0x20038, 1, 0x8, 64, .ro, 0x0, 0x0, .module⟩,
  ⟨"TEN_STATE", 0x20040, 1, 0x4, 32, .ro, 0x0, 0x0, .module⟩,
  ⟨"TEN_REFUSED", 0x20048, 1, 0x4, 32, .ro, 0x0, 0x0, .module⟩,
  ⟨"TEN_REFILL", 0x20050, 1, 0x4, 32, .wo, 0x0, 0x0, .none⟩,
  ⟨"TEN_BIND", 0x22000, 1024, 0x8, 64, .rwl, 0x0, 0xfff0fffffff0001, .module⟩]

/-- The GAL_ block. -/
def regRowsGal : List RegRow := [
  ⟨"GAL_CAPS", 0x80000, 1, 0x4, 32, .ro, 0x310908c, 0x0, .cold⟩,
  ⟨"GAL_LOCK", 0x80008, 1, 0x4, 32, .rw, 0x0, 0x1, .module⟩,
  ⟨"GAL_ID", 0x80010, 1, 0x8, 64, .ro, 0x0, 0x0, .stored⟩,
  ⟨"GAL_STATUS", 0x80018, 1, 0x4, 32, .w1c, 0x0, 0x7f, .module⟩,
  ⟨"GAL_LOSS", 0x80020, 1, 0x4, 32, .rwl, 0xc8, 0xfffff, .module⟩,
  ⟨"GAL_CMD", 0x80028, 1, 0x4, 32, .wo, 0x0, 0x0, .none⟩,
  ⟨"GAL_STALE", 0x80030, 1, 0x4, 32, .ro, 0x0, 0x0, .module⟩,
  ⟨"GAL_PORT", 0x80100, 12, 0x4, 32, .ro, 0x0, 0x0, .module⟩,
  ⟨"GAL_PORT_CTRL", 0x80140, 12, 0x4, 32, .rwl, 0x1, 0x3, .module⟩,
  ⟨"GAL_ERR", 0x80180, 12, 0x8, 64, .ro, 0x0, 0x0, .sticky⟩,
  ⟨"GAL_PEER", 0x80200, 16, 0x4, 32, .ro, 0x0, 0x0, .module⟩,
  ⟨"GAL_PART", 0x80240, 16, 0x4, 32, .rwl, 0x1, 0x10f, .module⟩,
  ⟨"GAL_EXPORT_BASE", 0x80300, 16, 0x8, 64, .rwl, 0x0, 0xffffffe00001, .module⟩,
  ⟨"GAL_EXPORT_CFG", 0x80380, 16, 0x8, 64, .rwl, 0x0, 0xffff0007ffff, .module⟩]

/-- The NEWEL_ block. -/
def regRowsNewel : List RegRow := [
  ⟨"NEWEL_CAPS", 0x30000, 1, 0x4, 32, .ro, 0x1f40005, 0x0, .cold⟩,
  ⟨"NEWEL_LOCK", 0x30008, 1, 0x4, 32, .rw, 0x0, 0x1, .module⟩,
  ⟨"NEWEL_TIME", 0x30010, 1, 0x8, 64, .ro, 0x0, 0x0, .module⟩,
  ⟨"NEWEL_FRAC", 0x30018, 1, 0x4, 32, .ro, 0x0, 0x0, .module⟩,
  ⟨"NEWEL_CTRL", 0x30020, 1, 0x4, 32, .rwl, 0x0, 0xf3, .stored⟩,
  ⟨"NEWEL_STATE", 0x30028, 1, 0x4, 32, .ro, 0x0, 0x0, .module⟩,
  ⟨"NEWEL_OFFSET", 0x30030, 1, 0x4, 32, .ro, 0x0, 0x0, .module⟩,
  ⟨"NEWEL_STATUS", 0x30038, 1, 0x4, 32, .w1c, 0x0, 0x1f, .module⟩,
  ⟨"NEWEL_PTP", 0x30040, 1, 0x4, 32, .rwl, 0x0, 0xfff037f, .stored⟩,
  ⟨"NEWEL_IP", 0x30048, 1, 0x8, 64, .rwl, 0x0, 0x3fffffffff, .stored⟩,
  ⟨"NEWEL_MAC", 0x30050, 1, 0x8, 64, .ro, 0x0, 0x0, .cold⟩,
  ⟨"NEWEL_MASTER", 0x30058, 1, 0x8, 64, .ro, 0x0, 0x0, .module⟩,
  ⟨"NEWEL_TOD", 0x30060, 1, 0x8, 64, .rw, 0x0, 0xffffffffffffffff, .module⟩,
  ⟨"NEWEL_PPS_OUT", 0x30068, 1, 0x4, 32, .rw, 0x64, 0x103ff, .module⟩,
  ⟨"NEWEL_TREAD", 0x30070, 1, 0x4, 32, .rwl, 0x19, 0x1ff, .stored⟩,
  ⟨"NEWEL_TREAD_NOW", 0x30078, 1, 0x4, 32, .ro, 0x19, 0x0, .module⟩,
  ⟨"NEWEL_TREADS", 0x30080, 1, 0x8, 64, .ro, 0x0, 0x0, .module⟩]

/-- The FW_ block. -/
def regRowsFw : List RegRow := [
  ⟨"FW_CAPS", 0x1000, 1, 0x4, 32, .ro, 0x10, 0x0, .cold⟩,
  ⟨"FW_LOCK", 0x1008, 1, 0x4, 32, .rw, 0x0, 0x1, .module⟩,
  ⟨"FW_STATE", 0x1010, 1, 0x4, 32, .ro, 0x0, 0x0, .module⟩,
  ⟨"FW_ERROR", 0x1018, 1, 0x4, 32, .ro, 0x0, 0x0, .module⟩,
  ⟨"FW_LOAD_ADDR", 0x1020, 1, 0x8, 64, .rw, 0x0, 0xffffe00000, .module⟩,
  ⟨"FW_LOAD_LEN", 0x1028, 1, 0x4, 32, .rw, 0x0, 0x1fffffff, .module⟩,
  ⟨"FW_CMD", 0x1030, 1, 0x4, 32, .wo, 0x0, 0x0, .none⟩,
  ⟨"FW_RELEASE", 0x1038, 1, 0x4, 32, .ro, 0x0, 0x0, .module⟩,
  ⟨"FW_SVN", 0x1040, 1, 0x4, 32, .ro, 0x0, 0x0, .module⟩,
  ⟨"FW_SVN_FLOOR", 0x1048, 1, 0x4, 32, .ro, 0x0, 0x0, .stored⟩,
  ⟨"FW_PROC", 0x1100, 16, 0x8, 32, .ro, 0x0, 0x0, .module⟩,
  ⟨"FW_WDOG", 0x1180, 16, 0x8, 32, .rwl, 0x14, 0x3ff, .module⟩]

/-- The FLT_ block. -/
def regRowsFlt : List RegRow := [
  ⟨"FLT_CAPS", 0x50000, 1, 0x4, 32, .ro, 0x158980, 0x0, .cold⟩,
  ⟨"FLT_LOCK", 0x50008, 1, 0x4, 32, .rw, 0x0, 0x1, .module⟩,
  ⟨"FLT_STATUS", 0x50010, 1, 0x4, 32, .w1c, 0x0, 0x7f, .module⟩,
  ⟨"FLT_POLICY", 0x50018, 1, 0x4, 32, .rwl, 0x103e823, 0xffffffff, .module⟩,
  ⟨"FLT_WITHHELD", 0x50020, 1, 0x8, 64, .ro, 0x0, 0x0, .module⟩,
  ⟨"FLT_STALE", 0x50028, 1, 0x4, 32, .ro, 0x0, 0x0, .module⟩,
  ⟨"FLT_LOG_DROPPED", 0x50030, 1, 0x4, 32, .ro, 0x0, 0x0, .module⟩,
  ⟨"FLT_LOG_SEQ", 0x50038, 1, 0x4, 32, .ro, 0x0, 0x0, .module⟩,
  ⟨"FLT_SEL", 0x50040, 1, 0x4, 32, .rw, 0x0, 0x73f, .module⟩,
  ⟨"FLT_LANDING", 0x50048, 1, 0x4, 32, .ro, 0x0, 0x0, .module⟩,
  ⟨"FLT_LANDING_TOTALS", 0x50050, 1, 0x8, 64, .ro, 0x0, 0x0, .module⟩,
  ⟨"FLT_EDGE", 0x50058, 1, 0x4, 32, .ro, 0x0, 0x0, .module⟩,
  ⟨"FLT_CMD", 0x50060, 1, 0x4, 32, .wo, 0x0, 0x0, .none⟩,
  ⟨"FLT_INJECT", 0x50068, 1, 0x4, 32, .wo, 0x0, 0x0, .none⟩,
  ⟨"FLT_HALL", 0x50080, 8, 0x4, 32, .ro, 0x4, 0x0, .module⟩]

/-- The PWR_ block. -/
def regRowsPwr : List RegRow := [
  ⟨"PWR_CAPS", 0x40000, 1, 0x4, 32, .ro, 0x6481f, 0x0, .cold⟩,
  ⟨"PWR_LOCK", 0x40008, 1, 0x4, 32, .rw, 0x0, 0x1, .module⟩,
  ⟨"PWR_STATUS", 0x40010, 1, 0x4, 32, .w1c, 0x0, 0xf, .module⟩,
  ⟨"PWR_SUPPLY", 0x40018, 1, 0x8, 64, .ro, 0x0, 0x0, .module⟩,
  ⟨"PWR_MIN", 0x40020, 1, 0x4, 32, .ro, 0x0, 0x0, .module⟩,
  ⟨"PWR_RAMP", 0x40028, 1, 0x4, 32, .rwl, 0x30, 0xff, .module⟩,
  ⟨"PWR_CAP", 0x40030, 1, 0x4, 32, .rwl, 0x1130, 0x1fff, .module⟩,
  ⟨"PWR_CTRL", 0x40038, 1, 0x4, 32, .rwl, 0x20a03, 0xffffff03, .module⟩,
  ⟨"PWR_STATE", 0x40040, 1, 0x4, 32, .ro, 0x0, 0x0, .module⟩,
  ⟨"PWR_GATED", 0x40048, 1, 0x8, 64, .ro, 0x0, 0x0, .module⟩,
  ⟨"PWR_EVENTS", 0x40050, 1, 0x8, 64, .ro, 0x0, 0x0, .sticky⟩,
  ⟨"PWR_LAST_EVENT", 0x40058, 1, 0x8, 64, .ro, 0x0, 0x0, .sticky⟩,
  ⟨"PWR_CMD", 0x40060, 1, 0x4, 32, .wo, 0x0, 0x0, .none⟩]

/-- The RST_ block. -/
def regRowsRst : List RegRow := [
  ⟨"RST_CAPS", 0x48000, 1, 0x4, 32, .ro, 0x10ff, 0x0, .cold⟩,
  ⟨"RST_LOCK", 0x48008, 1, 0x4, 32, .rw, 0x0, 0x1, .module⟩,
  ⟨"RST_CMD", 0x48010, 1, 0x4, 32, .wo, 0x0, 0x0, .none⟩,
  ⟨"RST_STATUS", 0x48018, 1, 0x4, 32, .w1c, 0x0, 0x1, .module⟩,
  ⟨"RST_BUSY", 0x48020, 1, 0x4, 32, .ro, 0x0, 0x0, .module⟩,
  ⟨"RST_CAUSE", 0x48028, 1, 0x4, 32, .ro, 0x1, 0x0, .sticky⟩,
  ⟨"RST_COUNTS", 0x48030, 1, 0x8, 64, .ro, 0x0, 0x0, .sticky⟩,
  ⟨"RST_PORT", 0x48040, 4, 0x4, 32, .ro, 0x0, 0x0, .module⟩]

/-- The STORE_ block. -/
def regRowsStore : List RegRow := [
  ⟨"STORE_CAPS", 0xc0000, 1, 0x4, 32, .ro, 0x1200440, 0x0, .cold⟩,
  ⟨"STORE_STATUS", 0xc0008, 1, 0x4, 32, .ro, 0x0, 0x0, .module⟩,
  ⟨"STORE_SEQ", 0xc0010, 1, 0x4, 32, .ro, 0x0, 0x0, .module⟩,
  ⟨"STORE_DIGEST", 0xc0020, 8, 0x4, 32, .ro, 0x0, 0x0, .module⟩,
  ⟨"STORE_TOKENS", 0xc0040, 1, 0x4, 32, .ro, 0x1, 0x0, .module⟩,
  ⟨"STORE_NEXT", 0xc0048, 1, 0x8, 64, .ro, 0x0, 0x0, .module⟩,
  ⟨"STORE_REFUSED", 0xc0050, 1, 0x4, 32, .ro, 0x0, 0x0, .module⟩,
  ⟨"STORE_LOG", 0xc0058, 1, 0x8, 64, .ro, 0x0, 0x0, .module⟩,
  ⟨"STORE_ERASES", 0xc0060, 1, 0x8, 64, .ro, 0x0, 0x0, .module⟩,
  ⟨"STORE_ASSET", 0xc0068, 16, 0x4, 32, .ro, 0x0, 0x0, .module⟩]

/-- The SEC_ block. -/
def regRowsSec : List RegRow := [
  ⟨"SEC_CAPS", 0xd0000, 1, 0x4, 32, .ro, 0x313, 0x0, .cold⟩,
  ⟨"SEC_LOCK", 0xd0008, 1, 0x4, 32, .rw, 0x0, 0x1, .module⟩,
  ⟨"SEC_STATE", 0xd0010, 1, 0x4, 32, .ro, 0x0, 0x0, .module⟩,
  ⟨"SEC_ROOT_HASH", 0xd0020, 8, 0x4, 32, .ro, 0x0, 0x0, .cold⟩,
  ⟨"SEC_ID_HASH", 0xd0040, 8, 0x4, 32, .ro, 0x0, 0x0, .module⟩,
  ⟨"SEC_SPDM_CTRL", 0xd0060, 1, 0x4, 32, .rwl, 0x1ffff, 0x1ffff, .module⟩,
  ⟨"SEC_SPDM_COUNT", 0xd0068, 1, 0x8, 64, .ro, 0x0, 0x0, .module⟩,
  ⟨"SEC_DEBUG", 0xd0070, 1, 0x4, 32, .ro, 0x0, 0x0, .cold⟩]

/-- The CNT_ block. -/
def regRowsCnt : List RegRow := [
  ⟨"CNT_CAPS", 0x60000, 1, 0x4, 32, .ro, 0x4004308, 0x0, .cold⟩,
  ⟨"CNT_LOCK", 0x60008, 1, 0x4, 32, .rw, 0x0, 0x1, .module⟩,
  ⟨"CNT_USER", 0x60010, 1, 0x4, 32, .rwl, 0x0, 0xffff, .module⟩,
  ⟨"CNT_STATUS", 0x60018, 1, 0x4, 32, .w1c, 0x0, 0x3, .module⟩,
  ⟨"CNT_STATE", 0x60020, 1, 0x4, 32, .ro, 0x0, 0x0, .module⟩,
  ⟨"CNT_SNAP_TIME", 0x60028, 1, 0x8, 64, .ro, 0x0, 0x0, .module⟩,
  ⟨"CNT_CMD", 0x60030, 1, 0x4, 32, .wo, 0x0, 0x0, .none⟩,
  ⟨"CNT_SEL", 0x60038, 1, 0x4, 32, .rw, 0x0, 0x1ff, .function⟩,
  ⟨"CNT_SCHED_CTRL", 0x60040, 4, 0x8, 32, .rwl, 0x0, 0xffff1f, .module⟩,
  ⟨"CNT_SCHED_TIME", 0x60060, 4, 0x8, 64, .rwl, 0x0, 0xffffffffffffffff, .module⟩,
  ⟨"CNT_CYCLE", 0x60100, 1, 0x8, 64, .ro, 0x0, 0x0, .module⟩,
  ⟨"CNT_OVF", 0x60108, 1, 0x4, 32, .w1c, 0x0, 0xff, .module⟩,
  ⟨"CNT_EVSEL", 0x60140, 8, 0x8, 32, .rw, 0x0, 0xffffffff, .module⟩,
  ⟨"CNT_PROG", 0x60180, 8, 0x8, 64, .ro, 0x0, 0x0, .module⟩,
  ⟨"CNT_SNAP_CYCLE", 0x601c0, 1, 0x8, 64, .ro, 0x0, 0x0, .module⟩,
  ⟨"CNT_SNAP_PROG", 0x60200, 8, 0x8, 64, .ro, 0x0, 0x0, .module⟩,
  ⟨"CNT_SAMPLE_CFG", 0x60240, 1, 0x4, 32, .rw, 0x0, 0x9fffffff, .module⟩,
  ⟨"CNT_SAMPLE_HEAD", 0x60248, 1, 0x8, 64, .ro, 0x0, 0x0, .module⟩,
  ⟨"CNT_SAMPLE_IDX", 0x60250, 1, 0x4, 32, .rw, 0x0, 0x3ff, .function⟩,
  ⟨"CNT_SAMPLE_ENTRY", 0x60258, 4, 0x8, 64, .ro, 0x0, 0x0, .module⟩,
  ⟨"CNT_PART", 0x60400, 128, 0x8, 64, .ro, 0x0, 0x0, .module⟩,
  ⟨"CNT_SNAP_PART", 0x60800, 128, 0x8, 64, .ro, 0x0, 0x0, .module⟩]

def regRows : List RegRow :=
  regRowsId ++ regRowsSfu ++ regRowsMem ++ regRowsPart ++ regRowsTxt ++ regRowsIdx ++ regRowsRing ++ regRowsIrq ++ regRowsTen ++ regRowsGal ++ regRowsNewel ++ regRowsFw ++ regRowsFlt ++ regRowsPwr ++ regRowsRst ++ regRowsStore ++ regRowsSec ++ regRowsCnt

/-- The index of the instance of a row that stands at an offset. -/
def RegRow.indexAt (r : RegRow) (off : Nat) : Option Nat :=
  if r.off ≤ off ∧ (off - r.off) % r.stride = 0 ∧ (off - r.off) / r.stride < r.count then some ((off - r.off) / r.stride) else none

/-- The row, and the instance number, of the register at an offset. -/
def regAt (off : Nat) : Option (RegRow × Nat) :=
  regRows.findSome? fun r => (r.indexAt off).map fun i => (r, i)

end Sys2Proof.Machine
end

