-- ==== Sys2Proof/Machine/State.lean ====
section
/-! DEFINITION. The state of the module as plain data: every register, queue, buffer, counter, mode and pin of the spec, the queue of waiting commands, and the state after reset. -/

namespace Sys2Proof.Machine

/-! ## What the module sends outside -/

/-- A Gallery message that this module sends (R390 to R402). -/
inductive GalMsg where
  | hello (moduleId groupTag orderCode behaviour ifVersion gen : Nat)
  | expected (gen : Nat)
  | heartbeat
  | lossNotice (about gen : Nat)
  | directory (ready : List (Nat × Nat)) (accept : Nat) (links : List Nat)
  | replayRequest (seq : Nat)
  | replayFrom (seq : Nat)
  | subRequest (slot tenant part deadline : Nat) (block : Blob) (index : Nat) (query : List F32) (compat : Bool)
  | subStatus (tag : Nat) (refused : Bool) (causes : Nat)
  | pool (tag : Nat) (cands : List Cand) (counts : List Nat)
  | t3Read (addr len tag : Nat)
  | t3Data (tag : Nat) (data : Option Blob)
  | table (msg : RemoteAdd)
  | addAck (tag count : Nat) (direct : Bool)
  | stageAck (tag : Nat)
deriving DecidableEq, Repr, Inhabited

/-- One thing the module sent outside, in the order of the output log (log entry 8). -/
inductive OutMsg where
  /-- A memory write to the host of a function, with its Relaxed Ordering attribute (R338). -/
  | host (fn addr : Nat) (data : Blob) (relaxed : Bool)
  /-- An MSI-X message (R361, R362). -/
  | msix (fn vec addr data : Nat)
  /-- A Gallery message to a peer on a virtual lane, or on a port during HELLO. -/
  | gal (peer vl : Nat) (msg : GalMsg)
  | galPort (port : Nat) (msg : GalMsg)
  /-- The Delay_Req of a PTP measurement, with its departure time (R406). -/
  | ptpDelayReq (time : Nat)
  /-- A rising edge of PPS_OUT at a whole second, and its width in ms. -/
  | ppsOut (second width : Nat)
  /-- The answer to an Aperture read: data, or none for Completer Abort (R341). -/
  | aptData (fn off : Nat) (data : Option Blob)
  /-- The answer to a read of a register. -/
  | regData (fn off : Nat) (value : Word)
  | spdm (ep : SpdmEnd) (rsp : Blob)
  | doe (fn : Nat) (rsp : Blob)
  | doeError (fn : Nat)
deriving DecidableEq, Repr, Inhabited

/-- Runs of HBM granules of 2 MiB: first granule (its device address in 2 MiB units) and count (R103). -/
abbrev Runs := List (Nat × Nat)

/-! ## Functions, rings and interrupt vectors -/

/-- One ring of a function (R342 to R345, R365). `reserved` counts reserved entries of a completion ring (R345), `missed` error records not written (R450); `turn` is the admission order behind its last descriptor read, `taken` how many descriptors its turn has read (R349). -/
structure Ring where
  base     : Word := 0
  shadow   : Word := 0
  cfg      : Word := 0
  host     : Nat := 0
  dev      : Nat := 0
  phase    : Bool := true
  halted   : Bool := false
  reserved : Nat := 0
  missed   : Nat := 0
  turn     : Nat := 0
  taken    : Nat := 0
deriving DecidableEq, Repr, Inhabited

/-- One MSI-X vector (R361, R362, R366). `events` counts the open window, opened at `opened`. -/
structure Vec where
  mod    : Word := 1
  entry  : BitVec 128 := 0x1000000000000000000000000
  pend   : Bool := false
  events : Nat := 0
  opened : Option Nat := none
deriving DecidableEq, Repr, Inhabited

/-- A physical or virtual function (R337, R339, R374). The fields after `flr` are PCIe configuration space. -/
structure Fn where
  rings     : SMap Ring := []
  vecs      : SMap Vec := []
  status    : Word := 0
  dbErrors  : Nat := 0
  cntSel    : Nat := 0
  sampleIdx : Nat := 0
  flr       : Option Nat := none
  vfEnable  : Bool := false
  numVfs    : Nat := 0
  relaxed   : Bool := false
  ltrEn     : Bool := false
  ltrSnoop  : Nat := 0
  ltrNoSnoop : Nat := 0
  doeAbsent : Bool := false
deriving DecidableEq, Repr, Inhabited

/-- The owner's P-domain registers and the admin rings (R341, R363, R364). -/
structure Admin where
  aptBase : Word := 0
  sq      : Word := 0
  cq      : Word := 0
  sqHost  : Nat := 0
  sqDev   : Nat := 0
  cqHost  : Nat := 0
  cqDev   : Nat := 0
  cqPhase : Bool := true
deriving DecidableEq, Repr, Inhabited

/-- A host port (R335, R483). -/
structure Port where
  linkUp : Bool := false
  perst  : Bool := true
  last   : Nat := 0
deriving DecidableEq, Repr, Inhabited

/-! ## Time -/

/-- An Announce heard from a PTP master (R406). -/
structure Master where
  rank     : Nat := 0
  interval : Nat := 0
deriving DecidableEq, Repr, Inhabited

/-- The Newel counter, its servo and the Tread (R404 to R411). -/
structure Newel where
  time     : Nat := 0
  fracReg  : Nat := 0
  nextB    : Nat := 25000
  len      : Nat := 25000
  pend     : Option Nat := none
  treads   : Nat := 0
  servo    : Nat := 0
  good     : Nat := 0
  first    : Bool := false
  offset   : Int := 0
  slew     : Int := 0
  holdFrom : Option Nat := none
  holdLong : Bool := false
  lastPulse : Option Nat := none
  pulseSec : Nat := 0
  todSeen  : Word := 0
  masters  : SMap Master := []
  master   : Option Nat := none
  syncT1   : Nat := 0
  syncT2   : Nat := 0
  reqT3    : Option Nat := none
deriving DecidableEq, Repr, Inhabited

/-! ## Power, pins and thermal state -/

/-- Where the start-up sequence of R526 and R527 stands. -/
inductive PowerPhase where
  | off | qualify | charge | rails | up
deriving DecidableEq, Repr, Inhabited

/-- A supply event under way: its start, its extreme voltage in 10 mV, commits deferred (R464), and the Alcove dies in retention when it began (R461). -/
structure SupplyEvent where
  start    : Nat := 0
  extreme  : Nat := 0
  deferred : Nat := 0
  still    : List Nat := []
deriving DecidableEq, Repr, Inhabited

/-- A thermal condition that stands: kind of R534, site, start, highest temperature. -/
structure Thermal where
  kind  : Nat := 0
  site  : Nat := 0
  start : Nat := 0
  peak  : Nat := 0
deriving DecidableEq, Repr, Inhabited

structure Power where
  phase    : PowerPhase := .rails
  since    : Nat := 0
  enOpen   : Bool := false
  vin      : Nat := 7200
  vmin     : Nat := 7200
  iin      : Nat := 0
  watts    : Nat := 0
  warn     : Option SupplyEvent := none
  hold     : Option Nat := none
  overrun     : Option SupplyEvent := none
  capStep  : Nat := 16
  thermal  : List Thermal := []
  tripped  : Bool := false
  modrst   : Bool := false
  tol      : Nat := 0
  depth    : Nat := 0
  dormant  : Bool := false
  waking   : Option Nat := none
  idleFrom : Option Nat := none
  activeTo : Nat := 0
  wings    : List Nat := []
  wingWake : List Nat := []
deriving DecidableEq, Repr, Inhabited

/-- A module reset in progress: when it began and whether MODRST_N holds it (R476). -/
structure ResetRun where
  start  : Nat := 0
  byPin  : Bool := false
  cold   : Bool := false
deriving DecidableEq, Repr, Inhabited

/-! ## Firmware, the store, security -/

/-- A firmware processor (R414, R425 to R430). `expiries` holds the Newel times of counted expiries, `snaps` the snapshots, newest first. -/
structure Proc where
  state    : Nat := 0
  expiries : List Nat := []
  restarts : Nat := 0
  snaps    : List Blob := []
deriving DecidableEq, Repr, Inhabited

/-- Firmware load state and the image copied into the firmware region (R417 to R422). -/
structure Fw where
  state   : Nat := 0
  code    : Nat := 0
  ignored : Bool := false
  image   : Blob := []
  ifVer   : Nat := 0
  release : Nat := 0
  svn     : Nat := 0
  procs   : SMap Proc := []
deriving DecidableEq, Repr, Inhabited

/-- A valid bank of the store: sequence number and entries by kind (R492, R493). -/
structure Bank where
  seq     : Nat := 0
  entries : SMap Blob := []
deriving DecidableEq, Repr, Inhabited

/-- A configuration write under way (R497). `raise` marks RAISE_FLOOR, `tag` is the admin command's tag. -/
structure StoreWrite where
  kind    : Nat := 0
  payload : Blob := []
  raise   : Bool := false
  tag     : Nat := 0
  waiting : Bool := false
deriving DecidableEq, Repr, Inhabited

/-- The persistent store (R491 to R500): the bytes of its banks and of the floor mirror, as far as they are not erased. `log` is oldest first; `logged` counts the records ever logged. -/
structure Store where
  bankA   : Blob := []
  bankB   : Blob := []
  activeB : Bool := false
  noConfig : Bool := true
  mirror  : Blob := []
  write   : Option StoreWrite := none
  tokens  : Nat := 1
  next    : Nat := 0
  refused : Nat := 0
  log     : List (Nat × Blob) := []
  logged  : Nat := 0
  erasesA : Nat := 0
  erasesB : Nat := 0
  held    : List Blob := []
deriving DecidableEq, Repr, Inhabited

/-- Fused words (R8, R18, R412, R418, R485, R502). -/
structure Fuses where
  stepping  : Nat := 0x00010101
  behaviour : Nat := 0x01010101
  serial    : Nat := 1
  mac       : Nat := 0x020000000001
  rootHash  : Blob := [55, 35, 29, 145, 31, 144, 23, 177, 16, 198, 208, 70, 227, 33, 222, 220,
    199, 39, 97, 190, 27, 191, 22, 21, 159, 103, 159, 253, 152, 24, 58, 105]
  debugOpen : Bool := false
  secret    : Blob := []
deriving DecidableEq, Repr, Inhabited

/-! ## Gallery -/

/-- A Gallery port (R389 to R396). `replays` counts replays of the flit `replaySeq`. -/
structure GalPort where
  state     : Nat := 0
  peer      : Nat := 0
  peerPort  : Nat := 0
  lanes     : Nat := 0
  replayed  : Nat := 0
  e2e       : Nat := 0
  replaySeq : Nat := 0
  replays   : Nat := 0
deriving DecidableEq, Repr, Inhabited

/-- A Gallery peer (R394 to R402): state code of GAL_PEER, routes, directory, liveness. -/
structure Peer where
  state    : Nat := 0
  hops     : Nat := 0
  port     : Nat := 0
  expGen   : Nat := 0
  lastFlit : Nat := 0
  declare  : Bool := false
  timedOut : Bool := false
  ready    : List (Nat × Nat) := []
  accept   : Nat := 0
  links    : List Nat := []
  stale    : Nat := 0
  order    : Nat := 0
deriving DecidableEq, Repr, Inhabited

structure Gallery where
  moduleId : Nat := 0
  groupTag : Nat := 0
  enabled  : Bool := false
  ownGen   : Nat := 0
  ports    : SMap GalPort := []
  peers    : SMap Peer := []
  stale    : Nat := 0
  reroute  : Bool := false
deriving DecidableEq, Repr, Inhabited

/-! ## Requests, steps and tasks -/

/-- The steps of R30, and those of the other opcodes (R124). -/
inductive Stage where
  | tokenise | embed | probe | scan | select | refine | merge | fetch | rerank | pack | prefill | decode | checkPass
  | detokenise
  /-- Placement of an index update (R196 to R201) and the batches of a consolidation (R205). -/
  | index
  /-- Phases of a table opcode: gather, gradients, update (R316, R322, R330). -/
  | gather | gradient | update
  | load
deriving DecidableEq, Repr, Inhabited

/-- One task of a step (R123, R124): request, number, home, deadline class, and the shard of a decode task (R61). -/
structure Task where
  slot  : Nat := 0
  seq   : Nat := 0
  stage : Stage := .tokenise
  spec  : Bool := false
  cls   : Nat := 3
  home  : Nat := 0
  shard : Option Nat := none
  /-- The pair a speculative rerank scores: passage ID and version (R140). -/
  pair  : Option (Nat × Nat) := none
deriving DecidableEq, Repr, Inhabited

/-- A task that runs on a landing, and when it started. -/
structure RunTask where
  task  : Task := {}
  start : Nat := 0
deriving DecidableEq, Repr, Inhabited

/-- An output group in the combine buffer of its owning landing (R49 to R51, R69): the task of a speculative group, how partials combine, the partials held by index with the physical landing that
sent each, and the fold so far. -/
structure Combine where
  slot  : Nat := 0
  group : Nat := 0
  spec  : Bool := false
  task  : Nat := 0
  fold  : FoldOp := .add
  total : Nat := 0
  next  : Nat := 0
  acc   : List F32 := []
  held  : SMap (Nat × List F32) := []
deriving DecidableEq, Repr, Inhabited

/-- A landing's counter block and sampling buffer (R504 to R513). -/
structure Counters where
  cycBase  : Nat := 0
  cycFrom  : Option Nat := some 0
  prog     : SMap Nat := []
  evsel    : SMap Nat := []
  ovf      : Nat := 0
  smpCfg   : Nat := 0
  head     : Nat := 0
  wrapped  : Bool := false
  lost     : Bool := false
  total    : Nat := 0
  entries  : SMap Blob := []
  snapCyc  : Nat := 0
  snapProg : SMap Nat := []
deriving DecidableEq, Repr, Inhabited

/-- A loan in a lender's store (R105): its T2 source, its length, where it stands. -/
structure Lent where
  src : Nat := 0
  len : Nat := 0
  at_ : Nat := 0
deriving DecidableEq, Repr, Inhabited

/-- A thread of a landing's Usher (R107): sixteen registers, sixteen line slots (the address of each line issued, and its bytes once it has arrived), the next instruction, instructions
executed in this walk, whether the walk has ended. -/
structure Thread where
  g     : List Word := List.replicate 16 0
  slots : SMap (Nat × Option Blob) := []
  pc    : Nat := 0
  count : Nat := 0
  done  : Bool := false
deriving DecidableEq, Repr, Inhabited

/-- A landing's Usher in a step (R107, R110): threads, oldest first; items of the step's input list and expansion queue not yet taken; work items not yet taken; pairs emitted; line reads under
way, oldest first, by thread number and slot. -/
structure Usher where
  threads : List Thread := []
  input   : List Word := []
  work    : List (List Word) := []
  emits   : List (Word × Word) := []
  lines   : List (Nat × Nat) := []
deriving DecidableEq, Repr, Inhabited

/-- A logical landing (R19): the deque of five levels, each oldest first (R128), running tasks, combine buffer, decode tokens queued by shard (R61),
its physical landing, its landing store with the residues beside the elements by half-byte place (R32, R55), the tile that its Riser array holds (R34), its Usher (R107), the tiles that the
stair schedule has filled in (model and tile number, R113), loans it holds, revoked loans whose issued reads may still complete (R105, R106), armed injections (R551), idle and gating state (R471). -/
structure Landing where
  phys     : Option Nat := none
  lev0     : List Task := []
  lev1     : List Task := []
  lev2     : List Task := []
  lev3     : List Task := []
  spec     : List Task := []
  running  : List RunTask := []
  combine  : List Combine := []
  batch    : SMap (List Task) := []
  store    : Memory := []
  resid    : SMap Nat := []
  tile     : Option (Tile.Kind × Blob) := none
  usher    : Usher := {}
  filled   : List (Nat × Nat) := []
  loans    : List Lent := []
  draining : List Lent := []
  lender   : Bool := false
  injRes   : Option Bool := none
  injEcc   : Option Bool := none
  idleFrom : Nat := 0
  gated    : Bool := false
  gatedFor : Nat := 0
  dupes    : Nat := 0
  redo     : List Task := []
  cnt      : Counters := {}
deriving DecidableEq, Repr, Inhabited

/-- A physical landing (R18, R441 to R447, R456): state code, logical ID served, generation, times of errors counted in the window, totals, reservation, the logical ID it last had (R446). -/
structure Phys where
  state    : Nat := 0
  logical  : Option Nat := none
  gen      : Nat := 0
  residues : List Nat := []
  eccs     : List Nat := []
  resTotal : Nat := 0
  eccTotal : Nat := 0
  reserved : Option Nat := none
  heard    : Nat := 0
  heardGen : Nat := 0
  last     : Option Nat := none
deriving DecidableEq, Repr, Inhabited

/-- A session context (R17, R354). `busy` is the slot of its request in flight. -/
structure Session where
  gen     : Nat := 0
  isOpen  : Bool := false
  closing : Bool := false
  fn      : Nat := 0
  tenant  : Nat := 0
  busy    : Option Nat := none
deriving DecidableEq, Repr, Inhabited

/-- A sync counter (R134). -/
structure Sync where
  gen   : Nat := 0
  live  : Bool := false
  part  : Nat := 0
  value : Nat := 0
deriving DecidableEq, Repr, Inhabited

/-- A tenant (R378, R380, R293). -/
structure Tenant where
  cfg     : Word := 0
  rate    : Word := 0
  own     : Int := 0
  surplus : Nat := 0
  charged : Nat := 0
  refused : Nat := 0
  refill  : Bool := false
deriving DecidableEq, Repr, Inhabited

/-- What a partition holds beside its registers: reset under way, the failed processors that fence it, its owning job, tasks that wait for room in a deque (R128),
the granules of its speculation scratch (R141), and how many of them are freed at the next boundary (R144). -/
structure Part where
  resetting : Bool := false
  resetDone : Bool := false
  fencedBy  : List Nat := []
  owner     : Option Nat := none
  backlog   : List Task := []
  scratch   : Runs := []
  freeing   : Nat := 0
deriving DecidableEq, Repr, Inhabited

/-- Where a request stands. -/
inductive Phase where
  /-- Waits at check 5 or 6 of R121. -/
  | waiting
  /-- Waits for the exclusive partition (R133). -/
  | jobWait
  /-- A sync wait, an AFTER_RING signal, a session close, a cancel or an unload that waits for its condition. -/
  | syncWait | afterRing | closing | cancelling | unloading
  /-- Its next step, or the Balustrade step, waits for a Tread boundary. -/
  | ready
  /-- A step is released. -/
  | running
  /-- The Balustrade step may run. -/
  | balustrade
  /-- An index update in the commit lock queue (R193), or committed and waiting for its epoch to close (R190). -/
  | commit | epoch
deriving DecidableEq, Repr, Inhabited

/-- An object a request holds while it is in flight (R204, R279, R313): class and number. -/
inductive Obj where
  | model (n : Nat) | expertSet (n : Nat) | steeringSet (n : Nat) | grammar (n : Nat) | index (n : Nat) | table (n : Nat)
deriving DecidableEq, Repr, Inhabited
/-- A task of the scan step in the select rounds (R220, R231): room and segment (0 main, 1 Annex, 2 spill), piece, rounds run, what its last run emitted, and all it emitted. -/
structure ScanRun where
  room   : Nat := 0
  seg    : Nat := 0
  piece  : Nat := 0
  rounds : Nat := 0
  lastN  : Nat := 0
  out    : List Cand := []
deriving DecidableEq, Repr, Inhabited

/-- A fetched passage: retrieval position, candidate, tokens, rerank score (R252, R257). -/
structure Passage where
  pos    : Nat := 0
  cand   : Cand := default
  tokens : List Nat := []
  score  : F32 := 0
deriving DecidableEq, Repr, Inhabited

/-- A packed passage of the prompt: tokens kept, whether cut, prompt position (R261). -/
structure Packed where
  p     : Passage := {}
  rank  : Nat := 0
  kept  : Nat := 0
  cut   : Bool := false
  at_   : Nat := 0
deriving DecidableEq, Repr, Inhabited

/-- A pool a peer sent, or none while it is awaited (R237, R397). -/
structure PeerPool where
  pool   : Option (List Cand) := none
  counts : List Nat := []
deriving DecidableEq, Repr, Inhabited

/-- Working data of generation (R285 to R308): prompt, tokens emitted, tokens not yet handed over, grammar state and stack, holdback, ending. -/
structure GenWork where
  prompt  : List Nat := []
  out     : List Nat := []
  handed  : Nat := 0
  stepNew : List Nat := []
  gState  : Nat := 0
  gStack  : List Nat := []
  partial_ : Blob := []
  held    : Blob := []
  ending  : Option Nat := none
  detail  : Nat := 0
  draft   : List Nat := []
  kvGran  : Runs := []
  kvRows  : List Blob := []
  textEnd : Bool := false
  rows    : Nat := 0
  replaced : Nat := 0
  /-- Experts chosen by layer in the previous decode step and in this one (R114). -/
  experts : SMap (List Nat) := []
  chosen  : SMap (List Nat) := []
deriving DecidableEq, Repr, Inhabited

/-- One result record of an index update (R199). -/
structure RecResult where
  status : Nat := 0
  flags  : Nat := 0
  room   : Nat := 0xFFFFFFFF
deriving DecidableEq, Repr, Inhabited

/-- A delta or a replacing row of a table step: source key, row, FP32 values or row bytes (R322, R323, R327). -/
structure Delta where
  key  : Nat := 0
  row  : Nat := 0
  vals : List F32 := []
  raw  : Option Blob := none
  done : Bool := false
  sent : Bool := false
  direct : Bool := false
deriving DecidableEq, Repr, Inhabited

/-- Working data of a table step (R316, R326 to R331): deltas, whether the update has ended and whether staged rows were applied, out-of-range counts, gradients by bag,
the replicas as they stood at the release of the gather, staging granules; of a deterministic step, the peers whose staging buffers are still to be acquired, and those that have not yet applied them (R329). -/
structure TabWork where
  deltas   : List Delta := []
  issued   : Bool := false
  applied  : Bool := false
  outRange : Nat := 0
  firstOut : Nat := 0xFFFFFFFF
  grad     : List (List F32) := []
  repl     : SMap Blob := []
  gran     : Runs := []
  acquire  : List Nat := []
  applying : List Nat := []
deriving DecidableEq, Repr, Inhabited

/-- The working data of a request's steps: question tokens in the vocabularies of the embedding model and the generator, texts, query vector, snapshot, probe list, scan runs, pool, counts. -/
structure ReqWork where
  question : List Nat := []
  genQ     : List Nat := []
  system   : List Nat := []
  instr    : List Nat := []
  replaced : Nat := 0
  listData : Blob := []
  query    : List F32 := []
  snapshot : Option Nat := none
  spillTop : Nat := 0
  rooms    : List Nat := []
  probed   : Nat := 0
  escs     : Nat := 0
  escEnd   : Nat := 0
  tScan    : Nat := 0
  scanNow  : List ScanRun := []
  runs     : List ScanRun := []
  pool     : List Cand := []
  dups     : Nat := 0
  drops    : Nat := 0
  scored   : Nat := 0
  approx   : Bool := false
  ties     : Nat := 0
  peers    : SMap PeerPool := []
  merged   : List Cand := []
  store    : Blob := []
  t3Got    : List (Nat × Blob) := []
  t3Sent   : List (Nat × Nat) := []
  passages : List Passage := []
  missing  : Nat := 0
  specDone : List (Nat × Nat) := []
  specOk   : Bool := false
  pairs    : Nat := 0
  chosen   : List Passage := []
  packed   : List Packed := []
  dropped  : List (Nat × Passage) := []
  anchor   : Nat := 0
  overrun     : Bool := false
  gen      : GenWork := {}
  stops    : List Blob := []
  inclStop : Bool := false
  consNext : Nat := 0
  consBase : Nat := 0
  consBatch : List Nat := []
  consDone : Nat := 0
  consBelow : Nat := 0
  consOver : Nat := 0
  consSpill : Nat := 0
  consTomb : Nat := 0
  tab      : TabWork := {}
  sbExtra  : Blob := []
  deferSeq : Nat := 0
  /-- Prefix blocks and cache entries that the released step reads (R253, R272). -/
  usePref  : List Nat := []
  useKeys  : List (Bool × Blob) := []
  /-- The pairing and the mode that the step's first tile pass named (R34, R35). -/
  pairing  : Option (Pairing × Bool) := none
deriving DecidableEq, Repr, Inhabited

/-- A GENERATE's stream (R304 to R306): next record number, tokens handed over, bytes released, records waiting for a free element. -/
structure StreamWork where
  seq      : Nat := 0
  handed   : Nat := 0
  released : Nat := 0
  waiting  : List Blob := []
deriving DecidableEq, Repr, Inhabited

/-- A request in its admission slot; `pos` is its descriptor's place in the submission ring (R127), `relAt` the time at which its step was released (R99). -/
structure Req where
  fn        : Nat := 0
  ring      : Nat := 0
  cq        : Nat := 0
  order     : Nat := 0
  pos       : Nat := 0
  relAt     : Nat := 0
  desc      : Blob := []
  admitAt   : Nat := 0
  cls       : Nat := 3
  phase     : Phase := .ready
  stages    : List Stage := []
  cur       : Option Stage := none
  doneAt    : Nat := 0
  tasks     : List Nat := []
  taskCount : Nat := 0
  homes     : List Nat := []
  ending    : Option Nat := none
  stopped   : Bool := false
  passedAt  : Option Nat := none
  suppress  : Bool := false
  peerLost  : Bool := false
  doubt     : Nat := 0
  doubtRec  : Option Nat := none
  doubtStep : Nat := 0
  session   : Option Nat := none
  handle    : Nat := 0
  holdover  : Bool := false
  brownout  : Bool := false
  flags     : Nat := 0
  count     : Nat := 0
  bytes     : Nat := 0
  epoch     : Nat := 0
  ext       : Blob := []
  writes    : List (Nat × Blob) := []
  stream    : StreamWork := {}
  sbSeq     : Nat := 0
  sbBytes   : Nat := 0
  progDone  : Nat := 0
  progTotal : Nat := 0
  holds     : List Obj := []
  ended     : Nat := 0
  cancels   : List Nat := []
  part      : Nat := 0
  needs     : List Nat := []
  peer      : Option (Nat × Nat) := none
  xs        : ReqWork := {}
deriving DecidableEq, Repr, Inhabited
/-- A committed or staged unit program: words, constants and special-value word of a micro-program slot; the words alone of a table or a walker program (R79, R111). -/
structure Prog where
  words   : List Word := []
  consts  : List F32 := []
  special : F32 := 0
deriving DecidableEq, Repr, Inhabited

/-- A block that stages, commits and clears programs (R84, R85, R111). `pend` holds what waits for a boundary: by number, the new content, or none for a clear. -/
structure Loader where
  staged : SMap Word := []
  overrun   : Bool := false
  status : Nat := 0
  pend   : SMap (Option Prog) := []
  done   : SMap Prog := []
deriving DecidableEq, Repr, Inhabited

/-- The loadable units: micro-programs, function tables, walker programs, normalisation slots (R79, R111, R156). -/
structure Units where
  mp     : Loader := {}
  tbl    : Loader := {}
  walk   : Loader := {}
  norms  : SMap Blob := []
  normStatus : Nat := 0
  normPend : SMap (Option Blob) := []
deriving DecidableEq, Repr, Inhabited

/-- A dense tile in a stair schedule (R113): layer, number in the image's tile list, the landing whose steps use it. -/
structure StairTile where
  layer : Nat := 0
  tile  : Nat := 0
  land  : Nat := 0
deriving DecidableEq, Repr, Inhabited

/-- Where an N-tile of an expert runs first (R280): layer, expert (routed ones first, then shared), number in the image's tile list, home landing. -/
structure HomeTile where
  layer  : Nat := 0
  expert : Nat := 0
  tile   : Nat := 0
  land   : Nat := 0
deriving DecidableEq, Repr, Inhabited

/-- A resident object of MODEL_LOAD (R275 to R277): kind, image, generation, partition mask, base generator number, pseudo-channel set and granules; `unloading` after MODEL_UNLOAD; by partition of
the mask, the stair schedule and the expert placement (R113, R280). -/
structure Model where
  kind  : Nat := 1
  image : Blob := []
  gen   : Nat := 0
  mask  : Nat := 0
  base  : Nat := 0
  set_  : Nat := 16
  gran  : Runs := []
  unloading : Bool := false
  stair : SMap (List StairTile) := []
  homes : SMap (List HomeTile) := []
deriving DecidableEq, Repr, Inhabited

/-- An entry of an index (R181, R184, R192): codes, attribute, passage, insert epoch (Annex and spill), and the delete epoch of its tombstone (R188). -/
structure Entry where
  pq   : Blob := []
  ref  : Blob := []
  attr : Nat := 0
  id   : Nat := 0
  ver  : Nat := 0
  ins  : Nat := 0
  room : Nat := 0
  tomb : Option Nat := none
deriving DecidableEq, Repr, Inhabited

/-- A room version (R183): the offsets in the index's allocation of its header and of its Annex blocks, base and switch epoch, main and Annex entries by position. -/
structure RoomVer where
  at_   : Nat := 0
  annexAt : List Nat := []
  base  : Nat := 0
  sw    : Nat := 0
  main  : List Entry := []
  annex : List Entry := []
deriving DecidableEq, Repr, Inhabited

/-- A passage map entry (R185). -/
structure MapEnt where
  id     : Nat := 0
  ver    : Nat := 0
  loc    : Nat := 0
  second : Bool := false
deriving DecidableEq, Repr, Inhabited

/-- An index (R176 to R210): state code of IDX_STATE, generation, parameter block, rooms with their versions (newest first), spill Annex, passage map, entries added while building,
spill slots folded and not yet reclaimed with the epoch that frees them. -/
structure Index where
  state  : Nat := 0
  gen    : Nat := 0
  block  : Blob := []
  set_   : Nat := 16
  gran   : Runs := []
  built  : Nat := 0
  rooms  : SMap (List RoomVer) := []
  spill  : SMap Entry := []
  folded : List (Nat × Nat) := []
  mapB   : SMap (List MapEnt) := []
  mapO   : List MapEnt := []
  added  : List Entry := []
deriving DecidableEq, Repr, Inhabited

/-- An embedding table (R311 to R321): create record, generation, rows by number (unlisted rows are +0), active replicas, those that wait for a flip, and the time of the last flip (R99). -/
structure Table where
  rec_  : Blob := []
  gen   : Nat := 0
  set_  : Nat := 16
  gran  : Runs := []
  rows  : SMap Blob := []
  repl  : SMap Blob := []
  replNext : Option (SMap Blob) := none
  flipAt : Nat := 0
  rebuilt : Option Nat := none
  hot   : SMap (Nat × Nat) := []
  destroying : Bool := false
deriving DecidableEq, Repr, Inhabited

/-- A prefix table entry (R265): its place in its bucket's line, and what stands at its KV address, in 4 KiB units: the token copy, and the keys before the rotary transform and values of each position (R266). -/
structure PrefEnt where
  key    : Nat := 0
  parent : Nat := 0
  part   : Nat := 0
  pinned : Bool := false
  age    : Nat := 0
  tokens : List Nat := []
  word   : Nat := 0
  order  : Nat := 0
  slot   : Nat := 0
  at_    : Nat := 0
  size   : Nat := 0
  rows   : List Blob := []
deriving DecidableEq, Repr, Inhabited

/-- An entry of the hot-passage cache or of the passage KV cache of a partition (R253, R272): key, bytes, last use, address in 4 KiB units; token words of the passage, or the canonical keys
before the rotary transform and values of its tokens. -/
structure CacheEnt where
  part  : Nat := 0
  kv    : Bool := false
  key   : Blob := []
  model : Nat := 0
  size  : Nat := 0
  used  : Nat := 0
  at_   : Nat := 0
  tokens : List Nat := []
  rows  : List Blob := []
deriving DecidableEq, Repr, Inhabited

/-- A counter entry of a Hall die's hot-row counting (R320). -/
structure HotEnt where
  table : Nat := 0
  row   : Nat := 0
  count : Nat := 0
deriving DecidableEq, Repr, Inhabited

/-- The resident objects: models by number, private expert sets, steering sets, grammars, generations of their numbers,
indexes, tables, caches; the peer's step that holds the staging buffers, those that wait for them and the deltas staged for it (R329); `epoch` is the last completed commit epoch, `commits` says that this Tread holds a commit. -/
structure Objs where
  models   : SMap Model := []
  sets     : SMap Model := []
  steers   : SMap Model := []
  grammars : SMap Model := []
  modelGen : SMap Nat := []
  gramGen  : SMap Nat := []
  indexes  : SMap Index := []
  epoch    : Nat := 0
  commits  : Bool := false
  tables   : SMap Table := []
  tableGen : SMap Nat := []
  hotCnt   : SMap (List HotEnt) := []
  prefs    : List PrefEnt := []
  caches   : List CacheEnt := []
  stageBy  : Option (Nat × Nat) := none
  stageWait : List (Nat × Nat) := []
  staged   : List Delta := []
deriving DecidableEq, Repr, Inhabited

/-! ## Alcove dies -/

/-- A cached line (R96): its device address and its 128 bytes. -/
structure AlcLine where
  addr : Nat := 0
  data : Blob := []
deriving DecidableEq, Repr, Inhabited

/-- A set of an Alcove die's cache: lines by way, and the 15 bits of its pseudo-LRU tree. -/
structure AlcSet where
  ways : SMap AlcLine := []
  plru : Nat := 0
deriving DecidableEq, Repr, Inhabited

/-- A prefetched line on its way into an Alcove cache (R96, R110, R113): the partition it fills for, the landing that issued it, its device address, the data read. -/
structure AlcFill where
  part : Nat := 0
  land : Nat := 0
  addr : Nat := 0
  data : Blob := []
deriving DecidableEq, Repr, Inhabited

/-- The Alcove dies (R96 to R101): cache sets keyed 2^19 × die + set, lines on their way, the bytes of the pinned ways of each die by 64 MiB × way + offset, and the contents of STATIC
regions that firmware has to write while it holds back the steps that read them (R99). -/
structure Alcoves where
  sets  : SMap AlcSet := []
  fills : List AlcFill := []
  pins  : SMap Memory := []
  due   : List Nat := []
deriving DecidableEq, Repr, Inhabited

/-- The Arcade engine of a Vestibule (R163): the steps it runs, at most 16, and those that queue, in release order. -/
structure Arcade where
  busy  : List Nat := []
  queue : List Nat := []
deriving DecidableEq, Repr, Inhabited

/-! ## The whole state -/

/-- Faults: record sequence, log rate bucket in ns of credit, landings, fenced edges and those that traffic avoids since the last boundary (R23), granules (R441 to R456). -/
structure Faults where
  seq      : Nat := 0
  credit   : Nat := 64000000000
  creditAt : Nat := 0
  withheld : Nat := 0
  stale    : Nat := 0
  dropped  : Nat := 0
  phys     : SMap Phys := []
  edges    : Nat := 0
  detour   : Nat := 0
  granules : SMap (List Nat) := []
  retired  : List Nat := []
deriving DecidableEq, Repr, Inhabited

/-- Module-wide counter state (R509 to R512); `late` marks schedule entries that are past their time (R511). -/
structure CntAll where
  frozen   : Bool := false
  snapSeq  : Nat := 0
  snapTime : Nat := 0
  late     : Nat := 0
  part     : SMap Nat := []
  snapPart : SMap Nat := []
deriving DecidableEq, Repr, Inhabited

/-- SPDM transcripts of the mailboxes and of MCTP, and negotiated state (R489). -/
structure SpdmState where
  transcript : SMap Blob := []
  stage      : SMap Nat := []
  answered   : Nat := 0
  errors     : Nat := 0
deriving DecidableEq, Repr, Inhabited

/-- The state of the module (INVENTORY.md lists every piece with its rule). -/
structure State where
  member   : Member := .e32
  fuses    : Fuses := {}
  ownerPort : Nat := 0
  bifurc   : List Nat := [0, 0, 0, 0]
  regs     : SMap Word := []
  staged   : SMap Word := []
  newel    : Newel := {}
  power    : Power := {}
  rst      : Option ResetRun := none
  ports    : SMap Port := []
  fns      : SMap Fn := []
  admin    : Admin := {}
  fw       : Fw := {}
  store    : Store := {}
  spdm     : SpdmState := {}
  gal      : Gallery := {}
  hostMem  : SMap Memory := []
  hbm      : Memory := []
  lands    : SMap Landing := []
  flt      : Faults := {}
  alc      : Alcoves := {}
  arcades  : SMap Arcade := []
  cnt      : CntAll := {}
  parts    : SMap Part := []
  tenants  : SMap Tenant := []
  binds    : SMap Word := []
  sessions : SMap Session := []
  syncs    : SMap Sync := []
  reqs     : SMap Req := []
  nextOrder : Nat := 0
  objs     : Objs := {}
  units    : Units := {}
  fresh    : Nat := 0
  out      : List OutMsg := []
  pending  : List Instr := []
deriving DecidableEq, Repr, Inhabited

/-- Faults of a command: none of this model's commands raises one; the constructor stands for the interface. -/
inductive Fault where
  /-- Raised by no command (safe). -/
  | none
deriving DecidableEq, Repr, Inhabited

/-- Refusals of a command. -/
inductive Refusal where
  /-- The command has no meaning in the model: raised by Dispatch alone, by mnemonic (safe). -/
  | notModelled (mnemonic : String)
deriving DecidableEq, Repr, Inhabited

/-- The module right after a cold reset: 72.00 V at the input, the rails up and POWER_OK about to rise, every PERST_N asserted (log entry 5), the store empty
(log entry 7), and every register at its reset value. -/
def State.reset : State := {}

end Sys2Proof.Machine
end

