-- ==== Sys2Proof/Machine/Ops.lean ====
section
/-! DEFINITION. The named operations over State: time, registers, functions, host memory, rings, interrupts, error records, doubt, completions, and the freeing of an admission slot. -/

namespace Sys2Proof.Machine

open Sys2Proof

/-! ## Time -/

def State.now (s : State) : Nat := s.newel.time

/-- The Newel counter at the arrival of a command: it never moves back, and does not pass a boundary that has not run (log entry 2). -/
def State.advance (t : Nat) (s : State) : State :=
  { s with newel := { s.newel with time := max s.newel.time (min t s.newel.nextB) } }

/-! ## Registers -/

/-- SEC_SPDM_CTRL without the bits of absent ports (R503). -/
def spdmMask (m : Member) : Nat := 65536 + ((List.range 4).filter fun p => decide (p < m.ports)).foldl (fun a p => a + shl 15 (4 * p)) 0

/-- CAPS words of the smaller members, and other reset values that the member fixes (R1, R91, R119, R147, R403, R413, R457, R482, R484, R503). -/
def memberReset (m : Member) (off : Nat) (d : Nat) : Nat :=
  if off = Reg.partCaps then
    16 + shl m.wings 8 + shl (b2n m.speculates) 16 + shl 32 24
  else if off = Reg.fltCaps then m.landings + shl 4 9 + shl m.halls 12 + shl 0x15 16
  else if off = Reg.galCaps then putBits d 3 0 m.galPorts
  else if off = Reg.memCaps then
    putBits (putBits d 3 0 m.alcoves) 7 4 ((List.range m.halls).filter fun h => m.dieStacks h = 2).length
  else if off = Reg.fwCaps then 2 * m.vestibules + m.halls
  else if off = Reg.pwrCap then m.sustainedW
  else if off = Reg.idOrderCode then m.sites
  else if off = Reg.secSpdmCtrl then d &&& spdmMask m
  else if off = Reg.idResources then
    m.halls + shl m.vestibules 4 + shl m.alcoves 8 + shl m.nStacks 12 + shl m.landings 17
  else if !m.speculates && decide (Reg.partSpec 0 ≤ off) && decide (off ≤ Reg.partSpec 15) && (off - Reg.partSpec 0) % 0x100 == 0 then 0
  else d

/-- The reset value of the register at an offset (the register tables). -/
def regReset (m : Member) (off : Nat) : Word :=
  match regAt off with
  | some (r, i) =>
    let d := if r.off = Reg.memWalkValid 0 && i = 1 then 0 else r.reset
    BitVec.ofNat 64 (memberReset m off d)
  | none => 0

/-- The stored value of a module-level register. -/
def State.reg (s : State) (off : Nat) : Word := (SMap.find s.regs off).getD (regReset s.member off)
def State.regN (s : State) (off : Nat) : Nat := (s.reg off).toNat
def State.setReg (s : State) (off : Nat) (v : Word) : State := { s with regs := SMap.put s.regs off v }
def State.setRegN (s : State) (off v : Nat) : State := s.setReg off (BitVec.ofNat 64 v)
/-- Sets a bit of a status register. -/
def State.orReg (s : State) (off bit : Nat) : State := s.setReg off (setBitW (s.reg off) bit)
/-- Adds to a field of a register, saturating. -/
def State.satField (s : State) (off hi lo n : Nat) : State :=
  s.setReg off (putBitsW (s.reg off) hi lo (satAdd (hi + 1 - lo) (bitsW (s.reg off) hi lo) n))

/-! ## Functions and ports -/

def fnPort (f : Nat) : Nat := f % 4
def fnPf (f : Nat) : Nat := f / 4 % 4
def fnVf (f : Nat) : Nat := f / 16
/-- The function ID of a port, physical function and virtual function (R374). -/
def fnId (port pf vf : Nat) : Nat := port + 4 * pf + 16 * vf

def State.fnOf (s : State) (f : Nat) : Fn := SMap.at s.fns f {}
def State.setFn (s : State) (f : Nat) (x : Fn) : State := { s with fns := SMap.put s.fns f x }
def State.updFn (s : State) (f : Nat) (g : Fn → Fn) : State := s.setFn f (g (s.fnOf f))
def State.port (s : State) (p : Nat) : Port := SMap.at s.ports p {}
def State.updPort (s : State) (p : Nat) (g : Port → Port) : State := { s with ports := SMap.put s.ports p (g (s.port p)) }

/-- The owner physical function: physical function 0 of the owner port (R339). -/
def State.isOwner (s : State) (f : Nat) : Bool := f == s.ownerPort
/-- Physical functions of a port: one per link of its bifurcation (R336). -/
def State.pfCount (s : State) (port : Nat) : Nat :=
  match s.bifurc.getD port 0 with | 1 => 2 | 2 => 4 | _ => 1
/-- Whether a function exists: its port and physical function, and for a virtual function that VF Enable covers it (R336, R337). -/
def State.fnPresent (s : State) (f : Nat) : Bool :=
  decide (f < 1024) && decide (fnPort f < s.member.ports) && decide (fnPf f < s.pfCount (fnPort f)) &&
  (fnVf f == 0 || ((s.fnOf (f % 16)).vfEnable && decide (fnVf f ≤ (s.fnOf (f % 16)).numVfs)))
/-- The module runs: powered, out of reset, not tripped (R476, R527, R532). -/
def State.running (s : State) : Bool := s.rst.isNone && s.power.phase == .up && !s.power.tripped
/-- A host can reach the function: the module runs and the function's link is up. -/
def State.reach (s : State) (f : Nat) : Bool := s.running && s.fnPresent f && (s.port (fnPort f)).linkUp
/-- The function is under function-level reset. -/
def State.inFlr (s : State) (f : Nat) : Bool := (s.fnOf f).flr.isSome

/-! ## Memory -/

def State.hostMemOf (s : State) (port : Nat) : Memory := SMap.at s.hostMem port []
/-- T4 bytes of the host of a function. -/
def State.hostRead (s : State) (f a n : Nat) : Blob := Memory.readN (s.hostMemOf (fnPort f)) a n
/-- A write of the module to the memory of a function's host, with the Relaxed Ordering attribute of R338. A function under reset (R381) or a link that is down writes nothing. -/
def State.hostWrite (s : State) (f a : Nat) (d : Blob) (relaxed : Bool) : State :=
  if s.inFlr f || !(s.port (fnPort f)).linkUp || d.isEmpty then s else
  { s with
    hostMem := SMap.put s.hostMem (fnPort f) (Memory.writeN (s.hostMemOf (fnPort f)) a d)
    out := .host f a d (relaxed && (s.fnOf f).relaxed) :: s.out }
def State.hostWrites (s : State) (f : Nat) (ws : List (Nat × Blob)) : State :=
  ws.foldl (fun s w => s.hostWrite f w.1 w.2 true) s
def State.send (s : State) (m : OutMsg) : State := { s with out := m :: s.out }
/-- A fresh number for a free value (log entry 3). -/
def State.takeFresh (s : State) : Nat × State := (s.fresh, { s with fresh := s.fresh + 1 })

/-! ## Rings -/

def Ring.en (r : Ring) : Bool := bitW r.cfg 0
def Ring.kind (r : Ring) : Nat := bitsW r.cfg 3 1
def Ring.size (r : Ring) : Nat := 2 ^ bitsW r.cfg 8 4
def Ring.cqOf (r : Ring) : Nat := bitsW r.cfg 15 10
def Ring.vector (r : Ring) : Nat := bitsW r.cfg 23 16
def Ring.every (r : Ring) : Bool := bitW r.cfg 24
def Ring.live (r : Ring) (kind : Nat) : Bool := r.en && r.kind == kind
/-- Elements a producing module has written and the host has not taken (R343). -/
def Ring.used (r : Ring) : Nat := (r.dev + r.size - r.host) % r.size
/-- The next element of a module-produced ring is taken (R343: one element stays free). -/
def Ring.full (r : Ring) : Bool := (r.dev + 1) % r.size == r.host
/-- Completion entries neither written nor reserved (R345). -/
def Ring.free (r : Ring) : Nat := r.size - 1 - r.used - r.reserved

def State.ring (s : State) (f n : Nat) : Ring := SMap.at (s.fnOf f).rings n {}
def State.setRing (s : State) (f n : Nat) (r : Ring) : State := s.updFn f fun x => { x with rings := SMap.put x.rings n r }

/-- RING_INDEX or shadow word (R343, R364). -/
def Ring.shadowBytes (r : Ring) : Blob := leBytes 8 (r.dev + shl (b2n r.phase) 16)

/-- Advances the device index of a ring by one element, writing the shadow (R343, R344). -/
def State.ringAdvance (s : State) (f n : Nat) : State :=
  let r := s.ring f n
  let d := (r.dev + 1) % r.size
  let r' := { r with dev := d, phase := if d = 0 then !r.phase else r.phase }
  let s := s.setRing f n r'
  if r.shadow = 0 then s else s.hostWrite f r.shadow.toNat r'.shadowBytes false

/-- Writes a 64-byte element with its phase bit in byte 5, then advances (R344). -/
def State.ringPut (s : State) (f n : Nat) (e : Blob) : State :=
  let r := s.ring f n
  let b5 := Blob.u8 e 5 ||| b2n r.phase
  let s := s.hostWrite f (r.base.toNat + 64 * r.dev) (Blob.patch e 5 [BitVec.ofNat 8 b5]) false
  s.ringAdvance f n

/-! ## Interrupts -/

def State.vec (s : State) (f v : Nat) : Vec := SMap.at (s.fnOf f).vecs v {}
def State.setVec (s : State) (f v : Nat) (x : Vec) : State := s.updFn f fun y => { y with vecs := SMap.put y.vecs v x }
/-- Vectors of a function (R361). -/
def vecCount (f : Nat) : Nat := if fnVf f = 0 then 256 else 65
def Vec.masked (v : Vec) : Bool := v.entry.getLsbD 96
def Vec.count (v : Vec) : Nat := bitsW v.mod 7 0
def Vec.time (v : Vec) : Nat := bitsW v.mod 39 16

/-- Sends a vector's message, or sets its Pending Bit while it is masked, and closes its window (R362). -/
def State.sendVec (s : State) (f v : Nat) : State :=
  let x := s.vec f v
  let s := s.setVec f v { x with events := 0, opened := none, pend := x.pend || x.masked }
  if x.masked then s
  else s.send (.msix f v (x.entry.toNat % 2 ^ 64) (x.entry.toNat / 2 ^ 64 % 2 ^ 32))

/-- Counts one event on a vector: the first opens a window, and TIME = 0 sends at each event (R362). -/
def State.countEvent (s : State) (f v : Nat) : State :=
  if s.inFlr f || !decide (v < vecCount f) then s else
  let x := s.vec f v
  let s := s.setVec f v { x with events := x.events + 1, opened := some (x.opened.getD s.now) }
  if x.time = 0 then s.sendVec f v else s

/-! ## Landings -/

def landDie (l : Nat) : Nat := l / 48
def landWing (l : Nat) : Nat := l / 8
/-- The landing after reset: fused mapping, the first 48 physical landings of each die (R18; log entry 4). -/
def landDefault (l : Nat) : Landing := { phys := some (l / 48 * 64 + l % 48) }
def State.land (s : State) (l : Nat) : Landing := SMap.at s.lands l (landDefault l)
def State.setLand (s : State) (l : Nat) (x : Landing) : State := { s with lands := SMap.put s.lands l x }
def State.updLand (s : State) (l : Nat) (g : Landing → Landing) : State := s.setLand l (g (s.land l))

/-- Physical landings are keyed 64 × Hall die + number. -/
def physKey (h p : Nat) : Nat := 64 * h + p
def physDefault (k : Nat) : Phys :=
  if k % 64 < 48 then { state := 0, logical := some (k / 64 * 48 + k % 64) } else { state := 1 }
def State.phys (s : State) (k : Nat) : Phys := SMap.at s.flt.phys k (physDefault k)
def State.setPhys (s : State) (k : Nat) (x : Phys) : State := { s with flt := { s.flt with phys := SMap.put s.flt.phys k x } }
def State.updPhys (s : State) (k : Nat) (g : Phys → Phys) : State := s.setPhys k (g (s.phys k))

/-- Ns of Newel time to cycles at 1.8 GHz (R505). -/
def cyclesOf (ns : Nat) : Nat := ns * 9 / 5
def Counters.cycles (c : Counters) (now : Nat) : Nat :=
  match c.cycFrom with | some f => c.cycBase + cyclesOf (now - f) | none => c.cycBase
/-- Stops or starts the cycle count of a landing (R480, R505, R510). -/
def Counters.stopCyc (c : Counters) (now : Nat) : Counters := { c with cycBase := c.cycles now, cycFrom := none }
def Counters.startCyc (c : Counters) (now : Nat) : Counters := { c with cycBase := c.cycles now, cycFrom := some now }
/-- Whether the cycle counter of a landing runs: a physical landing serves it, its Wing is powered, the module is not in Dormant, and the counters are not frozen (R480, R505, R510). -/
def State.cycling (s : State) (l : Nat) : Bool := !s.cnt.frozen && !s.power.dormant && (s.land l).phys.isSome && !s.power.wings.contains (landWing l)
/-- Starts or stops the cycle counts of landings; frozen ones stand. -/
def State.recount (s : State) (ls : List Nat) : State :=
  if s.cnt.frozen then s else
  ls.foldl (fun s l => s.updLand l fun x => { x with cnt := if s.cycling l then x.cnt.startCyc s.now else x.cnt.stopCyc s.now }) s

/-- The partition whose enabled Wing mask holds a landing. -/
def State.landPart (s : State) (l : Nat) : Option Nat :=
  (List.range 16).find? fun p => bitW (s.reg (Reg.partCtrl p)) 0 && bitW (s.reg (Reg.partWings p)) (landWing l)
/-- Landings of a partition, ascending. -/
def State.partLands (s : State) (p : Nat) : List Nat :=
  (List.range s.member.landings).filter fun l => bitW (s.reg (Reg.partWings p)) (landWing l)

def State.part (s : State) (p : Nat) : Part := SMap.at s.parts p {}
def State.updPart (s : State) (p : Nat) (g : Part → Part) : State := { s with parts := SMap.put s.parts p (g (s.part p)) }
def State.proc (s : State) (i : Nat) : Proc := SMap.at s.fw.procs i {}
def State.updProc (s : State) (i : Nat) (g : Proc → Proc) : State := { s with fw := { s.fw with procs := SMap.put s.fw.procs i (g (s.proc i)) } }
/-- Processor i runs (FW_PROC[i].STATE = 1). -/
def State.procRuns (s : State) (i : Nat) : Bool := (s.proc i).state == 1

/-! ## Error records -/

/-- The fields of an error record that its kind decides (R448, R449). `named` says that it names a request of function `fn` (R450), `extra` lists further functions a rule names. -/
structure Rec where
  kind    : Nat
  sev     : Nat
  site    : Nat := 8
  unit    : Nat := 0xFF
  landing : Nat := 0xFFFF
  part    : Option Nat := none
  stepId  : Nat := 0
  tag     : Nat := 0
  fn      : Option Nat := none
  named   : Bool := false
  tenant  : Option Nat := none
  addr    : Nat := 0
  count   : Nat := 0
  detail  : Nat := 0
  extra   : List Nat := []
deriving DecidableEq, Repr, Inhabited

/-- A field with its valid bit above it, 0 where there is none. -/
def validField (bit : Nat) (x : Option Nat) : Nat := (x.map fun v => v + shl 1 bit).getD 0

/-- A record's first 60 bytes with the phase bit at 0, for a ring that missed some records (R448). -/
def Rec.body (r : Rec) (seq time missed : Nat) (logged : Bool) : Blob :=
  leBytes 4 seq ++ leBytes 1 r.kind ++ leBytes 1 (shl r.sev 1 + shl (b2n logged) 3) ++ leBytes 1 r.site ++ leBytes 1 r.unit
    ++ leBytes 8 time ++ leBytes 2 r.landing
    ++ leBytes 1 (validField 4 r.part) ++ leBytes 1 0
    ++ leBytes 4 r.stepId ++ leBytes 4 r.tag
    ++ leBytes 2 (validField 15 r.fn)
    ++ leBytes 2 (validField 15 r.tenant)
    ++ leBytes 8 r.addr ++ leBytes 4 (satAdd 32 r.count 0) ++ leBytes 8 r.detail ++ leBytes 4 (satAdd 32 missed 0) ++ leBytes 4 0

/-- A record's 64 bytes: its body and the CRC-32C of it (R448). -/
def Rec.bytes (r : Rec) (seq time missed : Nat) (logged : Bool) : Blob :=
  r.body seq time missed logged ++ leBytes 4 (crc32c (r.body seq time missed logged)).toNat

/-- The enabled error ring of a function (R342). -/
def State.errRing (s : State) (f : Nat) : Option Nat := (List.range 64).find? fun n => (s.ring f n).live 4

/-- The management processor that serves the error rings of a function (R414). -/
def mfpOf (f : Nat) : Nat := 4 + fnPort f

/-- Writes a record to a function's error ring; a full ring counts it as missed; a failed MFP-n (n ≥ 1) sends nothing (R429, R450). -/
def State.recTo (s : State) (f : Nat) (r : Rec) (seq : Nat) (logged : Bool) : State :=
  match s.errRing f with
  | none => s
  | some n =>
    let g := s.ring f n
    if fnPort f != 0 && (s.proc (mfpOf f)).state == 3 then s
    else if s.inFlr f then s
    else if g.full then s.setRing f n { g with missed := g.missed + 1 }
    else
      let e := r.bytes seq s.now g.missed logged
      let s := (s.setRing f n { g with missed := 0 }).ringPut f n e
      s.countEvent f g.vector

/-- Functions bound to a partition (R379). -/
def State.boundFns (s : State) (p : Nat) : List Nat :=
  SMap.keysOf s.binds fun _ w => bitW w 0 && bitW w (16 + p)

/-- The functions to whose error rings a record goes (R450). -/
def State.recTargets (s : State) (r : Rec) : List Nat :=
  let others := match r.named, r.fn, r.part with
    | true, some f, _ => [f]
    | true, none, _ => []
    | false, _, some p => s.boundFns p
    | false, _, none => []
  s.ownerPort :: ((others ++ r.extra).filter fun f => f != s.ownerPort).eraseDups

/-- Ns of credit that one logged record costs: 64 records per second (R451). -/
def logCost : Nat := 15625000

/-- Appends a record to the log; a log block holds 1,023 records and the log 512 blocks (R500). -/
def Store.logAdd (st : Store) (seq : Nat) (b : Blob) : Store :=
  let drop := if st.logged ≥ 523776 && st.logged % 1023 = 0 then 1023 else 0
  { st with log := st.log.drop drop ++ [(seq, b)], logged := st.logged + 1 }

/-- Whether a record is logged, and the credit after it (R451): severity 3 always, severity 2 and everything while the owner's error ring is off at the rate. -/
def State.logDecide (s : State) (r : Rec) : Option Bool × Nat :=
  let credit := min (4096 * logCost) (s.flt.credit + (s.now - s.flt.creditAt))
  if r.sev ≥ 3 then (some true, credit)
  else if r.sev ≥ 2 || (s.errRing s.ownerPort).isNone || !(s.port s.ownerPort).linkUp then
    if credit ≥ logCost then (some true, credit - logCost) else (some false, credit)
  else (none, credit)

/-- Writes an error record (R448 to R451). A log write during a supply warning waits (R461). -/
def State.emit (s : State) (r : Rec) : State :=
  let seq := s.flt.seq
  let d := s.logDecide r
  let logged := d.1 == some true
  let s := (s.recTargets r).foldl (fun s f => s.recTo f r seq logged) s
  let s := { s with flt := { s.flt with seq := (seq + 1) % 2 ^ 32, credit := d.2, creditAt := s.now } }
  match d.1 with
  | some true =>
    let b := r.bytes seq s.now 0 true
    if s.power.warn.isSome then { s with store := { s.store with held := s.store.held ++ [b] } }
    else { s with store := s.store.logAdd seq b }
  | some false =>
    { s with flt := { s.flt with dropped := satAdd 32 s.flt.dropped 1 } }.orReg Reg.fltStatus 4
  | none => s

/-! ## Requests -/

def State.req? (s : State) (slot : Nat) : Option Req := SMap.find s.reqs slot
def State.setReq (s : State) (slot : Nat) (r : Req) : State := { s with reqs := SMap.put s.reqs slot r }
def State.updReq (s : State) (slot : Nat) (g : Req → Req) : State := { s with reqs := SMap.upd s.reqs slot g }

/-! Header fields (R351). -/
def Req.opc (r : Req) : Nat := Blob.u8 r.desc 0
def Req.hflags (r : Req) : Nat := Blob.u8 r.desc 1
def Req.tenant (r : Req) : Nat := Blob.u16 r.desc 2 % 4096
def Req.tag (r : Req) : Nat := Blob.u32 r.desc 4
def Req.deadline (r : Req) : Nat := Blob.u64 r.desc 8
def Req.objId (r : Req) : Nat := Blob.u32 r.desc 20
def Req.resAddr (r : Req) : Nat := Blob.u64 r.desc 40
def Req.resLen (r : Req) : Nat := Blob.u32 r.desc 48
def Req.compat (r : Req) : Bool := bitN r.hflags 2
def Req.specFlag (r : Req) : Bool := bitN r.hflags 3
/-- Opcodes whose bytes 56–63 name a status block (R352). -/
def hasStatusBlock (opc : Nat) : Bool := [0x13, 0x14, 0x15, 0x22, 0x30].contains opc
def Req.statusAddr (r : Req) : Nat := if hasStatusBlock r.opc then Blob.u64 r.desc 56 else 0
/-- The stream ring of a GENERATE with STREAM (R305). -/
def Req.streamRing (r : Req) : Option Nat :=
  if r.opc = 3 && bitN r.hflags 1 then some (Blob.u32 r.desc 56) else none
/-- The admitting Vestibule: the top bits of the slot (R124); a peer's sub-request stands at 65,536 and above. -/
def slotVest (slot : Nat) : Nat := slot / 16384

/-- The kind code of a step (R124). -/
def Stage.kind : Stage → Nat
  | .tokenise => 1 | .detokenise => 1 | .embed => 2 | .probe => 3 | .scan => 4 | .select => 5 | .refine => 6 | .merge => 7
  | .fetch => 8 | .rerank => 9 | .pack => 10 | .prefill => 11 | .decode => 12 | .checkPass => 12
  | .index => 13 | .gather => 14 | .gradient => 14 | .update => 14 | .load => 0

/-- The 32-bit step ID (R124). -/
def stepIdOf (slot : Nat) (st : Stage) (seq : Nat) : Nat := shl (slot % 65536) 16 + shl st.kind 12 + seq % 4096

/-- Removes the queued and running tasks of a request, counting discarded speculative tasks (R126, R144, R509). -/
def Landing.dropSlot (l : Landing) (slot : Nat) : Landing :=
  let k := fun ts : List Task => ts.filter fun t => t.slot != slot
  { l with lev0 := k l.lev0, lev1 := k l.lev1, lev2 := k l.lev2, lev3 := k l.lev3, spec := k l.spec, redo := k l.redo,
           running := l.running.filter fun x => x.task.slot != slot,
           combine := l.combine.filter fun c => c.slot != slot,
           batch := SMap.mapVals l.batch fun _ ts => k ts }
/-- A landing loses what its store, its Riser array and its Usher hold, and its loans (R442, R471, R480). -/
def Landing.loseStore (l : Landing) : Landing :=
  { l with store := [], resid := [], tile := none, usher := { }, filled := [], loans := [], draining := [], lender := false }
/-- Removes the speculative tasks of a request, running ones among them (R144). -/
def Landing.dropSpec (l : Landing) (slot : Nat) : Landing :=
  let k := fun t : Task => !(t.slot == slot && t.spec)
  { l with spec := l.spec.filter k, running := l.running.filter fun x => k x.task, redo := l.redo.filter k
           combine := l.combine.filter fun c => !(c.slot == slot && c.spec)
           batch := SMap.mapVals l.batch fun _ ts => ts.filter k }

def cntKey (p c : Nat) : Nat := 8 * p + c
/-- Adds to a partition counter, unless frozen (R509, R510). -/
def State.cntPart (s : State) (p c n : Nat) : State :=
  if s.cnt.frozen then s else
  { s with cnt := { s.cnt with part := SMap.put s.cnt.part (cntKey p c) ((SMap.at s.cnt.part (cntKey p c) 0 + n) % 2 ^ 64) } }

/-- Speculative tasks of a request that are queued, batched or run, and those that run. -/
def State.specRuns (s : State) (slot : Nat) : List Task :=
  (s.lands.flatMap fun e => e.2.running.map (·.task)).filter fun t => t.slot == slot && t.spec
def State.specTasks (s : State) (slot : Nat) : List Task :=
  s.specRuns slot ++ ((s.lands.flatMap fun e => e.2.spec ++ e.2.batch.flatMap Prod.snd) ++ s.parts.flatMap fun e => e.2.backlog).filter fun t => t.slot == slot && t.spec

/-- Granules of the scratch that a request keeps: one for each scored pair, one for the draft rows of its decode step (R141; log entry 36). -/
def Req.scratchKept (r : Req) : Nat := r.xs.specDone.length + b2n (!r.xs.gen.draft.isEmpty)

/-- Discards the speculation of a request: unfinished tasks and what finished ones left. Its scratch is freed at the next boundary (R144, R509). -/
def State.dropSpec (s : State) (slot : Nat) : State :=
  match s.req? slot with
  | none => s
  | some r =>
    let pairs := fun ts : List Task => (ts.filter fun t => t.pair.isSome).length
    let n := pairs (s.specTasks slot) + (if r.xs.specOk then 0 else r.xs.specDone.length) + r.xs.gen.draft.length
    let freed := pairs (s.specRuns slot) + r.scratchKept
    let s := { s with
      lands := SMap.mapVals s.lands fun _ l => l.dropSpec slot
      parts := SMap.mapVals s.parts fun p q =>
        { q with backlog := q.backlog.filter fun t => !(t.slot == slot && t.spec), freeing := if p = r.part then q.freeing + freed else q.freeing }
      reqs := SMap.put s.reqs slot { r with xs := { r.xs with specDone := [], gen := { r.xs.gen with draft := [] } } } }
    if n = 0 then s else s.cntPart r.part 7 n

/-- The Arcade engine of a Vestibule runs up to 16 steps; the others queue in release order (R163). -/
def Arcade.pull (a : Arcade) : Arcade := { busy := a.busy ++ a.queue.take (16 - a.busy.length), queue := a.queue.drop (16 - a.busy.length) }
def Arcade.leave (a : Arcade) (slot : Nat) : Arcade := ({ busy := a.busy.erase slot, queue := a.queue.erase slot } : Arcade).pull
def State.arcade (s : State) (slot : Nat) : Arcade := SMap.at s.arcades (slotVest slot) {}
def State.arcadeStart (s : State) (slot : Nat) : State :=
  { s with arcades := SMap.put s.arcades (slotVest slot) ({ s.arcade slot with queue := (s.arcade slot).queue ++ [slot] } : Arcade).pull }
def State.arcadeLeave (s : State) (slot : Nat) : State := { s with arcades := SMap.mapVals s.arcades fun _ a => a.leave slot }

/-- A request's tasks and its Arcade step stop; its speculation is discarded. -/
def State.dropTasks (s : State) (slot : Nat) : State :=
  let s := (s.dropSpec slot).arcadeLeave slot
  { s with lands := SMap.mapVals s.lands fun _ l => l.dropSlot slot,
           parts := SMap.mapVals s.parts fun _ q => { q with backlog := q.backlog.filter fun t => t.slot != slot } }

/-- Frees an admission slot: its tasks, its session's busy mark, its place as owning job and in the lists of pending cancels. -/
def State.freeSlot (s : State) (slot : Nat) : State :=
  let s := s.dropTasks slot
  { s with
    reqs := (SMap.del s.reqs slot).map fun e => (e.1, { e.2 with cancels := e.2.cancels.filter fun c => c != slot })
    sessions := SMap.mapVals s.sessions fun _ x => if x.busy = some slot then { x with busy := none } else x
    parts := SMap.mapVals s.parts fun _ p => if p.owner = some slot then { p with owner := none } else p }

/-- A request that has run no step: its Balustrade check waits for no Tread boundary (R29). -/
def Req.unrun (r : Req) : Bool :=
  [Phase.waiting, .jobWait, .syncWait, .afterRing, .closing, .cancelling, .unloading].contains r.phase || (r.phase == .ready && r.relAt == 0)
/-- A request that runs no further step goes to its Balustrade step: at the first boundary after the step that it runs, or that it ran last, and at once where it has run none (R29). -/
def Req.halt (r : Req) (now : Nat) : Req :=
  { r with stages := [], cur := none, tasks := [], xs := { r.xs with specDone := [], gen := { r.xs.gen with draft := [] } }
           doneAt := if r.phase = .running then now else r.doneAt
           phase := if r.phase = .running || (r.phase = .ready && r.relAt != 0) then .ready else .balustrade }

/-- Ends a request with a status: no further step, tasks removed; the Balustrade decides (R126, R355, R440). A result not yet posted gives way; an earlier such ending and an update whose commit record is written stand (R193). -/
def State.endReq (s : State) (slot status : Nat) : State :=
  match s.req? slot with
  | none => s
  | some r =>
    if r.phase = .epoch || r.stopped then s else
    let s := s.dropTasks slot
    s.setReq slot { r.halt s.now with ending := some status, stopped := true, passedAt := none, writes := [], count := r.ended, bytes := r.sbBytes }

/-- Sets the doubt mark with cause bits (R433, R435). A request that has passed its final check is never doubted (R428, R440). -/
def State.doubt (s : State) (slot causes stepId : Nat) (record : Nat) : State :=
  match s.req? slot with
  | none => s
  | some r =>
    if r.phase = .epoch || (r.phase = .commit && r.opc != 0x13) then s else
    let first := r.doubt = 0
    let r := { r with doubt := r.doubt ||| causes,
                      doubtRec := if r.doubtRec.isNone then some record else r.doubtRec,
                      doubtStep := if first then stepId else r.doubtStep,
                      stages := [] }
    s.setReq slot (if r.unrun then { r with phase := .balustrade } else if r.phase = .commit then { r with phase := .ready } else r)

/-- The record fields that name a request. -/
def Rec.ofReq (x : Rec) (r : Req) (stepId : Nat) : Rec :=
  { x with part := some r.part, stepId := stepId, tag := r.tag, fn := if r.peer.isNone then some r.fn else none,
           named := true, tenant := some r.tenant }

/-! ## Status blocks -/

/-- Writes a request's status block with a STATE (R359); a doubted request writes none but the final one (R437, R438). -/
def State.statusBlock (s : State) (slot st : Nat) : State :=
  match s.req? slot with
  | none => s
  | some r =>
    if r.statusAddr = 0 || r.suppress || (r.doubt != 0 && st != 3) then s else
    let q := r.sbSeq + 1
    let withheld := st = 3 && (r.doubt != 0 || r.peerLost)
    let b := leBytes 4 r.tag ++ leBytes 1 st ++ leBytes 1 0 ++ leBytes 1 r.opc ++ leBytes 1 0 ++ leBytes 4 q ++ leBytes 4 0
      ++ leBytes 8 s.now ++ leBytes 8 (if withheld then 0 else if st = 3 then r.bytes else r.sbBytes)
      ++ leBytes 8 r.progDone ++ leBytes 8 r.progTotal
      ++ (if r.opc = 0x13 then Blob.slice r.xs.sbExtra 0 12 else zeros 12) ++ leBytes 4 q
    let s := s.setReq slot { r with sbSeq := q }
    s.hostWrite r.fn r.statusAddr b (st != 3)

/-! ## Completion -/

/-- The fields of a completion entry that the ending decides (R356). -/
structure Cpl where
  status : Nat
  flags  : Nat := 0
  count  : Nat := 0
  bytes  : Nat := 0
  b24    : Nat := 0
  handle : Nat := 0
  ext    : Blob := []
deriving DecidableEq, Repr, Inhabited

/-- The 64 bytes of a completion entry with the phase bit at 0 (R356). -/
def Cpl.entry (c : Cpl) (tag ring time : Nat) : Blob :=
  leBytes 4 tag ++ leBytes 1 c.status ++ leBytes 1 (shl ring 1) ++ leBytes 2 c.flags ++ leBytes 4 c.count ++ leBytes 4 c.bytes
    ++ leBytes 8 time ++ leBytes 8 c.b24 ++ leBytes 4 c.handle ++ Blob.slice c.ext 0 28

/-- Writes the completion entry of a request into its completion ring, releasing the reservation and counting the event (R345, R356, R361). -/
def State.postCpl (s : State) (r : Req) (c : Cpl) : State :=
  let s := s.ringPut r.fn r.cq (c.entry r.tag r.ring (r.passedAt.getD s.now))
  let g := s.ring r.fn r.cq
  let s := s.setRing r.fn r.cq { g with reserved := g.reserved - 1 }
  if bitN r.hflags 0 then s.countEvent r.fn g.vector else s

/-- The END record of a stream (R306, R438). -/
def endRecord (r : Req) (status flags : Nat) : Blob :=
  leBytes 4 r.tag ++ leBytes 1 2 ++ leBytes 1 0 ++ leBytes 2 0 ++ leBytes 4 r.stream.seq ++ leBytes 4 r.stream.handed
    ++ leBytes 1 status ++ leBytes 1 0 ++ leBytes 2 flags ++ leBytes 4 r.stream.released ++ zeros 40

/-- The stream ring of a request where it names an enabled ring of kind 3 (R305). -/
def State.streamOf (s : State) (r : Req) : Option Nat :=
  match r.streamRing with
  | some n => if n < 64 && (s.ring r.fn n).live 3 then some n else none
  | none => none

/-- Writes an END record, a counted event (R361). -/
def State.putEnd (s : State) (r : Req) (status flags : Nat) : State :=
  match s.streamOf r with
  | none => s
  | some n =>
    let v := (s.ring r.fn n).vector
    (s.ringPut r.fn n (endRecord r status flags)).countEvent r.fn v

/-- Flags that time decides, up to the Balustrade pass: BROWNOUT_SEEN (R463), HOLDOVER (R410). -/
def State.timeFlags (s : State) (r : Req) : Nat :=
  let open_ := r.passedAt.isNone
  shl (b2n (r.brownout || (open_ && s.power.warn.isSome))) 10 + shl (b2n (r.holdover || (open_ && s.newel.servo != 2))) 11

/-- Whether the stream of a request has no room for its END record: the request then waits (R306). -/
def State.streamBlocked (s : State) (r : Req) : Bool :=
  match s.streamOf r with
  | some n => (s.ring r.fn n).full || (!r.stream.waiting.isEmpty && r.doubt == 0)
  | none => false

/-- Writes the records of a request that wait for a free element, in order (R306). -/
def State.streamFlush : Nat → State → Nat → State
  | 0, s, _ => s
  | k + 1, s, slot =>
    match s.req? slot with
    | none => s
    | some r =>
      match s.streamOf r, r.stream.waiting with
      | some n, e :: rest =>
        let g := s.ring r.fn n
        if g.full || r.doubt != 0 then s else
        let s := (s.ringPut r.fn n e).setReq slot { r with stream := { r.stream with waiting := rest } }
        let s := if g.every then s.countEvent r.fn g.vector else s
        State.streamFlush k s slot
      | _, _ => s

/-- Gives a request's TEXT records to its stream ring, after those that wait (R306). -/
def State.streamPut (s : State) (slot : Nat) (es : List Blob) : State :=
  match s.req? slot with
  | none => s
  | some r =>
    let w := r.stream.waiting ++ es
    State.streamFlush w.length (s.setReq slot { r with stream := { r.stream with waiting := w, seq := r.stream.seq + es.length } }) slot

/-- Starts an exit from Dormant (R473). -/
def State.wakeDormant (s : State) : State :=
  if s.power.dormant && s.power.waking.isNone then { s with power := { s.power with waking := some s.now } } else s

/-- Traffic that wakes the module and ends the idleness that leads to Dormant (R472, R473). -/
def State.rouse (s : State) : State := { s.wakeDormant with power := { s.wakeDormant.power with idleFrom := none } }

/-- The offset buffer of TOKENIZE (R164, R438): address and length. -/
def Req.offsetBuffer (r : Req) : List (Nat × Blob) :=
  if r.opc = 4 && bitN (Blob.u8 r.desc 64) 2 then [(Blob.u64 r.desc 72, zeros (Blob.u32 r.desc 80))] else []

/-- Replaces the output of a doubted or peer-lost request (R438, R439, R401). -/
def State.withhold (s : State) (slot : Nat) (r : Req) : State :=
  let status := if r.peerLost && r.doubt &&& (0xFFFFFFFF - 0x80) = 0 then 0x3E else 0x3F
  let flags := s.timeFlags r + (r.flags &&& 0x1000)
  let zero := if r.resLen = 0 then [] else [(r.resAddr, zeros r.resLen)]
  let s := s.hostWrites r.fn (zero ++ r.offsetBuffer)
  let s := s.putEnd r status flags
  let s := s.statusBlock slot 3
  let ext := leBytes 4 (r.doubt ||| (if r.peerLost then 0x80 else 0)) ++ leBytes 4 (r.doubtRec.getD 0) ++ leBytes 4 r.doubtStep ++ zeros 16
  let s := s.postCpl r { status := status, flags := flags, handle := r.handle, ext := ext }
  { s with flt := { s.flt with withheld := satAdd 64 s.flt.withheld 1 } }.orReg Reg.fltStatus 5

/-- Posts the completion of an undoubted request after its result writes (R338, R356). -/
def State.complete (s : State) (slot : Nat) (r : Req) : State :=
  let status := r.ending.getD 0
  let flags := s.timeFlags r + r.flags
  let s := s.hostWrites r.fn r.writes
  let s := s.putEnd r status flags
  let s := s.statusBlock slot 3
  s.postCpl r { status := status, flags := flags, count := r.count, bytes := r.bytes, b24 := r.epoch, handle := r.handle, ext := r.ext }

/-- The final check of the Balustrade and the completion (R437 to R440): suppressed requests write nothing (R381). -/
def State.finish (s : State) (slot : Nat) : State :=
  match s.req? slot with
  | none => s
  | some r =>
    if r.suppress || s.inFlr r.fn then s.freeSlot slot
    else if r.peer.isSome then s.freeSlot slot
    else if s.streamBlocked r then s.setReq slot { r with phase := .balustrade }
    else if r.doubt != 0 || r.peerLost then (s.withhold slot r).freeSlot slot
    else (s.complete slot r).freeSlot slot

end Sys2Proof.Machine
end

