-- ==== Sys2Proof/Machine/Approx.lean ====
section
/-! DEFINITION. The exact special functions of R71 in fixed point, to hundreds of bits: what the accuracy bounds of the special-function unit are measured against (R71, R72, R88). -/

namespace Sys2Proof.Machine

open Sys2Proof

namespace Approx

/-- Fraction bits of a fixed-point value; an approximation here errs by far less than 2^-60 of its last FP32 place (log entry 54). -/
def P : Nat := 512
def unit : Int := 2 ^ 512
/-- ln 2, π, 2/√π and √½ in units of 2^-512. -/
def ln2 : Int := 0xb17217f7d1cf79abc9e3b39803f2f6af40f343267298b62d8a0d175b8baafa2be7b876206debac98559552fb4afa1b10ed2eae35c138214427573b291169b825
def pi : Int := 0x3243f6a8885a308d313198a2e03707344a4093822299f31d0082efa98ec4e6c89452821e638d01377be5466cf34e90c6cc0ac29b7c97c50dd3f84d5b5b5470917
def twoRootPi : Int := 0x120dd750429b6d11ae3a914fed7fd8688281341d7587cea2e7342b06199cc416180eb39f0b24e1e2281806c12d98f35d77a3e9ddc91c394f0e9eedf0efffd84a2
def rootHalf : Int := 0xb504f333f9de6484597d89b3754abe9f1d6f60ba893ba84ced17ac85833399154afc83043ab8a2c3a8b1fe6fdc83db390f74a85e439c7b4a780487363dfa2768

/-- An approximation: v × 2^e. -/
abbrev Val := Int × Int

def mulP (a b : Int) : Int := a * b / unit

/-- Sum of a power series: the term of index k becomes the next one by `next`, and enters the sum as `part`. -/
def series (next : Nat → Int → Int) (part : Nat → Int → Int) : Nat → Nat → Int → Int → Int
  | 0, _, _, acc => acc
  | n + 1, k, term, acc => series next part n (k + 1) (next k term) (acc + part k term)

/-- e to a fixed-point power. -/
def exp (x : Int) : Val :=
  let n := x / ln2
  let r := x - n * ln2
  (series (fun k t => mulP t r / (k + 1)) (fun _ t => t) 110 0 unit 0, n - 512)

/-- The value of v × 2^e in units of 2^-512. -/
def fix (v : Val) : Int := if 0 ≤ v.2 + 512 then v.1 * 2 ^ (v.2 + 512).toNat else v.1 / 2 ^ (-(v.2 + 512)).toNat

def exp2 (x : Int) : Val :=
  let n := x / unit
  let r := mulP (x - n * unit) ln2
  ((exp r).1 * 2 ^ (max 0 ((exp r).2 + 512)).toNat, n - 512)

/-- ln of z in units of 2^-512, for z from 1 to 2, by the series of the inverse hyperbolic tangent. -/
def ln (z : Int) : Int :=
  let y := (z - unit) * unit / (z + unit)
  let y2 := mulP y y
  2 * series (fun _ t => mulP t y2) (fun k t => t / (2 * k + 1)) 170 0 y 0

/-- Sine of a fixed-point angle (or cosine, with odd = 0) by its Taylor series. -/
def circ (odd : Nat) (r : Int) : Int :=
  let r2 := mulP r r
  series (fun k t => -(mulP t r2) / ((2 * k + 1 + odd) * (2 * k + 2 + odd))) (fun _ t => t) 90 0 (if odd = 1 then r else unit) 0

/-- 1 / (1 + e^-x). -/
def sigmoid (x : Int) : Val :=
  let e := exp (if 0 ≤ x then -x else x)
  let den := unit + fix e
  if 0 ≤ x then (unit * unit / den, -512) else (e.1 * unit / den, e.2)

/-- erf of a fixed-point value of magnitude below 11. -/
def erf (x : Int) : Int :=
  let x2 := mulP x x
  mulP twoRootPi (series (fun k t => -(mulP t x2) / (k + 1)) (fun k t => t / (2 * k + 1)) 720 0 x 0)

def tanh (x : Int) : Val :=
  let a := fix (exp (2 * x.natAbs))
  let v := (a - unit) * unit / (a + unit)
  (if x < 0 then -v else v, -512)

/-- Integer square root by bits, of a number below 4^n. -/
def isqrt : Nat → Nat → Nat
  | 0, _ => 0
  | n + 1, x =>
    let r := 2 * isqrt n (x / 4)
    if (r + 1) * (r + 1) ≤ x then r + 1 else r

/-- A value too small for FP32, of either sign. -/
def tiny (s : Bool) : Val := (if s then -1 else 1, -400)

/-- The exact result of a built-in function of R71 at the finite non-zero operand (-1)^s × m × 2^e; one where the function has no real value is not asked for. -/
def func (code : Nat) (s : Bool) (m : Nat) (e : Int) : Val :=
  let sg : Int := if s then -1 else 1
  let x := sg * (fix ((m : Int), e))
  let big := fun k : Int => decide (k * unit < x.natAbs)
  match code with
  | 0x001 => if big 200 then (if s then tiny false else (1, 400)) else exp2 x
  | 0x002 => if big 200 then (if s then tiny false else (1, 400)) else exp x
  | 0x003 =>
    let l := Nat.log2 m
    (ln ((m : Int) * 2 ^ (512 - l)) * unit / ln2 + (e + l) * unit, -512)
  | 0x004 => (sg * (unit / (m : Int)), -e - 512)
  | 0x005 =>
    let m' := if e % 2 = 0 then m else 2 * m
    ((isqrt 514 (2 ^ 1024 / m') : Nat), -(e / 2) - 512)
  | 0x006 =>
    let m' := if e % 2 = 0 then m else 2 * m
    ((isqrt 150 (m' <<< 256) : Nat), e / 2 - 128)
  | 0x007 => let r := circ 1 (x.natAbs % (2 * pi)); (sg * r, -512)
  | 0x008 => (circ 0 (x.natAbs % (2 * pi)), -512)
  | 0x009 => if big 50 then (sg, 0) else tanh x
  | 0x00A => if big 200 then (if s then tiny false else (1, 0)) else sigmoid x
  | 0x00B => if big 6 then (sg, 0) else (erf x, -512)
  | 0x00C => if big 15 then (if s then tiny true else (m, e)) else (sg * m * ((unit + erf (mulP x rootHalf)) / 2), e - 512)
  | 0x00D =>
    if big 20 then (if s then tiny true else (m, e)) else
    let x3 := x * x * x / (unit * unit)
    let g := sigmoid (2 * 79788456 * (x + 44715 * x3 / 1000000) / 100000000)
    (sg * m * g.1, e + g.2)
  | _ => if big 200 then (if s then tiny true else (m, e)) else let g := sigmoid x; (sg * m * g.1, e + g.2)

/-- The exponent of one ulp in the FP32 binade of v × 2^e, 2^-149 for subnormals (R71). -/
def ulpExp (v : Val) : Int := max (v.2 + (if v.1 = 0 then 0 else (Nat.log2 v.1.natAbs : Int) + 1) - 24) (-149)

/-- Whether v × 2^e and w × 2^f lie within k ulp of the first. -/
def within (k : Nat) (v w : Val) : Bool :=
  let u := ulpExp v
  let lo := min (min v.2 w.2) u
  let at_ := fun x : Val => x.1 * 2 ^ (x.2 - lo).toNat
  decide ((at_ v - at_ w).natAbs ≤ k * 2 ^ (u - lo).toNat)

end Approx

end Sys2Proof.Machine
end

