-- ==== Sys2Proof/Machine/Float.lean ====
section
/-! DEFINITION. Binary32 arithmetic, conversions, row reductions, special functions, softmax and normalisation (03_vector_and_special_functions). -/

namespace Sys2Proof.Machine

open Sys2Proof

/-! ## Values (R66) -/

/-- A binary32 operand: NaN, an infinity, or (-1)^s × m × 2^e. -/
inductive Fl where
  | nan
  | inf (s : Bool)
  | fin (s : Bool) (m : Nat) (e : Int)
deriving DecidableEq, Repr, Inhabited

namespace F

def qnan : F32 := 0x7FC00000
def pinf : F32 := 0x7F800000
def ninf : F32 := 0xFF800000
def zero : F32 := 0
def negZero : F32 := 0x80000000
def one : F32 := 0x3F800000

def dec (x : F32) : Fl :=
  let b := x.toNat
  let s := b.testBit 31
  let e : Nat := b / 2 ^ 23 % 256
  let f := b % 2 ^ 23
  if e = 255 then (if f = 0 then .inf s else .nan)
  else if e = 0 then .fin s f (-149)
  else .fin s (f + 2 ^ 23) ((e : Int) - 150)

def infOf (s : Bool) : F32 := if s then ninf else pinf
def zeroOf (s : Bool) : F32 := if s then negZero else zero
def isNan (x : F32) : Bool := dec x == .nan
def isInf (x : F32) : Bool := x == pinf || x == ninf
def isZero (x : F32) : Bool := x.toNat % 2 ^ 31 == 0
def sign (x : F32) : Bool := x.toNat.testBit 31

/-- Bits in a number. -/
def blen (m : Nat) : Nat := if m = 0 then 0 else Nat.log2 m + 1

/-- Rounds m × 2^e, with a set sticky bit for a non-zero amount below its last bit, to a format of p significand bits and least exponent q0: the significand and its exponent (round to nearest even). -/
def rne (p : Nat) (q0 : Int) (m : Nat) (e : Int) (sticky : Bool) : Nat × Int :=
  let q := max (e + blen m - p) q0
  if q ≤ e then (m <<< (e - q).toNat, q)
  else
    let sh := (q - e).toNat
    let k := m >>> sh
    let r := m % 2 ^ sh
    let h := 2 ^ (sh - 1)
    (if h < r || (r == h && (sticky || k % 2 == 1)) then k + 1 else k, q)

/-- The binary32 nearest to (-1)^s × m × 2^e (R66): overflow gives infinity, subnormals stand. -/
def round (s : Bool) (m : Nat) (e : Int) (sticky : Bool := false) : F32 :=
  if m = 0 then zeroOf s else
  let r := rne 24 (-149) m e sticky
  let bits := if r.1 < 2 ^ 23 then r.1 else (r.2 + 149).toNat * 2 ^ 23 + r.1
  if 0x7F800000 ≤ bits then infOf s else BitVec.ofNat 32 (bits + b2n s <<< 31)

/-- A signed significand at exponent e. -/
def sval (s : Bool) (m : Nat) : Int := if s then -(m : Int) else m
/-- Rounds an exact sum v × 2^e: a zero sum has sign z. -/
def roundI (z : Bool) (v : Int) (e : Int) : F32 := if v = 0 then zeroOf z else round (decide (v < 0)) v.natAbs e

/-- Exact sum of two finite values, over their lower exponent. -/
def addFin (s1 : Bool) (m1 : Nat) (e1 : Int) (s2 : Bool) (m2 : Nat) (e2 : Int) : F32 :=
  let e := min e1 e2
  roundI (s1 && s2) (sval s1 (m1 <<< (e1 - e).toNat) + sval s2 (m2 <<< (e2 - e).toNat)) e

def add (a b : F32) : F32 :=
  match dec a, dec b with
  | .nan, _ => qnan
  | _, .nan => qnan
  | .inf s, .inf t => if s = t then infOf s else qnan
  | .inf s, _ => infOf s
  | _, .inf t => infOf t
  | .fin s1 m1 e1, .fin s2 m2 e2 => addFin s1 m1 e1 s2 m2 e2

def neg (a : F32) : F32 := if isNan a then qnan else a ^^^ 0x80000000
def abs (a : F32) : F32 := if isNan a then qnan else a &&& 0x7FFFFFFF
def sub (a b : F32) : F32 := add a (neg b)

def mul (a b : F32) : F32 :=
  match dec a, dec b with
  | .nan, _ => qnan
  | _, .nan => qnan
  | .inf s, .inf t => infOf (s != t)
  | .inf s, .fin t m _ => if m = 0 then qnan else infOf (s != t)
  | .fin s m _, .inf t => if m = 0 then qnan else infOf (s != t)
  | .fin s1 m1 e1, .fin s2 m2 e2 => round (s1 != s2) (m1 * m2) (e1 + e2)

/-- Fused multiply-add a × b + c, rounded once. -/
def fma (a b c : F32) : F32 :=
  match dec a, dec b, dec c with
  | .fin s1 m1 e1, .fin s2 m2 e2, .fin s3 m3 e3 => addFin (s1 != s2) (m1 * m2) (e1 + e2) s3 m3 e3
  | .fin _ _ _, .fin _ _ _, _ => if isNan c then qnan else c
  | _, _, _ => add (mul a b) c

/-- Correctly rounded quotient of two finite values (R71, R77). -/
def divFin (s : Bool) (m1 : Nat) (e1 : Int) (m2 : Nat) (e2 : Int) : F32 :=
  let k := 30 + blen m2
  let n := m1 <<< k
  round s (n / m2) (e1 - e2 - k) (n % m2 != 0)

def div (a b : F32) : F32 :=
  match dec a, dec b with
  | .nan, _ => qnan
  | _, .nan => qnan
  | .inf _, .inf _ => qnan
  | .inf s, .fin t _ _ => infOf (s != t)
  | .fin s _ _, .inf t => zeroOf (s != t)
  | .fin s m1 e1, .fin t m2 e2 =>
    if m2 = 0 then (if m1 = 0 then qnan else infOf (s != t))
    else if m1 = 0 then zeroOf (s != t) else divFin (s != t) m1 e1 m2 e2

def sqrt (a : F32) : F32 :=
  match dec a with
  | .nan => qnan
  | .inf s => if s then qnan else pinf
  | .fin s m e =>
    if m = 0 then a
    else if s then qnan
    else
      -- a root of at least 30 bits, so that rounding sees the sticky remainder of every operand, subnormals among them
      let m' := if e % 2 = 0 then m <<< 60 else m <<< 61
      let e' := if e % 2 = 0 then e - 60 else e - 61
      let r := Approx.isqrt 44 m'
      round false r (e' / 2) (r * r != m')

/-- The correctly rounded reciprocal of a positive number, which FP32 need not hold exactly (R76, R77). -/
def recipNat (n : Nat) : F32 := divFin false 1 0 n 0

/-- A natural number as FP32. -/
def ofNat (n : Nat) : F32 := round false n 0
def ofInt (n : Int) : F32 := roundI false n 0

/-- A key that rises with the value: −0 below +0 (R66). -/
def ordKey (x : F32) : Nat := if sign x then 2 ^ 32 - 1 - x.toNat else x.toNat + 2 ^ 31
/-- a < b as numbers: false for a NaN, and −0 equals +0. -/
def lt (a b : F32) : Bool := !isNan a && !isNan b && !(isZero a && isZero b) && decide (ordKey a < ordKey b)
def minimum (a b : F32) : F32 :=
  if isNan a then (if isNan b then qnan else b) else if isNan b then a else if ordKey a ≤ ordKey b then a else b
def maximum (a b : F32) : F32 :=
  if isNan a then (if isNan b then qnan else b) else if isNan b then a else if ordKey a ≤ ordKey b then b else a

/-! ## Conversions (R67) -/

/-- Rounds a finite value to a format of p significand bits, least exponent q0 and largest magnitude code `top`, bits below the sign. -/
def narrow (p : Nat) (q0 : Int) (m : Nat) (e : Int) : Nat :=
  if m = 0 then 0 else
  let r := rne p q0 m e false
  if r.1 < 2 ^ (p - 1) then r.1 else (r.2 - q0).toNat * 2 ^ (p - 1) + r.1

def toBf16 (x : F32) : BitVec 16 :=
  match dec x with
  | .nan => 0x7FC0
  | .inf s => if s then 0xFF80 else 0x7F80
  | .fin s m e => BitVec.ofNat 16 (min (narrow 8 (-133) m e) 0x7F80 + b2n s <<< 15)
def ofBf16 (x : BitVec 16) : F32 :=
  let v := BitVec.ofNat 32 (x.toNat <<< 16)
  if isNan v then qnan else v

def toE4m3 (x : F32) : Byte :=
  let s := b2n (sign x) <<< 7
  match dec x with
  | .nan => BitVec.ofNat 8 (0x7F + s)
  | .inf _ => BitVec.ofNat 8 (0x7E + s)
  | .fin _ m e => BitVec.ofNat 8 (min (narrow 4 (-9) m e) 0x7E + s)
def ofE4m3 (x : Byte) : F32 :=
  let b := x.toNat
  let s := b.testBit 7
  let e : Nat := b / 8 % 16
  if b % 128 = 0x7F then qnan
  else if e = 0 then round s (b % 8) (-9) else round s (b % 8 + 8) ((e : Int) - 10)

def toE5m2 (x : F32) : Byte :=
  let s := b2n (sign x) <<< 7
  match dec x with
  | .nan => BitVec.ofNat 8 (0x7E + s)
  | .inf _ => BitVec.ofNat 8 (0x7C + s)
  | .fin _ m e => BitVec.ofNat 8 (min (narrow 3 (-16) m e) 0x7C + s)
def ofE5m2 (x : Byte) : F32 :=
  let b := x.toNat
  let s := b.testBit 7
  let e : Nat := b / 4 % 32
  if e = 31 then (if b % 4 = 0 then infOf s else qnan)
  else if e = 0 then round s (b % 4) (-16) else round s (b % 4 + 4) ((e : Int) - 17)

/-- FP32 to INT8 as a signed number, and whether the conversion clipped or met a NaN. -/
def toInt8 (x : F32) : Int × Bool :=
  match dec x with
  | .nan => (0, true)
  | .inf s => (if s then -128 else 127, true)
  | .fin s m e =>
    let k := if 0 ≤ e then m <<< e.toNat else (rne (blen m + 1) 0 m e false).1
    let v := sval s k
    if v < -128 then (-128, true) else if 127 < v then (127, true) else (v, false)
def ofInt8 (b : Byte) : F32 := ofInt b.toInt

/-- E2M1 magnitudes of MXFP4 in units of 2^-1 (R37). -/
def e2m1Half (c : Nat) : Nat := [0, 1, 2, 3, 4, 6, 8, 12].getD (c % 8) 0
/-- An E2M1 element with an E8M0 scale as an exact value: a scale of 0xFF is NaN, and no other is infinite (R37). -/
def mxVal (scale elem : Nat) : Fl :=
  if scale = 255 then .nan else .fin (elem.testBit 3) (e2m1Half elem) ((scale : Int) - 128)
/-- The conversion of an MXFP4 element to FP32 (R67); a product beyond FP32's range becomes an infinity (DEDUCED, log entry 54). -/
def ofMx (scale elem : Nat) : F32 :=
  match mxVal scale elem with
  | .fin s m e => round s m e
  | _ => qnan
/-- The E8M0 scale of a block: 2^(⌊log2 absmax⌋ − 2), 2^−127 for an absmax of 0, 0xFF for a NaN (R67). An infinite absmax takes the scale 254, and the elements of a
NaN block the code 0: R67 states neither (DESIGN CHOICE, log entry 54). -/
def mxScale (xs : List F32) : Nat :=
  if xs.any isNan then 255 else
  let a := xs.foldl (fun a x => maximum a (abs x)) zero
  match dec a with
  | .fin _ 0 _ => 0
  | .fin _ m e => (min 254 (max 0 ((e : Int) + blen m - 1 - 2 + 127))).toNat
  | _ => 254
/-- An element at a scale: its magnitude rounds to nearest even, at most 6. -/
def toMxElem (scale : Nat) (x : F32) : Nat :=
  match dec x with
  | .fin s m e => min (narrow 2 (-1) m (e - ((scale : Int) - 127))) 7 + b2n s <<< 3
  | .inf s => 7 + b2n s <<< 3
  | .nan => 0
/-- An MXFP4 block of 32 values: scale and elements. -/
def toMx (xs : List F32) : Nat × List Nat := let s := mxScale xs; (s, xs.map (toMxElem s))

/-! ## Row reductions (R68, R69, R88) -/

/-- Lane l folds the elements i with i mod lanes = l, in ascending i. -/
def laneFold {α : Type} (lanes : Nat) (fold : α → F32 → α) (identity : α) (xs : List F32) : List α :=
  (List.range lanes).map fun l =>
    (((List.range xs.length).zip xs).filter fun e => e.1 % lanes == l).foldl (fun a e => fold a e.2) identity

/-- One level of the fixed tree: the left operand is the lower lane. -/
def treeLevel {α : Type} (combine : α → α → α) (stride : Nat) (acc : List α) : List α :=
  List.zipWith combine (acc.take stride) (acc.drop stride)

/-- R68 natively, R88 in Rilqua mode: the reduction of one segment. -/
def rowSeg {α : Type} (rilqua : Bool) (fold : α → F32 → α) (combine : α → α → α) (identity : α) (xs : List F32) : α :=
  if rilqua then
    match laneFold 16 fold identity xs with
    | [] => identity
    | a :: r => r.foldl combine a
  else ([32, 16, 8, 4, 2, 1].foldl (fun acc s => treeLevel combine s acc) (laneFold 64 fold identity xs)).headD identity

/-- Pieces of n elements. -/
def chunks {α : Type} (n : Nat) (xs : List α) : List (List α) :=
  (List.range ((xs.length + n - 1) / n)).map fun i => (xs.drop (i * n)).take n

/-- R69: segments of 2^20 elements combine in ascending index. A row above 2^26 elements fails. -/
def rowReduce {α : Type} (rilqua : Bool) (fold : α → F32 → α) (combine : α → α → α) (identity : α) (xs : List F32) : Option α :=
  if 2 ^ 26 < xs.length then none else
  match (chunks (2 ^ 20) xs).map (rowSeg rilqua fold combine identity) with
  | [] => some identity
  | a :: r => some (r.foldl combine a)

def rowSum (rilqua : Bool) (xs : List F32) : F32 := (rowReduce rilqua add add zero xs).getD qnan
/-- Row statistics of R78. -/
def rowAbsmax (rilqua : Bool) (xs : List F32) : F32 := (rowReduce rilqua (fun a x => maximum a (abs x)) maximum ninf xs).getD qnan
def rowSumSq (rilqua : Bool) (xs : List F32) : F32 := rowSum rilqua (xs.map fun x => mul x x)

/-! ## Special functions (R70 to R74, R88) -/

/-- FP32 constants of the exact points. -/
def half : F32 := 0x3F000000

/-- A subnormal becomes a zero of its sign (R88). -/
def flush (rilqua : Bool) (x : F32) : F32 :=
  if rilqua && x.toNat / 2 ^ 23 % 256 == 0 then zeroOf (sign x) else x

/-- The value of an integer FP32, where it is one of magnitude at most 512. -/
def asSmallInt (x : F32) : Option Int :=
  match dec x with
  | .nan => none
  | .inf _ => none
  | .fin s m e =>
    if 0 ≤ e then (if m <<< (min e 16).toNat ≤ 512 then some (sval s (m <<< e.toNat)) else none)
    else if m % 2 ^ (-e).toNat = 0 && m / 2 ^ (-e).toNat ≤ 512 then some (sval s (m / 2 ^ (-e).toNat)) else none

/-- The value whose accuracy is measured: an FP32 as a number, with infinity one binade above the largest. -/
def asVal (x : F32) : Approx.Val :=
  match dec x with
  | .fin s m e => (sval s m, e)
  | .inf s => (if s then -1 else 1, 128)
  | .nan => (0, 0)

/-- Special values of R71, in both modes: NaN, the infinities, the zeros, and operands without a real result. -/
def sfuSpecial (code : Nat) (x : F32) : Option F32 :=
  let s := sign x
  if isNan x then some qnan
  else if isInf x then some (match code with
    | 0x001 | 0x002 => if s then zero else pinf
    | 0x003 => if s then qnan else pinf
    | 0x004 => zeroOf s
    | 0x005 => if s then qnan else zero
    | 0x006 => if s then qnan else pinf
    | 0x009 | 0x00B => one ||| (x &&& 0x80000000)
    | 0x00A => if s then zero else one
    | 0x00C | 0x00D | 0x00E => if s then negZero else pinf
    | _ => qnan)
  else if isZero x then some (match code with
    | 0x001 | 0x002 | 0x008 => one
    | 0x003 => ninf
    | 0x004 | 0x005 => infOf s
    | 0x00A => half
    | 0x006 | 0x007 | 0x009 | 0x00B | 0x00C | 0x00D | 0x00E => x
    | _ => qnan)
  else if s && (code == 0x003 || code == 0x005 || code == 0x006) then some qnan
  else if 1 ≤ code && code ≤ 0x00E then none else some qnan

/-- Exact points and correctly rounded functions of R71, in native mode. -/
def sfuPoint (code : Nat) (x : F32) : Option F32 :=
  match code with
  | 0x001 => (asSmallInt x).bind fun n => if -149 ≤ n ∧ n ≤ 127 then some (round false 1 n) else none
  | 0x003 => match dec x with
      | .fin _ m e => if m = 2 ^ Nat.log2 m then some (ofInt (e + Nat.log2 m)) else none
      | _ => none
  | 0x004 => some (div one x)
  | 0x006 => some (sqrt x)
  | _ => none

/-- A result within k ulp of the exact one: the unit's own bits where they keep the bound, and else the nearest FP32 (R71, R72, R88; log entry 54). -/
def sfuBounded (rev : Nat) (rilqua : Bool) (code k : Nat) (x : F32) : F32 :=
  match dec x with
  | .fin s m e =>
    let v := Approx.func code s m e
    let y := Config.sfuBits rev rilqua code x
    if !isNan y && Approx.within k v (asVal y) then y else roundI false v.1 v.2
  | _ => qnan

/-- A built-in function, a fixed function of the bits, the SFU revision and the mode (R73). Native: the points of R71, and else bits within 2 ulp. Rilqua: the
special values, and else Rilqua's bits, within 3 ulp, for every function, with subnormals flushed (R87, R88; log entry 54). -/
def sfu (rev : Nat) (rilqua : Bool) (code : Nat) (x : F32) : F32 :=
  let x := flush rilqua x
  match sfuSpecial code x with
  | some y => y
  | none =>
    if rilqua then flush true (sfuBounded rev true code 3 x)
    else (sfuPoint code x).getD (sfuBounded rev false code 2 x)

/-- A function code names a built-in (R70). -/
def builtIn (code : Nat) : Bool := decide (1 ≤ code) && decide (code ≤ 0x0E)

/-- The fused gated units of R74, with optional scales. -/
def gated (rev : Nat) (rilqua : Bool) (unit : Nat) (gs us : Option F32) (gate up : F32) : F32 :=
  let g := match gs with | some k => mul gate k | none => gate
  let u := match us with | some k => mul up k | none => up
  mul (sfu rev rilqua (match unit with | 0x20 => 0x0E | 0x21 => 0x0C | _ => 0x0D) g) u

/-- The rotary pair at a position (R72): sin and cos of one FP32 product. -/
def rotary (rev : Nat) (rilqua : Bool) (pos freq : F32) : F32 × F32 :=
  let a := mul pos freq
  (sfu rev rilqua 7 a, sfu rev rilqua 8 a)

/-! ## Softmax and normalisation (R75 to R77) -/

/-- The combine of softmax pairs (m, s). -/
def smCombine (exp : F32 → F32) (a b : F32 × F32) : F32 × F32 :=
  let big := maximum a.1 b.1
  if big = ninf then (ninf, zero) else
  let term := fun p : F32 × F32 => if p.1 = ninf then zero else mul p.2 (exp (sub p.1 big))
  (big, add (term a) (term b))

/-- Softmax of a row with its scale and mask, special rows first (R75, R76). In Rilqua mode 1/c is the reciprocal of that unit (R87). -/
def softmax (rev : Nat) (rilqua : Bool) (scale : F32) (masked : Nat → Bool) (raw : List F32) : List F32 :=
  let exp := sfu rev rilqua 2
  let xs := (List.range raw.length).map fun i => if masked i then ninf else mul (raw.getD i 0) scale
  let c := (xs.filter (· == pinf)).length
  if xs.any isNan then xs.map fun _ => qnan
  else if c != 0 then xs.map fun x => if x = pinf then (if rilqua then sfu rev true 4 (ofNat c) else recipNat c) else zero
  else if xs.all (· == ninf) then xs.map fun _ => zero
  else
    let p := (rowReduce rilqua (fun a x => smCombine exp a (x, one)) (smCombine exp) (ninf, zero) xs).getD (qnan, qnan)
    let r := sfu rev rilqua 4 p.2
    xs.map fun x => mul (exp (sub x p.1)) r

def rmsNorm (rev : Nat) (rilqua : Bool) (eps : F32) (g xs : List F32) : List F32 :=
  let q := recipNat xs.length
  let k := sfu rev rilqua 5 (add (mul (rowSumSq rilqua xs) q) eps)
  if xs.any isNan then xs.map fun _ => qnan else List.zipWith (fun x w => mul (mul x k) w) xs g

def layerNorm (rev : Nat) (rilqua : Bool) (eps : F32) (g b xs : List F32) : List F32 :=
  let q := recipNat xs.length
  let mu := mul (rowSum rilqua xs) q
  let d := xs.map fun x => sub x mu
  let k := sfu rev rilqua 5 (add (mul (rowSumSq rilqua d) q) eps)
  if xs.any isNan then xs.map fun _ => qnan
  else List.zipWith (fun t w => fma t w.1 w.2) (d.map fun x => mul x k) (List.zip g b)

end F

end Sys2Proof.Machine
end

