-- ==== Sys2Proof/Machine/Riser.lean ====
section
/-! DEFINITION. The arithmetic of the Riser array: tile outputs, K-tile folds, residues, tile images (02_landings_and_riser_arrays). -/

namespace Sys2Proof.Machine

open Sys2Proof

namespace Tile

/-- One product of an output: both operands as exact values (R36, R45). -/
abbrev Prod := Fl × Fl

/-- Whether a product is NaN: a NaN operand, or an infinity times zero (R47). -/
def isNan : Prod → Bool
  | (.nan, _) => true
  | (_, .nan) => true
  | (.inf _, .fin _ m _) => m == 0
  | (.fin _ m _, .inf _) => m == 0
  | _ => false

/-- The sign of an infinite product. -/
def infSign : Prod → Option Bool
  | (.inf s, .inf t) => some (s != t)
  | (.inf s, .fin t m _) => if m = 0 then none else some (s != t)
  | (.fin s m _, .inf t) => if m = 0 then none else some (s != t)
  | _ => none

/-- The special outputs, decided before any sum (R47). -/
def special (ps : List Prod) : Option F32 :=
  let infs := ps.filterMap infSign
  if ps.any isNan then some F.qnan
  else if infs.contains true && infs.contains false then some F.qnan
  else match infs with
    | s :: _ => some (F.infOf s)
    | [] => none

/-- A finite product as sign, significand and exponent. -/
def finite : Prod → Option (Bool × Nat × Int)
  | (.fin s m e, .fin t n f) => if m * n = 0 then none else some (s != t, m * n, e + f)
  | _ => none

/-- The exact sum of finite products over a common exponent. -/
def exactSum (ps : List (Bool × Nat × Int)) : Int × Int :=
  match ps with
  | [] => (0, 0)
  | p :: _ =>
    let e := ps.foldl (fun a x => min a x.2.2) p.2.2
    (ps.foldl (fun a x => a + F.sval x.1 (x.2.1 <<< (x.2.2 - e).toNat)) 0, e)

/-- FP8, INT8, MXFP4 and MXFP4-W outputs: the exact sum, rounded once; a zero sum is +0 (R45, R48). -/
def output (ps : List Prod) : F32 :=
  match special ps with
  | some x => x
  | none => let v := exactSum (ps.filterMap finite); F.roundI false v.1 v.2

/-- The exponent of R46: the operands' significands lie in [1, 2), so the product's exponent sums their own. -/
def bfExp : Prod → Int
  | (.fin _ m e, .fin _ n f) => (e + F.blen m - 1) + (f + F.blen n - 1)
  | _ => 0

/-- BF16 outputs: the window of 100 binades below the anchor, with a sticky bit (R46, R48). -/
def bfOutput (ps : List Prod) : F32 :=
  match special ps with
  | some x => x
  | none =>
    let fs := ps.filter fun p => (finite p).isSome
    match fs with
    | [] => F.zero
    | p :: _ =>
      let a := fs.foldl (fun a x => max a (bfExp x)) (bfExp p)
      let inside := fs.filter fun x => decide (a - 100 ≤ bfExp x)
      let v := exactSum (inside.filterMap finite)
      if v.1 = 0 then F.zero else F.round (decide (v.1 < 0)) v.1.natAbs v.2 (inside.length != fs.length)

/-- The fold of K-tile or N-tile partials in ascending index (R49, R52). -/
def fold : List F32 → F32
  | [] => F.zero
  | p :: r => r.foldl F.add p

/-- BF16 dot product of two rows in K-tiles of 256, folded under R49. -/
def bfDot (w x : List F32) : F32 :=
  fold ((F.chunks 256 (List.zip w x)).map fun c => bfOutput (c.map fun p => (F.dec p.1, F.dec p.2)))

/-- FP8 dot product over N-tiles of 32 (transposed mode, R34, R52). -/
def dot32 (out : List Prod → F32) (w x : List F32) : F32 :=
  fold ((F.chunks 32 (List.zip w x)).map fun c => out (c.map fun p => (F.dec p.1, F.dec p.2)))

/-! ## Operands (R35 to R37) -/

/-- The finite value of a raw significand, so that its residue is that of the stored significand with its hidden bit (R55). -/
def e4m3 (b : Nat) : Fl :=
  if b % 128 = 0x7F then .nan
  else if b / 8 % 16 = 0 then .fin (b.testBit 7) (b % 8) (-9) else .fin (b.testBit 7) (b % 8 + 8) ((b / 8 % 16 : Nat) - 10)
def e5m2 (b : Nat) : Fl :=
  if b / 4 % 32 = 31 then (if b % 4 = 0 then .inf (b.testBit 7) else .nan)
  else if b / 4 % 32 = 0 then .fin (b.testBit 7) (b % 4) (-16) else .fin (b.testBit 7) (b % 4 + 4) ((b / 4 % 32 : Nat) - 17)
def bf16 (b : Nat) : Fl :=
  if b / 128 % 256 = 255 then (if b % 128 = 0 then .inf (b.testBit 15) else .nan)
  else if b / 128 % 256 = 0 then .fin (b.testBit 15) (b % 128) (-133) else .fin (b.testBit 15) (b % 128 + 128) ((b / 128 % 256 : Nat) - 134)
def int8 (b : Nat) : Fl := .fin (b.testBit 7) (if b.testBit 7 then 256 - b % 256 else b % 256) 0
/-- An E2M1 element without its scale: it has neither infinity nor NaN (R37). -/
def e2m1 (c : Nat) : Fl :=
  let s := c.testBit 3
  if c / 2 % 4 = 0 then .fin s (c % 2) (-1) else .fin s (c % 2 + 2) ((c / 2 % 4 : Nat) - 2)

/-- An operand with its block scale, as an exact value (R37, R45). -/
def scaled (x : Fl) (scale : Nat) : Fl :=
  if scale = 255 then .nan else match x with | .fin s m e => .fin s m (e + scale - 127) | y => y

/-- The pairings that allow 2:4 weights (R35). -/
def Kind.ok (k : Kind) : Bool := !k.sparse || k.pair == .fp8 || k.pair == .int8 || k.pair == .mxfp4

/-- Logical K of a tile, bytes of its image, bytes of an activation vector, cycles a vector (R38). -/
def Kind.extent (k : Kind) : Nat :=
  match k.pair, k.sparse with
  | .mxfp4, true => 1024 | .mxfp4, false => 512 | .fp8, true => 512 | .int8, true => 512 | _, _ => 256
def Kind.imageBytes (k : Kind) : Nat :=
  match k.pair, k.sparse with
  | .mxfp4, true => 13312 | .mxfp4, false => 8704 | .mxfp4w, _ => 4352 | .bf16, _ => 16384 | _, true => 10240 | _, false => 8192
def Kind.actBytes (k : Kind) : Nat :=
  match k.pair, k.sparse with
  | .mxfp4, true => 544 | .mxfp4, false => 272 | .bf16, _ => 512 | _, true => 512 | _, _ => 256
def Kind.cycles (k : Kind) : Nat := if k.pair == .bf16 then 2 else 1

/-! ## Tile images (R39, R40) -/

/-- A nibble: the low one of its byte for an even number. -/
def nibbleAt (img : Blob) (byte i : Nat) : Nat := Blob.u8 img byte >>> (4 * (i % 2)) &&& 15
/-- A 2:4 metadata nibble is valid when i0 < i1 (R40). -/
def nibbleOk (n : Nat) : Bool := decide (n % 4 < n / 4 % 4)
/-- The metadata nibble of group g of column n (R39). -/
def metaAt (img : Blob) (g n : Nat) : Nat := nibbleAt img (8192 + (g >>> 1) * 32 + n) g
/-- The stored slot that holds logical position k of column n, none where the position is a zero of its group (R40); a dense image stores every position. -/
def Kind.slot (kind : Kind) (img : Blob) (k n : Nat) : Option Nat :=
  if !kind.sparse then some k else
  let m := metaAt img (k / 4) n
  if k % 4 = m % 4 then some (k / 4 * 2) else if k % 4 = m / 4 % 4 then some (k / 4 * 2 + 1) else none
/-- The place of a stored element in units of half a byte: elements of four bits lie two to a byte (R39). -/
def Kind.place (kind : Kind) (j n : Nat) : Nat :=
  match kind.pair with
  | .bf16 => 4 * (j * 32 + n)
  | .fp8 | .int8 => 2 * (j * 32 + n)
  | .mxfp4 | .mxfp4w => 2 * ((j >>> 1) * 32 + n) + j % 2
/-- The raw operand at a half-byte place. -/
def Kind.raw (kind : Kind) (weight : Bool) (img : Blob) (at_ : Nat) : Fl :=
  match kind.pair with
  | .bf16 => bf16 (Blob.u16 img (at_ / 2))
  | .int8 => int8 (Blob.u8 img (at_ / 2))
  | .fp8 => (if (if weight then kind.wE5 else kind.aE5) then e5m2 else e4m3) (Blob.u8 img (at_ / 2))
  | .mxfp4 => e2m1 (nibbleAt img (at_ / 2) at_)
  | .mxfp4w => if weight then e2m1 (nibbleAt img (at_ / 2) at_) else (if kind.aE5 then e5m2 else e4m3) (Blob.u8 img (at_ / 2))
/-- The byte of the block scale of logical position k of column n, where the kind has scales (R39). -/
def Kind.scaleByte (kind : Kind) (k n : Nat) : Option Nat :=
  match kind.pair with
  | .mxfp4 => some ((if kind.sparse then 12288 else 8192) + (k >>> 5) * 32 + n)
  | .mxfp4w => some (4096 + (k >>> 5) * 32 + n)
  | _ => none
/-- The raw weight and the block scale of logical position (k, n): a position that is not stored is zero (R40). -/
def Kind.weight (kind : Kind) (img : Blob) (k n : Nat) : Fl × Option Nat :=
  ((kind.slot img k n).elim (.fin false 0 0) fun j => kind.raw true img (kind.place j n), (kind.scaleByte k n).map (Blob.u8 img))
/-- The place of activation element i of a vector, in half bytes; an MXFP4 vector holds its elements and then its block scales (DESIGN CHOICE, log entry 55). -/
def Kind.actPlace (kind : Kind) (i : Nat) : Nat := match kind.pair with | .bf16 => 4 * i | .mxfp4 => i | _ => 2 * i
/-- The raw activation element i of a vector of n, and its block scale. -/
def Kind.act (kind : Kind) (vec : Blob) (n i : Nat) : Fl × Option Nat :=
  (kind.raw false vec (kind.actPlace i), if kind.pair == .mxfp4 then some (Blob.u8 vec (n / 2 + i / 32)) else none)

/-- Whether every 2:4 group of a tile image has i0 < i1 (R40). -/
def Kind.groupsOk (kind : Kind) (img : Blob) : Bool :=
  !kind.sparse || (List.range (kind.extent / 4)).all fun g => (List.range 32).all fun n => nibbleOk (metaAt img g n)

/-! ## One output (R45 to R48) -/

/-- An operand of an output: the raw value, its block scale, and the residue that stands beside it. -/
structure Opnd where
  val   : Fl := .nan
  scale : Option Nat := none
  res   : Nat := 0
deriving DecidableEq, Repr, Inhabited

def Opnd.exact (x : Opnd) : Fl := match x.scale with | some k => scaled x.val k | none => x.val

/-- The integer sum of one MXFP4 block in units of 2^-2, and the exponent of the product of its two scales (R45). -/
def mxBlock (ps : List (Opnd × Opnd)) : Bool × Nat × Int :=
  let v := (ps.filterMap fun p => finite (p.1.val, p.2.val)).foldl (fun a x => a + F.sval x.1 (x.2.1 <<< (x.2.2 + 2).toNat)) (0 : Int)
  let e := match ps with | p :: _ => ((p.1.scale.getD 127 : Nat) : Int) - 127 + ((p.2.scale.getD 127 : Nat) - 127) | [] => 0
  (decide (v < 0), v.natAbs, e - 2)

/-- A tile output from the operands of its products: blocks of 32 under MXFP4 (R45), the window of R46 under BF16, and else the exact sum; NaN and infinities first (R47). -/
def Kind.result (kind : Kind) (ps : List (Opnd × Opnd)) : F32 :=
  let xs := ps.map fun p => (p.1.exact, p.2.exact)
  match kind.pair, special xs with
  | _, some x => x
  | .bf16, none => bfOutput xs
  | .mxfp4, none => let v := exactSum ((F.chunks 32 ps).map mxBlock); F.roundI false v.1 v.2
  | _, none => output xs

/-! ## Residues (R55, R56) -/

/-- The residue of an operand: its significand modulo 7, an INT8 value's as a two's-complement number (R55). -/
def residue (k : Pairing) : Fl → Nat
  | .fin s m _ => if k == .int8 && s then (7 - m % 7) % 7 else m % 7
  | _ => 0

/-- 2^i modulo 7. -/
def pow2mod7 (i : Nat) : Nat := [1, 2, 4].getD (i % 3) 1

/-- The products counted in an accumulator, with the position of each product's lowest bit: without those of the BF16 sticky bit (R56). -/
def counted (kind : Kind) (ps : List (Opnd × Opnd)) : List ((Opnd × Opnd) × Bool × Nat × Int) :=
  let xs := ps.filterMap fun p => (finite (p.1.val, p.2.val)).map fun x => (p, x)
  match kind.pair, xs with
  | .bf16, x :: _ =>
    let top := fun y : (Opnd × Opnd) × Bool × Nat × Int => bfExp (y.1.1.val, y.1.2.val)
    let a := xs.foldl (fun a y => max a (top y)) (top x)
    xs.filter fun y => decide (a - 100 ≤ top y)
  | _, _ => xs

/-- The residue an accumulator must have, and the one it has: every product enters with the residues beside its operands. A product of a negative sign enters negated, since R55's
significands carry no sign (DEDUCED, log entry 55); INT8 residues carry theirs. -/
def residues (kind : Kind) (ps : List (Opnd × Opnd)) : Nat × Nat :=
  let xs := counted kind ps
  let lo := match xs with | [] => 0 | x :: _ => xs.foldl (fun a y => min a y.2.2.2) x.2.2.2
  let sum := xs.foldl (fun a x => a + F.sval x.2.1 (x.2.2.1 <<< (x.2.2.2 - lo).toNat)) (0 : Int)
  let want := xs.foldl (fun a x =>
    let r := x.1.1.res * x.1.2.res * pow2mod7 (x.2.2.2 - lo).toNat % 7
    (a + (if x.2.1 && kind.pair != .int8 then 7 - r else r)) % 7) 0
  (want, (sum % 7).toNat)

/-- The residue check of an output: none when it passes or is not made, and else the expected and the found residue; under MXFP4 it runs on each block (R56). -/
def Kind.mismatch (kind : Kind) (ps : List (Opnd × Opnd)) : Option (Nat × Nat) :=
  if (special (ps.map fun p => (p.1.exact, p.2.exact))).isSome then none else
  ((if kind.pair == .mxfp4 then F.chunks 32 ps else [ps]).map (residues kind)).find? fun r => r.1 != r.2

/-- The check of one addition of the combine fold, on its aligned significands (R56). -/
def foldOk (a b : F32) : Bool :=
  match F.dec a, F.dec b with
  | .fin s m e, .fin t n f =>
    let lo := min e f
    let r := fun (s : Bool) (m : Nat) (k : Int) => (F.sval s (m % 7 * pow2mod7 (k - lo).toNat)) % 7
    decide ((F.sval s (m <<< (e - lo).toNat) + F.sval t (n <<< (f - lo).toNat)) % 7 = (r s m e + r t n f) % 7)
  | _, _ => true

/-! ## A pass of one tile (R34, R38, R44) -/

/-- The operands of output `o` of one activation vector. Forward: column o against the K-elements of the vector; transposed: row o against its 32 N-elements (R34). Positions at or beyond the step's K, and
columns beyond its N, are padding, which is zero (R44). `wres` and `ares` are the residues beside the image's and the vector's elements, by half-byte place. -/
def Kind.operands (kind : Kind) (transposed : Bool) (ku nu : Nat) (img vec : Blob) (wres ares : Nat → Option Nat) (o : Nat) : List (Opnd × Opnd) :=
  let n := if transposed then 32 else kind.extent
  (List.range n).map fun i =>
    let k := if transposed then o else i
    let c := if transposed then i else o
    let w := if k < ku && c < nu then kind.weight img k c else (.fin false 0 0, none)
    let a := kind.act vec n i
    let wr := ((kind.slot img k c).bind fun j => wres (kind.place j c)).getD (residue kind.pair w.1)
    ({ val := w.1, scale := w.2, res := if k < ku && c < nu then wr else 0 },
     { val := a.1, scale := a.2, res := (ares (kind.actPlace i)).getD (residue (if kind.pair == .mxfp4w then .fp8 else kind.pair) a.1) })

/-- Outputs of one vector: 32 columns in forward mode, the tile's rows in transposed mode; padded ones are not written (R34, R44). -/
def Kind.outputs (kind : Kind) (transposed : Bool) (ku nu : Nat) : Nat := if transposed then min ku kind.extent else min nu 32

end Tile

end Sys2Proof.Machine
end

