-- ==== Sys2Proof/Machine/Alcove.lean ====
section
/-! DEFINITION. Device memory: Hall dies and pseudo-channels, granules and their allocation, the partition caches' places and eviction, the Alcove caches and pinned regions (04 R95 to R103, 09 R254). -/

namespace Sys2Proof.Machine

open Sys2Proof

/-! ## Hall dies and pseudo-channels (R2, R15, R102) -/

/-- Stacks of the Hall dies below h. -/
def stacksBelow (m : Member) (h : Nat) : Nat := ((List.range h).map m.dieStacks).foldl (· + ·) 0
/-- Hall die that owns the stack of a device address (R2, R15; log entry 31). -/
def dieOfAddr (m : Member) (addr : Nat) : Nat :=
  ((List.range m.halls).find? fun h => decide (addr / 36000000000 < stacksBelow m (h + 1))).getD 0
/-- Alcove die of a Hall die (R15). -/
def alcoveOf (h : Nat) : Nat := h / 2
/-- Hall dies of a partition's landings. -/
def State.partDies (s : State) (p : Nat) : List Nat :=
  (List.range s.member.halls).filter fun h => (List.range 6).any fun w => bitW (s.reg (Reg.partWings p)) (6 * h + w)

/-- The pseudo-channels of a Hall die (R102, R120). -/
def dieChannels (m : Member) (h : Nat) : Nat := if m.halls ≤ h then 0 else 2 ^ (32 * m.dieStacks h) - 1
/-- Pseudo-channels of set s on a Hall die; set 16 holds what no private set holds. -/
def State.pcSet (s : State) (set h : Nat) : Nat :=
  if set < 16 then s.regN (Reg.memPcSet (8 * set + h))
  else (List.range 16).foldl (fun m k => m &&& (2 ^ 64 - 1 - s.regN (Reg.memPcSet (8 * k + h)))) (dieChannels s.member h)

/-- The pseudo-channel that holds byte `off` of an allocation in a set on a Hall die: blocks of 256 bytes rotate in ascending channel order (R103). -/
def State.channelOf (s : State) (set h off : Nat) : Option Nat :=
  let cs := setBitsOf 64 (s.pcSet set h)
  cs[off / 256 % cs.length]?

/-! ## Granules (R103, R447) -/

/-- Bytes of a granule. -/
def granule : Nat := 2097152
/-- The whole granules of a Hall die's device addresses: first, and the one after the last (log entry 58). -/
def granLo (m : Member) (h : Nat) : Nat := (stacksBelow m h * 36000000000 + granule - 1) / granule
def granHi (m : Member) (h : Nat) : Nat := stacksBelow m (h + 1) * 36000000000 / granule

/-- Granules of a run that lie from lo up to and without hi. -/
def runIn (lo hi : Nat) (r : Nat × Nat) : Nat := min hi (r.1 + r.2) - max lo r.1
/-- Runs without the granules of one run. -/
def subRun (g : Runs) (r : Nat × Nat) : Runs :=
  g.flatMap fun x =>
    [(x.1, min x.2 (r.1 - x.1)), (max x.1 (r.1 + r.2), x.1 + x.2 - max x.1 (r.1 + r.2))].filter fun y => y.2 != 0
/-- The first n granules of runs. -/
def takeRuns : Nat → Runs → Runs
  | 0, _ => []
  | _, [] => []
  | n, x :: r => if n ≤ x.2 then [(x.1, n)] else x :: takeRuns (n - x.2) r
def runsLen (g : Runs) : Nat := (g.map Prod.snd).foldl (· + ·) 0
/-- The device address of byte `off` of an allocation, whose granules hold it in the order of its runs. -/
def runAddr : Runs → Nat → Nat
  | [], off => off
  | x :: r, off => if off < x.2 * granule then x.1 * granule + off else runAddr r (off - x.2 * granule)
/-- The offset in an allocation of a device address. -/
def runOff : Runs → Nat → Option Nat
  | [], _ => none
  | x :: r, a =>
    if x.1 * granule ≤ a ∧ a < (x.1 + x.2) * granule then some (a - x.1 * granule) else (runOff r a).map (· + x.2 * granule)

/-- The granules that a cache entry's 4 KiB pages touch. -/
def pageRun (page size : Nat) : Nat × Nat := (page / 512, (page * 4096 + max 1 size - 1) / granule + 1 - page / 512)

/-- Every allocation with its set: objects, and reservations and staging of requests; caches apart. -/
def State.allocs (s : State) : List (Nat × Runs) :=
  let o := s.objs
  ((o.models ++ o.sets ++ o.steers ++ o.grammars).map fun e => (e.2.set_, e.2.gran)) ++ (o.indexes.map fun e => (e.2.set_, e.2.gran))
    ++ (o.tables.map fun e => (e.2.set_, e.2.gran)) ++ (s.reqs.map fun e => (e.2.part, e.2.xs.gen.kvGran ++ e.2.xs.tab.gran))
    ++ (s.parts.map fun e => (e.1, e.2.scratch))
/-- Places of the entries of a partition's caches: page and bytes (R253, R265, R272). -/
def State.cachePlaces (s : State) (p : Nat) : List (Nat × Nat) :=
  ((s.objs.caches.filter fun c => c.part == p).map fun c => (c.at_, c.size)) ++ (s.objs.prefs.filter fun e => e.part == p).map fun e => (e.at_, e.size)
/-- The context granules that a partition's cache entries stand in. -/
def State.cacheGranules (s : State) (p : Nat) : List Nat :=
  ((s.cachePlaces p).flatMap fun e => let r := pageRun e.1 e.2; (List.range r.2).map (· + r.1)).eraseDups

/-- Granules of a set on a Hall die: 1.125 GB a pseudo-channel (R14, R102). -/
def State.capOn (s : State) (set h : Nat) : Nat := popN 64 (s.pcSet set h) * 1125000000 / granule
/-- Granules that allocations of a set hold on a Hall die, caches apart. -/
def State.heldOn (s : State) (set h : Nat) : Nat :=
  ((s.allocs.filter fun a => a.1 == set).flatMap fun a => a.2.map (runIn (granLo s.member h) (granHi s.member h))).foldl (· + ·) 0
/-- Granules that a set's allocations and caches hold on a Hall die. -/
def State.usedOn (s : State) (set h : Nat) : Nat :=
  s.heldOn set h + ((s.cacheGranules set).filter fun g => decide (granLo s.member h ≤ g) && decide (g < granHi s.member h)).length
/-- Granules of a set that no allocation holds, caches apart: where it is a private set, its context granules (R254). -/
def State.contextOn (s : State) (set h : Nat) : Nat := s.capOn set h - s.heldOn set h
def State.overDies (s : State) (f : Nat → Nat) : Nat := ((List.range s.member.halls).map f).foldl (· + ·) 0
/-- Granules of a set on all Hall dies, those no allocation holds, and those that neither allocations nor caches hold. -/
def State.setGranules (s : State) (set : Nat) : Nat := s.overDies (s.capOn set)
def State.contextGranules (s : State) (set : Nat) : Nat := s.overDies (s.contextOn set)
def State.freeOn (s : State) (set h : Nat) : Nat := s.capOn set h - s.usedOn set h
def State.freeGranules (s : State) (set : Nat) : Nat := s.overDies (s.freeOn set)

/-- Whole granules of a Hall die that nothing holds and that are not retired, ascending (R103, R447). `mine` leaves out the caches of a partition. -/
def State.gaps (s : State) (h : Nat) (mine : Option Nat := none) : Runs :=
  let held := s.allocs.flatMap Prod.snd ++ (((List.range 16).filter fun p => mine != some p).flatMap s.cacheGranules ++ s.flt.retired).map fun g => (g, 1)
  held.foldl subRun [(granLo s.member h, granHi s.member h - granLo s.member h)]

/-- Free granules of a set on one Hall die, lowest first (log entry 58). -/
def State.allocOn (s : State) (set h n : Nat) : Option Runs :=
  let g := takeRuns n (s.gaps h)
  if n ≤ s.freeOn set h && runsLen g == n then some g else none
/-- Demands by Hall die, each met on its die. -/
def State.allocDies (s : State) (set : Nat) (needs : List (Nat × Nat)) : Option Runs :=
  needs.foldl (fun a e => a.bind fun g => (s.allocOn set e.1 e.2).map (g ++ ·)) (some [])
/-- Granules of a set on any Hall die, lowest first. -/
def State.spread (s : State) (set n : Nat) : List (Nat × Nat) :=
  ((List.range s.member.halls).foldl (fun (a : List (Nat × Nat) × Nat) h =>
    let k := min a.2 (min (s.freeOn set h) (runsLen (s.gaps h))); (a.1 ++ [(h, k)], a.2 - k)) ([], n)).1
def State.alloc (s : State) (set n : Nat) : Option Runs :=
  let d := s.spread set n
  if (d.map Prod.snd).foldl (· + ·) 0 = n then s.allocDies set d else none

/-- The set an object goes to: the private set of the one partition of its mask, or set 16 when that set is empty or several use it (R103, R276). -/
def State.objSet (s : State) (p mask : Nat) : Nat := if mask == 2 ^ p && s.setGranules p != 0 then p else 16

/-! ## The speculative scratch (R141, R142) -/

/-- Scratch granules in use: running speculative pairs, what requests keep, and those freed at the next boundary; one granule a task (log entry 36). -/
def State.scratchHeld (s : State) (p : Nat) : Nat :=
  let tasks := (s.partLands p).map fun l => ((s.land l).running.filter fun x => x.task.spec && x.task.pair.isSome).length
  let kept := s.reqs.map fun e => if e.2.part = p then e.2.scratchKept else 0
  (tasks ++ kept).foldl (· + ·) 0 + (s.part p).freeing

/-! ## Places of cache entries (R254) -/

def State.updObjs (s : State) (g : Objs → Objs) : State := { s with objs := g s.objs }

/-- The least recently used of the entries that pass. -/
def oldestOf {α : Type} (used : α → Nat) (l : List α) : Option α :=
  l.foldl (fun b c => match b with | some x => if used c < used x then some c else b | none => some c) none

/-- A place for an entry in context granules: the lowest run of free pages after an entry of the partition or at the start of a gap (log entry 58). -/
def State.cachePlace (s : State) (p size : Nat) : Option Nat :=
  let mine := s.cachePlaces p
  let pages := (max 1 size + 4095) / 4096
  (List.range s.member.halls).findSome? fun h =>
    let gaps := s.gaps h (some p)
    let room := s.contextOn p h
    let starts := gaps.map (fun g => g.1 * 512) ++ (mine.map fun e => e.1 + (max 1 e.2 + 4095) / 4096)
    let ok := fun a =>
      gaps.any (fun g => decide (g.1 * 512 ≤ a) && decide (a + pages ≤ (g.1 + g.2) * 512))
        && mine.all (fun e => decide (a + pages ≤ e.1) || decide (e.1 + (max 1 e.2 + 4095) / 4096 ≤ a))
        && decide (((s.cacheGranules p ++ (let r := pageRun a size; (List.range r.2).map (· + r.1))).eraseDups.filter fun g =>
              decide (granLo s.member h ≤ g) && decide (g < granHi s.member h)).length ≤ room)
    oldestOf id (starts.filter ok)

/-! ## Alcove caches (R96, R97) -/

/-- The ways of a partition in an Alcove die: its mask without the pinned ways, in a die that serves one of its landings (R97). -/
def State.alcMask (s : State) (p a : Nat) : Nat :=
  if (s.partDies p).any fun h => alcoveOf h == a then (s.regN (Reg.memAlcWays p) % 65536) &&& (65535 - s.regN (Reg.memAlcPin a) % 65536) else 0
/-- The key of the set of a line: a way has 524,288 sets, and consecutive lines lie in consecutive sets (log entry 59). -/
def alcKey (a line : Nat) : Nat := 524288 * a + line / 128 % 524288
def State.alcSet (s : State) (k : Nat) : AlcSet := SMap.at s.alc.sets k {}
def State.updAlc (s : State) (g : Alcoves → Alcoves) : State := { s with alc := g s.alc }
def State.setAlcSet (s : State) (k : Nat) (x : AlcSet) : State := s.updAlc fun a => { a with sets := SMap.put a.sets k x }

/-- The way that the pseudo-LRU tree gives among those of a mask: node n has the children 2n and 2n + 1, and its bit n says that the upper half was used longer ago (log entry 59). -/
def plruPick (mask plru : Nat) : Nat :=
  (List.range 4).foldl (fun n d =>
    let w := 2 ^ (3 - d)
    let half := fun c => (mask >>> ((c - 2 ^ (d + 1)) * w)) % 2 ^ w
    if half (2 * n) != 0 && (half (2 * n + 1) == 0 || !plru.testBit n) then 2 * n else 2 * n + 1) 1 - 16
/-- A use of a way turns the nodes on its path away from it. -/
def plruTouch (plru w : Nat) : Nat :=
  (List.range 4).foldl (fun t d => let n := (16 + w) >>> (4 - d); putBits t n n (1 - (16 + w) >>> (3 - d) % 2)) plru

/-- The way of a mask that holds a line. -/
def AlcSet.find (x : AlcSet) (mask line : Nat) : Option Nat :=
  ((x.ways.filter fun e => mask.testBit e.1 && e.2.addr == line).map Prod.fst).head?
/-- Fills a line into a way of a mask (R96). -/
def AlcSet.fill (x : AlcSet) (mask line : Nat) (data : Blob) : AlcSet :=
  let w := plruPick mask x.plru
  { ways := SMap.put x.ways w { addr := line, data := data }, plru := plruTouch x.plru w }

/-- A read of the line of an address for a partition (R96, R97): a hit gives the cached bytes; a miss gives T2's, `t2`, and fills; an empty mask reads uncached. -/
def State.alcRead (s : State) (p addr : Nat) (t2 : Blob) : Blob × State :=
  let line := addr / 128 * 128
  let a := alcoveOf (dieOfAddr s.member line)
  let mask := s.alcMask p a
  if mask = 0 then (t2, s) else
  let k := alcKey a line
  -- a write of an object's bytes, which stand in the object, has invalidated the lines that it changed (R95)
  let x := { s.alcSet k with ways := (s.alcSet k).ways.filter fun e => e.2.addr != line || e.2.data == t2 }
  match x.find mask line with
  | some w => (t2, s.setAlcSet k { x with plru := plruTouch x.plru w })
  | none => (t2, s.setAlcSet k (x.fill mask line t2))

/-- A line leaves every way of its set (R96, R116); a fill of it that is on its way is not installed. -/
def State.alcDrop (s : State) (line : Nat) : State :=
  let k := alcKey (alcoveOf (dieOfAddr s.member line)) line
  s.updAlc fun a => { a with sets := SMap.upd a.sets k fun x => { x with ways := x.ways.filter fun e => e.2.addr != line }
                             fills := a.fills.filter fun f => f.addr != line }

/-- A T2 write; bytes beyond HBM are not written (R341). It allocates no line and invalidates those it touches in every way before it is acknowledged (R95, R96). -/
def State.devWrite (s : State) (a : Nat) (d : Blob) : State :=
  let d := d.take (s.member.hbmBytes - a)
  let n := if d.isEmpty then 0 else (a + d.length - 1) / 128 + 1 - a / 128
  let s := { s with hbm := Memory.writeN s.hbm a d }
  -- sets are listed only where a read has filled them, so an empty cache has nothing to invalidate
  if s.alc.sets.isEmpty && s.alc.fills.isEmpty then s else (List.range n).foldl (fun s i => s.alcDrop ((a / 128 + i) * 128)) s

/-- A prefetch of a line for a partition from a landing: dropped where the line stands in a visible way, is on its way, or has no way to go to. -/
def State.alcPrefetch (s : State) (p land addr : Nat) (t2 : Blob) : State :=
  let line := addr / 128 * 128
  let a := alcoveOf (dieOfAddr s.member line)
  let mask := s.alcMask p a
  if mask = 0 || ((s.alcSet (alcKey a line)).find mask line).isSome || s.alc.fills.any (fun f => f.part == p && f.addr == line) then s
  else s.updAlc fun x => { x with fills := x.fills ++ [{ part := p, land := land, addr := line, data := t2 }] }

/-- Prefetched lines arrive at the Tread boundary (log entry 59). -/
def State.alcArrive (s : State) : State :=
  s.alc.fills.foldl (fun s f =>
    let a := alcoveOf (dieOfAddr s.member f.addr)
    let mask := s.alcMask f.part a
    let k := alcKey a f.addr
    if mask = 0 || ((s.alcSet k).find mask f.addr).isSome then s else s.setAlcSet k ((s.alcSet k).fill mask f.addr f.data))
    (s.updAlc fun x => { x with fills := [] })

/-- Ways that a boundary pins are emptied of cache lines (R98). -/
def State.alcEmpty (s : State) (a ways : Nat) : State :=
  if ways = 0 then s else
  s.updAlc fun x => { x with sets := x.sets.map fun e => if e.1 / 524288 = a then (e.1, { e.2 with ways := e.2.ways.filter fun w => !ways.testBit w.1 }) else e }

/-! ## The T0 share of the stair schedule (R113) -/

/-- Tiles that fit a share of a landing store, in order. -/
def fitTiles (ts : List TileRec) : Nat → List Nat → List Nat
  | _, [] => []
  | room, i :: r => match ts[i]? with
    | some t => if t.kind.imageBytes ≤ room then i :: fitTiles ts (room - t.kind.imageBytes) r else []
    | none => fitTiles ts room r

/-- The dense tiles of a layer of model n fill a landing's store, within T0_SHARE eighths of it. -/
def State.stairFill (s : State) (p n layer l : Nat) : State :=
  let m := SMap.at s.objs.models n {}
  let mine := ((SMap.at m.stair p []).filter fun e => e.layer == layer && e.land == l).map (·.tile)
  s.updLand l fun y =>
    { y with filled := (y.filled.filter fun f => f.1 != n) ++ (fitTiles (Config.imageTiles m.image) (bitsW (s.reg Reg.memStair) 7 4 * 524288) mine).map fun i => (n, i) }
/-- Hall firmware refills the share of a woken landing: the first layer of every resident model (R471; log entry 66). -/
def State.stairRefill (s : State) (l : Nat) : State :=
  match s.landPart l with
  | some p => if !bitW (s.reg Reg.memStair) 0 then s else (s.objs.models.map Prod.fst).foldl (fun s n => s.stairFill p n 0 l) s
  | none => s

/-! ## Pinned regions (R98 to R101, R119) -/

/-- The ways a valid pinned region occupies in an Alcove die. -/
def regionWays (w : Word) : Nat := shl (2 ^ (bitsW w 15 12 + 1) - 1) (bitsW w 11 8)
def regionContent (w : Word) : Nat := bitsW w 23 16
def regionKind (w : Word) : Nat := bitsW w 2 1
def regionBytes (w : Word) : Nat := (bitsW w 15 12 + 1) * 67108864
/-- Valid regions of an Alcove die. -/
def State.regionsOf (s : State) (a : Nat) : List Nat :=
  (List.range 32).filter fun i => bitW (s.reg (Reg.memPinRegion i)) 0 && bitsW (s.reg (Reg.memPinRegion i)) 5 4 == a
def State.usedWays (s : State) (a : Nat) : Nat := (s.regionsOf a).foldl (fun m i => m ||| regionWays (s.reg (Reg.memPinRegion i))) 0
/-- Valid regions of a content. -/
def State.regionsWith (s : State) (content : Nat) : List Nat :=
  (List.range 32).filter fun i => bitW (s.reg (Reg.memPinRegion i)) 0 && regionContent (s.reg (Reg.memPinRegion i)) == content

/-- A window of a memory at another place of another one: the bytes [from, from + n) come to stand at `to`. -/
def Memory.copy (src : Memory) (from_ n : Nat) (dst : Memory) (to_ : Nat) : Memory :=
  (src.filter fun c => decide (from_ ≤ c.1) && decide (c.1 < from_ + n)).foldl (fun m c => Memory.write m (c.1 - from_ + to_) c.2)
    (dst.filter fun c => decide (c.1 < to_) || decide (to_ + n ≤ c.1))

def State.pinMem (s : State) (a : Nat) : Memory := SMap.at s.alc.pins a []
def State.setPinMem (s : State) (a : Nat) (m : Memory) : State := s.updAlc fun x => { x with pins := SMap.put x.pins a m }
/-- The first byte of a region in its Alcove die, and of its active half (R99, R119). -/
def regionBase (w : Word) : Nat := bitsW w 11 8 * 67108864
def halfBase (w : Word) (active : Bool) : Nat :=
  if regionKind w = 1 && bitW w 24 == active then regionBytes w / 2 else 0
/-- The T2 source copy of a region. -/
def regionSrc (w : Word) : Nat := bitsW w 63 32 * 4096
/-- Bytes of a region as a newly released step reads them: those of the active half under DOUBLE. -/
def State.regionRead (s : State) (i off n : Nat) : Blob :=
  let w := s.reg (Reg.memPinRegion i)
  Memory.readN (s.pinMem (bitsW w 5 4)) (regionBase w + halfBase w true + off) n

/-- Firmware writes bytes of a region: the source copy in T2 first, then the region (R101). -/
def State.regionWrite (s : State) (i off : Nat) (d : Blob) : State :=
  let w := s.reg (Reg.memPinRegion i)
  let s := s.devWrite (regionSrc w + off) d
  s.setPinMem (bitsW w 5 4) (Memory.writeN (s.pinMem (bitsW w 5 4)) (regionBase w + off) d)

/-- Firmware reloads a region from its source copy (R101). -/
def State.regionReload (s : State) (i : Nat) : State :=
  let w := s.reg (Reg.memPinRegion i)
  if !bitW w 0 then s else s.setPinMem (bitsW w 5 4) (Memory.copy s.hbm (regionSrc w) (regionBytes w) (s.pinMem (bitsW w 5 4)) (regionBase w))
def State.reloadAll (s : State) : State := (List.range 32).foldl State.regionReload s

/-- A DOUBLE region flips its active half (R99). -/
def State.flipHalf (s : State) (i : Nat) : State :=
  s.setReg (Reg.memPinRegion i) (s.reg (Reg.memPinRegion i) ^^^ 0x1000000)
/-- The offset of the half of a DOUBLE region that firmware may write. -/
def State.idleHalf (s : State) (i : Nat) : Nat := halfBase (s.reg (Reg.memPinRegion i)) false

end Sys2Proof.Machine
end

