-- ==== Sys2Proof/Machine/Rings.lean ====
section
/-! DEFINITION. Doorbells, ring configuration, descriptor reads, status block refresh and interrupt moderation (12_host_rings_and_descriptors). -/

namespace Sys2Proof.Machine

open Sys2Proof

/-- The outcome type of a meaning. -/
abbrev Res := Host.Outcome State Fault Refusal

/-- What the host has made visible in its memory (R348). -/
def State.publish (s : State) (f : Nat) (pub : List HostPub) : State :=
  let m := pub.foldl (fun m p => Memory.writeN m p.addr p.bytes) (s.hostMemOf (fnPort f))
  if pub.isEmpty then s else { s with hostMem := SMap.put s.hostMem (fnPort f) m }

/-- Whether a new host index lies in the span that R347 allows: towards the device index, and for a submission ring one element short of it (R343). -/
def Ring.forward (r : Ring) (i : Nat) : Bool :=
  let room := if r.kind = 1 then (r.dev + r.size - 1 - r.host) % r.size else (r.dev + r.size - r.host) % r.size
  decide (i < r.size) && decide ((i + r.size - r.host) % r.size ≤ room)

/-- The RING_STATUS bits of a doorbell that is ignored (R347, R429), 0 for a valid one. -/
def State.doorbellErr (s : State) (f off size : Nat) (v : Word) : Nat :=
  let n := off / 0x40
  let r := s.ring f n
  let wrongRing := bitsW v 21 16 != n || bitsW v 63 22 != 0 || !r.en || decide (64 ≤ n) || (s.proc (fnPort f)).state == 3
  b2n (size != 8 || off % 0x40 != 0) + 2 * b2n wrongRing + 4 * b2n (r.en && decide (n < 64) && !r.forward (bitsW v 15 0))
    + 64 * b2n (s.inFlr f)

/-- Requests that write to a stream ring, in slot order. -/
def State.streamUsers (s : State) (f n : Nat) : List Nat :=
  SMap.keysOf s.reqs fun _ r => r.fn == f && r.streamRing == some n

/-- A doorbell (R346, R347): ignored and counted, or it replaces the host index. Freed stream elements take the records that wait (R306). -/
def State.doorbell (s : State) (f off size : Nat) (v : Word) : State :=
  let e := s.doorbellErr f off size v
  if e != 0 then
    s.updFn f fun x => { x with status := x.status ||| BitVec.ofNat 64 e, dbErrors := satAdd 32 x.dbErrors 1 }
  else
    let n := off / 0x40
    let r := s.ring f n
    let s := s.setRing f n { r with host := bitsW v 15 0 }
    let s := (s.streamUsers f n).foldl (fun s slot =>
      State.streamFlush (match s.req? slot with | some q => q.stream.waiting.length | none => 0) s slot) s
    if r.kind = 1 then s.wakeDormant else s

/-- DOORBELL_WRITE: `pub` is what the host made visible before (R346 to R348). -/
def execDoorbellWrite (t fn off size : Nat) (value : Word) (pub : List HostPub) (s : State) : Res :=
  let s := (s.advance t).publish fn pub
  .next (if s.reach fn then s.doorbell fn off size value else s)

/-! ## Reading descriptors -/

/-- Whether a barrier wait of this ring holds back later descriptors (R137). -/
def State.ringBarred (s : State) (f n : Nat) : Bool :=
  s.reqs.any fun e => e.2.fn == f && e.2.ring == n && e.2.opc == 0x51 && bitN (Blob.u8 e.2.desc 77) 0

/-- The lowest free admission slot of a Vestibule (R124, R540). -/
def State.freeSlotOf (s : State) (vest : Nat) : Option Nat :=
  let used := SMap.keysOf s.reqs fun k _ => k / 16384 == vest
  ((List.range (used.length + 1)).find? fun i => !used.contains (vest * 16384 + i)).bind fun i =>
    if i < 16384 then some (vest * 16384 + i) else none

/-- Whether the scheduler processor may read a descriptor from a ring (R345, R349, R428, R473). -/
def State.readable (s : State) (f n : Nat) : Bool :=
  let r := s.ring f n
  let c := s.ring f r.cqOf
  s.reach f && decide (n < 64) && !s.inFlr f && s.procRuns (fnPort f) && !s.power.dormant && r.live 1 && !r.halted && r.host != r.dev
    && c.live 2 && decide (0 < c.free) && !s.ringBarred f n && (s.freeSlotOf (fnPort f)).isSome

/-- The rings of a port's functions. -/
def State.portRings (s : State) (v : Nat) : List (Nat × Nat × Ring) :=
  s.fns.flatMap fun e => if fnPort e.1 = v then e.2.rings.map fun g => (e.1, g.1, g.2) else []
/-- The ring that a port's scheduler processor read last. -/
def State.lastRead (s : State) (v : Nat) : Option (Nat × Nat × Ring) :=
  (s.portRings v).foldl (fun b x => match b with | some y => if y.2.2.turn < x.2.2.turn then some x else b | none => if x.2.2.turn = 0 then none else some x) none
/-- How far a ring lies behind another in the round of a port's rings, by function and ring number. -/
def ringDistance (f0 n0 f n : Nat) : Nat := (64 * f + n + 2 ^ 20 - (64 * f0 + n0 + 1)) % 2 ^ 20
/-- A ring's turn lasts WEIGHT + 1 descriptors, at most as long as it can be read (R349). -/
def Ring.inTurn (r : Ring) : Bool := decide (r.taken ≤ bitsW r.cfg 31 28)
/-- Whether it is a ring's turn: the ring read last goes on with its turn, then the next readable one of the port follows (R349; where the first round starts is open, log entry 37). -/
def State.turnOf (s : State) (f n : Nat) : Bool :=
  match s.lastRead (fnPort f) with
  | none => true
  | some (f0, n0, r) =>
    if s.readable f0 n0 && r.inTurn then f == f0 && n == n0
    else (s.portRings (fnPort f)).all fun x => !s.readable x.1 x.2.1 || decide (ringDistance f0 n0 f n ≤ ringDistance f0 n0 x.1 x.2.1)
/-- Whether the scheduler processor reads a descriptor from a ring now. -/
def State.canRead (s : State) (f n : Nat) : Bool := s.readable f n && s.turnOf f n

/-- The next unread descriptor of a ring. -/
def State.nextDesc (s : State) (f n : Nat) : Blob :=
  let r := s.ring f n
  s.hostRead f (r.base.toNat + 256 * r.dev) 256

/-- Takes a descriptor: the device index passes it and a completion entry is reserved (R343, R345). -/
def State.takeDesc (s : State) (f n : Nat) : State :=
  let c := (s.ring f n).cqOf
  let goes := match s.lastRead (fnPort f) with | some (f0, n0, r) => f0 == f && n0 == n && r.inTurn | none => false
  let s := s.ringAdvance f n
  let s := s.setRing f n { s.ring f n with turn := s.nextOrder + 1, taken := if goes then (s.ring f n).taken + 1 else 1 }
  -- the module is not idle (R472)
  let s := { s with power := { s.power with idleFrom := none } }
  s.setRing f c { s.ring f c with reserved := (s.ring f c).reserved + 1 }

/-- DESCRIPTOR_FETCH_ERROR: the ring halts until it is disabled and enabled again (R349). -/
def execDescriptorFetchError (t fn ring : Nat) (s : State) : Res :=
  let s := s.advance t
  if !s.canRead fn ring then .next s else
  let r := s.ring fn ring
  let s := s.setRing fn ring { r with halted := true }
  let s := s.updFn fn fun x => { x with status := setBitW x.status 5 }
  .next (s.emit { kind := 0x0F, sev := 1, site := 8 + fnPort fn, unit := fnPort fn, fn := some fn,
                  addr := r.base.toNat + 256 * r.dev, detail := 1 })

/-! ## Ring configuration -/

/-- Writable bits of RING_CFG (R365). -/
def ringCfgMask : Word := 0xF1FFFDFF

/-- The conditions under which a write that sets EN takes effect (R365). -/
def State.ringCfgOk (s : State) (f n : Nat) (v : Word) : Bool :=
  let kind := bitsW v 3 1
  let r := s.ring f n
  decide (1 ≤ kind) && decide (kind ≤ 4) && decide (4 ≤ bitsW v 8 4) && decide (bitsW v 8 4 ≤ 16) && bitsW r.base 11 0 == 0
    && (kind != 1 || (s.ring f (bitsW v 15 10)).live 2) && decide (bitsW v 23 16 < vecCount f)
    && (kind != 4 || (s.errRing f).isNone)

/-- A write of RING_CFG (R350, R365). -/
def State.ringCfg (s : State) (f n : Nat) (value : Word) : State :=
  let v := value &&& ringCfgMask
  let r := s.ring f n
  let busy := s.updFn f fun x => { x with status := setBitW x.status 3 }
  if r.en then
    if v = r.cfg then s
    else if v != clrBitW r.cfg 0 then busy
    else if r.kind = 2 && r.reserved != 0 then busy
    else if r.kind = 3 && !(s.streamUsers f n).isEmpty then busy
    else s.setRing f n { r with cfg := v }
  else if !bitW v 0 then s.setRing f n { r with cfg := v }
  else if s.ringCfgOk f n v then
    s.setRing f n { r with cfg := v, host := 0, dev := 0, phase := true, halted := false, reserved := 0, missed := 0 }
  else
    (s.setRing f n { r with cfg := clrBitW v 0 }).updFn f fun x => { x with status := setBitW x.status 4 }

/-- RING_CFG_WRITE (R350, R365). -/
def execRingCfgWrite (t fn ring : Nat) (value : Word) (s : State) : Res :=
  let s := s.advance t
  .next (if s.reach fn && decide (ring < 64) then s.ringCfg fn ring value else s)

/-! ## Interrupts -/

/-- Clears a vector's mask; a pending message goes out (R362). -/
def State.unmask (s : State) (f v : Nat) : State :=
  let x := s.vec f v
  let e := x.entry &&& ~~~(1#128 <<< 96)
  let s := s.setVec f v { x with entry := e, pend := false }
  if x.pend then s.send (.msix f v (e.toNat % 2 ^ 64) (e.toNat / 2 ^ 64 % 2 ^ 32)) else s

/-- MSIX_UNMASK (R362). -/
def execMsixUnmask (t fn vec : Nat) (s : State) : Res :=
  let s := s.advance t
  .next (if s.reach fn && decide (vec < vecCount fn) then s.unmask fn vec else s)

/-- IRQ_FORCE: the vector's message at once, closing its window (R366). -/
def execIrqForce (t fn : Nat) (value : Word) (s : State) : Res :=
  let s := s.advance t
  .next (if s.reach fn && decide (bitsW value 8 0 < vecCount fn) then s.sendVec fn (bitsW value 8 0) else s)

/-- MODERATION_COUNT: a window that holds COUNT events sends its message (R362). -/
def execModerationCount (t fn vec : Nat) (s : State) : Res :=
  let s := s.advance t
  let x := s.vec fn vec
  .next (if s.reach fn && x.opened.isSome && decide (x.count ≤ x.events) then s.sendVec fn vec else s)

/-- MODERATION_TIME_EXPIRY: a window whose TIME has run out sends its message (R362). -/
def execModerationTimeExpiry (t fn vec : Nat) (s : State) : Res :=
  let s := s.advance t
  let x := s.vec fn vec
  match x.opened with
  | some o => .next (if s.reach fn && decide (o + 100 * x.time ≤ s.now) then s.sendVec fn vec else s)
  | none => .next s

/-- STATUS_BLOCK_WRITE: the block of a request whose step runs is written with STATE 2 (R359). -/
def execStatusBlockWrite (t slot : Nat) (s : State) : Res :=
  let s := s.advance t
  match s.req? slot with
  | some r => .next (if s.running && r.cur.isSome then s.statusBlock slot 2 else s)
  | none => .next s

end Sys2Proof.Machine
end

