-- ==== Sys2Proof/Machine/Store.lean ====
section
/-! DEFINITION. The persistent store and its configuration banks (18_identity_attestation_and_store, R491 to R500), and what the boot ROM applies at start (R494). -/

namespace Sys2Proof.Machine

open Sys2Proof

/-- Payload length of an entry kind, which is also its default encoding in zeros (R493, R495). -/
def entryLen (kind : Nat) : Nat :=
  match kind with | 1 => 8 | 2 => 8 | 3 => 24 | 4 => 4 | 5 => 64 | _ => 0

/-- The payload of a kind, or its default (R493). -/
def Bank.entry (b : Bank) (kind : Nat) : Blob := SMap.at b.entries kind (zeros (entryLen kind))

/-- The security digest: SM3 over the payloads of kinds 1, 2 and 4 (R495). -/
def Bank.digest (b : Bank) : Blob := sm3 (b.entry 1 ++ b.entry 2 ++ b.entry 4)

/-- An entry's bytes (R492): kind, zero, payload length, and the payload padded to 8 bytes. -/
def entryBytes (kind : Nat) (p : Blob) : Blob := leBytes 1 kind ++ [0#8] ++ leBytes 2 p.length ++ p ++ zeros ((8 - p.length % 8) % 8)
/-- A bank's bytes (R492): the header with its CRC-32C, then the entries in ascending kind order. -/
def Bank.image (b : Bank) : Blob :=
  let es := b.entries.flatMap fun e => entryBytes e.1 e.2
  let first := leBytes 4 0x4C4F5348 ++ leBytes 4 b.seq ++ leBytes 4 es.length
  let rest := b.digest ++ zeros 16
  first ++ leBytes 4 (crc32c (first ++ rest ++ es)).toNat ++ rest ++ es
/-- The entries in the bytes after a header, none where one does not lie within them. -/
def parseEntries : Nat → Blob → Option (SMap Blob)
  | 0, b => if b.isEmpty then some [] else none
  | n + 1, b =>
    if b.isEmpty then some [] else
    let len := Blob.u16 b 2
    let size := 4 + (len + 7) / 8 * 8
    if b.length < size then none else (parseEntries n (b.drop size)).map fun m => SMap.put m (Blob.u8 b 0) (Blob.slice b 4 len)
/-- What valid bank bytes hold (R495): MAGIC, LENGTH within the limit, CRC, the entries within LENGTH, and DIGEST are right. -/
def Bank.parse (b : Blob) : Option Bank :=
  let len := Blob.u32 b 8
  let es := Blob.slice b 64 len
  if Blob.u32 b 0 != 0x4C4F5348 || 4194240 < len || b.length < 64 + len
    || Blob.u32 b 12 != (crc32c (Blob.slice b 0 12 ++ Blob.slice b 16 48 ++ es)).toNat then none else
  (parseEntries len es).bind fun m =>
    let k : Bank := { seq := Blob.u32 b 4, entries := m }
    if k.digest == Blob.slice b 16 32 then some k else none
/-- The valid banks. -/
def Store.a (st : Store) : Option Bank := Bank.parse st.bankA
def Store.b (st : Store) : Option Bank := Bank.parse st.bankB
/-- The floor mirror's bytes, and the floor that they hold where their CRC is right (R496). -/
def mirrorImage (n : Nat) : Blob := leBytes 4 n ++ leBytes 4 (crc32c (leBytes 4 n)).toNat
def Store.mirrorFloor (st : Store) : Option Nat :=
  if st.mirror.length = 8 && Blob.u32 st.mirror 4 == (crc32c (st.mirror.take 4)).toNat then some (Blob.u32 st.mirror 0) else none

/-- SEQ a is newer than b (R496). -/
def seqNewer (a b : Nat) : Bool :=
  let d := (a + 2 ^ 32 - b % 2 ^ 32) % 2 ^ 32
  decide (1 ≤ d) && decide (d ≤ 2 ^ 31 - 1)

/-- The bank chosen at start: some true for B, none when neither is valid (R496). -/
def Store.select (st : Store) : Option Bool :=
  match st.a, st.b with
  | some a, some b => some (seqNewer b.seq a.seq)
  | some _, none => some false
  | none, some _ => some true
  | none, none => none

/-- The active bank, or an empty entry set. -/
def Store.active (st : Store) : Bank :=
  if st.noConfig then {} else if st.activeB then st.b.getD {} else st.a.getD {}

/-- The anti-rollback floor in force: the greater of the active bank's FLOOR and the mirror (R496). -/
def Store.floor (st : Store) : Nat := max (leNat (st.active.entry 4)) (st.mirrorFloor.getD 0)

/-- The highest logged sequence number plus one, in serial order; 0 for an empty log (R452, R500). -/
def Store.nextSeq (st : Store) : Nat :=
  match st.log.getLast? with | some e => (e.1 + 1) % 2 ^ 32 | none => 0

/-- A PORT entry that names an absent port or bifurcation code 3 is treated as absent (R493). -/
def portEntryOk (m : Member) (b : Blob) : Bool :=
  decide (Blob.u8 b 0 % 4 < m.ports) && (List.range 4).all fun i => decide (Blob.u8 b (1 + i) < 3)

/-- What the boot ROM applies at every start (R494, R496, R499, R500, R485): bank choice, PORT, NEWEL, GALLERY, floor, one token, security state. -/
def State.boot (s : State) : State :=
  let sel := s.store.select
  let st := { s.store with activeB := sel.getD false, noConfig := sel.isNone, tokens := 1, next := 0, refused := 0, write := none }
  let b := st.active
  let pe := b.entry 1
  let ok := portEntryOk s.member pe
  let ge := b.entry 2
  let gOn := bitN (Blob.u8 ge 1) 0
  let s := { s with
    store := st
    ownerPort := if ok then Blob.u8 pe 0 % 4 else 0
    bifurc := if ok then (List.range 4).map fun i => Blob.u8 pe (1 + i) else [0, 0, 0, 0]
    gal := { s.gal with enabled := gOn, moduleId := if gOn then Blob.u8 ge 0 % 16 else 0, groupTag := if gOn then Blob.u32 ge 4 else 0 }
    flt := { s.flt with seq := st.nextSeq } }
  let s := match SMap.find b.entries 3 with
    | some ne =>
      let len := Blob.u32 ne 16 % 512
      let s := ((s.setRegN Reg.newelCtrl (Blob.u32 ne 0 &&& 0xF3)).setRegN Reg.newelPtp (Blob.u32 ne 4 &&& 0x0FFF037F)).setRegN
        Reg.newelIp (Blob.u64 ne 8 &&& 0x3FFFFFFFFF)
      if 5 ≤ len && len ≤ 500 then
        { (s.setRegN Reg.newelTread len) with newel := { s.newel with len := 1000 * len, nextB := 1000 * len } }
      else s
    | none => s
  s.setRegN Reg.secState (1 + 2 + (if s.fuses.debugOpen then 0 else 4) + 8)

/-- Newel time of the next token of the configuration-write bucket (R499). -/
def Store.due (st : Store) : Nat := if st.next = 0 then 1800000000000 else st.next

/-- STORE_TOKEN_ADD: every 1,800 s a token is added, at most 4 (R499). -/
def execStoreTokenAdd (t : Nat) (s : State) : Res :=
  let s := s.advance t
  if s.running && decide (s.store.due ≤ s.now) then
    .next { s with store := { s.store with tokens := min 4 (s.store.tokens + 1), next := s.store.due + 1800000000000 } }
  else .next s

/-! ## Admin commands (R363, R424) -/

def Admin.sqOn (a : Admin) : Bool := bitW a.sq 0
def Admin.cqOn (a : Admin) : Bool := bitW a.cq 0
def Admin.sqSize (a : Admin) : Nat := 2 ^ bitsW a.sq 8 4
def Admin.cqSize (a : Admin) : Nat := 2 ^ bitsW a.cq 8 4
def Admin.sqBase (a : Admin) : Nat := shl (bitsW a.sq 39 12) 12
def Admin.cqBase (a : Admin) : Nat := shl (bitsW a.cq 39 12) 12

/-- Whether MFP-0 serves an admin command now: firmware running, its processor running, a command announced and an entry free (R363, R428, R473). Commands run one at a time (R498). -/
def State.adminReady (s : State) : Bool :=
  let a := s.admin
  s.running && s.fw.state == 3 && s.procRuns 4 && !s.power.dormant && s.store.write.isNone && a.sqOn && a.cqOn && a.sqHost != a.sqDev
    && (a.cqDev + 1) % a.cqSize != a.cqHost

/-- The next admin command's 256 bytes, from device memory. -/
def State.adminDesc (s : State) : Blob := Memory.readN s.hbm (s.admin.sqBase + 256 * s.admin.sqDev) 256

def State.adminTake (s : State) : State :=
  { s with admin := { s.admin with sqDev := (s.admin.sqDev + 1) % s.admin.sqSize } }

/-- Posts an admin completion entry with the phase rule of R344. -/
def State.adminPost (s : State) (tag : Nat) (c : Cpl) : State :=
  let a := s.admin
  let e := Blob.patch (c.entry tag 0 s.now) 5 [BitVec.ofNat 8 (b2n a.cqPhase)]
  let s := s.devWrite (a.cqBase + 64 * a.cqDev) e
  let d := (a.cqDev + 1) % a.cqSize
  { s with admin := { s.admin with cqDev := d, cqPhase := if d = 0 then !a.cqPhase else a.cqPhase } }

/-- Header checks of an admin command: reserved header bytes zero, and body bytes zero but for the ranges used (R351, R424). -/
def adminClean (d : Blob) (used : List (Nat × Nat)) : Bool :=
  Blob.u8 d 1 == 0 && Blob.zeroIn d 2 4 && Blob.zeroIn d 8 40 && Blob.zeroIn d 52 64 &&
    (List.range 192).all fun i => used.any (fun u => decide (u.1 ≤ 64 + i) && decide (64 + i < u.2)) || Blob.u8 d (64 + i) == 0

/-- Runs the front admin command where it has this code; a code that no admin command has is refused with DESCRIPTOR_INVALID by any of them (R424). -/
def State.adminRun (s : State) (code : Nat) (body : State → Blob → State) : State :=
  if !s.adminReady then s else
  let d := s.adminDesc
  let c := Blob.u8 d 0
  if c = code then body s.adminTake d
  else if c < 0x81 || 0x87 < c then s.adminTake.adminPost (Blob.u32 d 4) { status := 0x21 }
  else s

/-- ADMIN_DOORBELL: the new SQ producer index and CQ consumer index (R363, R364). -/
def execAdminDoorbell (t fn : Nat) (value : Word) (s : State) : Res :=
  let s := s.advance t
  if !(s.reach fn && s.isOwner fn) then .next s else
  let p := bitsW value 15 0
  let c := bitsW value 31 16
  let s := { s with admin := { s.admin with sqHost := if p < s.admin.sqSize then p else s.admin.sqHost,
                                            cqHost := if c < s.admin.cqSize then c else s.admin.cqHost } }
  .next (if s.admin.sqOn then s.rouse else s)

/-- The word FW_PROC[i] (R431): STATE, RECENT in the 10 s window, RESTARTS. -/
def State.procWord (s : State) (i : Nat) : Nat :=
  let p := s.proc i
  p.state + shl (min 3 (p.expiries.filter fun e => decide (s.now < e + 10000000000)).length) 2 + shl (min 65535 p.restarts) 8

/-- IDENTIFY (R424). -/
def execIdentify (t : Nat) (s : State) : Res :=
  .next ((s.advance t).adminRun 0x81 fun s d =>
    let tag := Blob.u32 d 4
    if !adminClean d [] || decide (Blob.u32 d 48 < 256) then s.adminPost tag { status := 0x21 } else
    let b := leBytes 4 s.fw.release ++ leBytes 4 s.fw.svn ++ leBytes 4 s.fw.ifVer
      ++ (List.range 16).flatMap (fun i => leBytes 4 (s.procWord i)) ++ zeros 180
    (s.devWrite (Blob.u64 d 40) b).adminPost tag { status := 0, count := 1, bytes := 256 })

/-- LOG_READ (R452): logged records from a sequence number on, in sequence order. -/
def execLogRead (t : Nat) (s : State) : Res :=
  .next ((s.advance t).adminRun 0x82 fun s d =>
    let tag := Blob.u32 d 4
    let start := Blob.u32 d 64
    let n := Blob.u32 d 68
    if !adminClean d [(64, 72)] || n = 0 || decide (65536 < n) || decide (Blob.u32 d 48 < 64 * n) then s.adminPost tag { status := 0x21 } else
    let rs := (s.store.log.filter fun e => e.1 == start || seqNewer e.1 start).take n
    let b := rs.flatMap Prod.snd
    (s.devWrite (Blob.u64 d 40) b).adminPost tag { status := 0, count := rs.length, bytes := b.length })

/-- SNAPSHOT_READ (R427). -/
def execSnapshotRead (t : Nat) (s : State) : Res :=
  .next ((s.advance t).adminRun 0x83 fun s d =>
    let tag := Blob.u32 d 4
    let i := Blob.u8 d 64
    let k := Blob.u8 d 65
    if !adminClean d [(64, 66)] || decide (16 ≤ i) || decide (4 ≤ k) || decide (Blob.u32 d 48 < 4096) then s.adminPost tag { status := 0x21 } else
    match (s.proc i).snaps[k]? with
    | some b => (s.devWrite (Blob.u64 d 40) b).adminPost tag { status := 0, count := 1, bytes := 4096 }
    | none => s.adminPost tag { status := 0 })

/-- Begins a configuration write, or refuses it on an empty bucket (R497 to R499). A supply warning defers it (R460). -/
def State.storeBegin (s : State) (w : StoreWrite) : State :=
  if s.store.tokens = 0 then
    let s := { s with store := { s.store with refused := satAdd 32 s.store.refused 1 } }
    s.adminPost w.tag { status := 0x23, ext := zeros 4 ++ leBytes 4 3 ++ leBytes 8 s.store.due ++ zeros 12 }
  else
    let wait := s.power.warn.isSome
    let s := { s with store := { s.store with tokens := s.store.tokens - 1, write := some { w with waiting := wait } } }
    if wait then s.orReg Reg.pwrStatus 3 else s

/-- STORE_WRITE (R498, R499): kinds 1, 2, 3 and 5; kind 4 is not permitted. -/
def execStoreWrite (t : Nat) (s : State) : Res :=
  .next ((s.advance t).adminRun 0x84 fun s d =>
    let tag := Blob.u32 d 4
    let kind := Blob.u8 d 64
    let n := Blob.u16 d 66
    if !adminClean d [(64, 65), (66, 68), (72, 136)] then s.adminPost tag { status := 0x21 }
    else if kind = 4 then s.adminPost tag { status := 0x23 }
    else if !([1, 2, 3, 5].contains kind) || n != entryLen kind || !Blob.zeroIn d (72 + n) 136 then s.adminPost tag { status := 0x21 }
    else s.storeBegin { kind := kind, payload := Blob.slice d 72 n, tag := tag })

/-- RAISE_FLOOR (R423): no effect where the floor is at or above the running SVN. -/
def execRaiseFloor (t : Nat) (s : State) : Res :=
  .next ((s.advance t).adminRun 0x86 fun s d =>
    let tag := Blob.u32 d 4
    if !adminClean d [] then s.adminPost tag { status := 0x21 }
    else if s.fw.svn ≤ s.store.floor then s.adminPost tag { status := 0 }
    else s.storeBegin { kind := 4, payload := leBytes 4 s.fw.svn, raise := true, tag := tag })

/-- The entry set that a write makes: the active bank's with one entry replaced, and the next SEQ (R497). -/
def Store.written (st : Store) (w : StoreWrite) : Bank :=
  { seq := (st.active.seq + 1) % 2 ^ 32, entries := SMap.put st.active.entries w.kind w.payload }
/-- The store with a write finished: the inactive bank holds the new entry set and becomes active (R497); RAISE_FLOOR then writes the mirror (R498). -/
def Store.finishWrite (st : Store) (w : StoreWrite) : Store :=
  let new := (st.written w).image
  let toB := !st.activeB
  let st := if toB then { st with bankB := new, activeB := true, erasesB := st.erasesB + 1 }
            else { st with bankA := new, activeB := false, erasesA := st.erasesA + 1 }
  { st with noConfig := false, write := none, mirror := if w.raise then mirrorImage (leNat w.payload) else st.mirror }

/-- The store with a write whose read-back failed: the bank written is invalid, the old one stays active (R497). -/
def Store.failWrite (st : Store) : Store :=
  let toB := !st.activeB
  if toB then { st with bankB := [], erasesB := st.erasesB + 1, write := none }
  else { st with bankA := [], erasesA := st.erasesA + 1, write := none }

/-- CONFIG_WRITE_COMPLETE (R497, R498): the bank written is read back and checked before it becomes active. A write that waits out a supply warning does not complete (R461). -/
def execConfigWriteComplete (t : Nat) (readBackOk : Bool) (s : State) : Res :=
  let s := s.advance t
  match s.store.write with
  | none => .next s
  | some w =>
    if w.waiting || !s.running || !s.procRuns 4 then .next s
    else if readBackOk && (Bank.parse (s.store.written w).image).isSome then
      let s := { s with store := s.store.finishWrite w }
      .next (s.adminPost w.tag { status := 0, ext := leBytes 4 s.store.active.seq })
    else
      let s := { s with store := s.store.failWrite }
      .next (s.adminPost w.tag { status := 0x21, ext := zeros 4 ++ leBytes 4 2 })

end Sys2Proof.Machine
end

