-- ==== Sys2Proof/Machine/Firmware.lean ====
section
/-! DEFINITION. Firmware load, watchdogs, restart and failure of processors, and fencing of partitions (15_firmware). -/

namespace Sys2Proof.Machine

open Sys2Proof

/-! ## The image (R417, R418) -/

/-- A directory entry of the image: kind, length, offset. -/
structure Seg where
  kind : Nat
  len  : Nat
  off  : Nat
deriving DecidableEq, Repr, Inhabited

def imgSegs (b : Blob) : List Seg :=
  (List.range (Blob.u32 b 36)).map fun i =>
    { kind := Blob.u8 b (256 + 16 * i), len := Blob.u32 b (256 + 16 * i + 4), off := Blob.u64 b (256 + 16 * i + 8) }

/-- Check 1: magic, lengths, reserved bytes. -/
def imgHeaderOk (b : Blob) (loadLen : Nat) : Bool :=
  let n := min 16 (Blob.u32 b 36)
  Blob.u32 b 0 == 0x4C46574D && Blob.u32 b 4 == 512 && Blob.u64 b 8 == loadLen && decide (loadLen ≤ 268435456)
    && Blob.zeroIn b 200 256 && decide (Blob.u32 b 32 < 16)
    && (List.range n).all (fun i => Blob.zeroIn b (256 + 16 * i + 1) (256 + 16 * i + 4)) && Blob.zeroIn b (256 + 16 * n) 512

/-- Check 2: kinds 1 to 6 each exactly once, within the image, without overlap. -/
def imgDirOk (b : Blob) : Bool :=
  let segs := imgSegs b
  let overlap := fun x y : Seg => decide (x.off < y.off + y.len) && decide (y.off < x.off + x.len)
  decide (Blob.u32 b 36 ≤ 16) && (segs.map (·.kind)).length == 6 && [1, 2, 3, 4, 5, 6].all (fun k => (segs.filter fun x => x.kind == k).length == 1)
    && segs.all (fun x => decide (x.off + x.len ≤ Blob.u64 b 8))
    && (List.range segs.length).all fun i => (List.range i).all fun j => !overlap (segs.getD i default) (segs.getD j default)

/-- The digest of check 5: SM3 over bytes 0–103, 200–511 and 512 to the end. -/
def imgDigest (b : Blob) : Blob := sm3 (Blob.slice b 0 104 ++ b.drop 200)

/-- The code of the first failed check of R418, 0 when all pass. -/
def State.imgCheck (s : State) (b : Blob) : Nat :=
  if !imgHeaderOk b (s.regN Reg.fwLoadLen) then 1
  else if !imgDirOk b then 2
  else if !(bitN (Blob.u32 b 32) s.member.imageBit) || Blob.u32 b 28 != s.fuses.behaviour then 3
  else if sm3 (Blob.slice b 40 64) != s.fuses.rootHash then 4
  else if imgDigest b != Blob.slice b 104 32 then 5
  else if !sm2Verify (Blob.slice b 40 64) (Blob.slice b 104 32) (Blob.slice b 136 64) then 6
  else if Blob.u32 b 24 < s.store.floor then 7
  else 0

/-- FW_START: START copies the image into the firmware region (R420), or is ignored (R421). -/
def execFwStart (t fn : Nat) (value : Word) (s : State) : Res :=
  let s := s.advance t
  if !(s.reach fn && s.isOwner fn) || value != 1 then .next s
  else if s.fw.state = 0 || s.fw.state = 4 then
    let b := Memory.readN s.hbm (shl (bitsW (s.reg Reg.fwLoadAddr) 39 21) 21) (s.regN Reg.fwLoadLen)
    .next { s.wakeDormant with fw := { s.fw with state := 1, code := 0, image := b } }
  else .next { s.wakeDormant with fw := { s.fw with ignored := true } }

/-- FW_IMAGE_CHECKED: the image is refused with the code of its first failed check, or MFP-0 starts (R418, R420). -/
def execFwImageChecked (t : Nat) (s : State) : Res :=
  let s := s.advance t
  if s.fw.state != 1 || !s.running then .next s else
  let c := s.imgCheck s.fw.image
  if c != 0 then .next { s with fw := { s.fw with state := 4, code := c } }
  else .next ({ s with fw := { s.fw with state := 2 } }.updProc 4 fun p => { p with state := 1 })

/-- The processors of a member (R414): SFP-n and MFP-n per Vestibule die, HFP-n per Hall die. -/
def memberProcs (m : Member) : List Nat :=
  (List.range m.vestibules) ++ (List.range m.vestibules).map (4 + ·) ++ (List.range m.halls).map (8 + ·)

/-- FW_RUNNING: every processor is ready and MFP-0 writes the versions (R420). -/
def execFwRunning (t : Nat) (s : State) : Res :=
  let s := s.advance t
  if s.fw.state != 2 || !s.running then .next s else
  let b := s.fw.image
  let s := (memberProcs s.member).foldl (fun s i => s.updProc i fun p => { p with state := 1 }) s
  let s := { s with fw := { s.fw with state := 3, ifVer := Blob.u32 b 16, release := Blob.u32 b 20, svn := Blob.u32 b 24 },
                    store := { s.store with next := s.store.due } }
  .next (s.setReg Reg.secState (setBitW (s.reg Reg.secState) 4))

/-! ## Watchdogs (R425 to R430) -/

/-- Partitions that a processor serves: SFP-n those bound to a function of HPn (the owner's entry binds them all, R376), HFP-n those with a Wing on Hn (R429). -/
def State.served (s : State) (i : Nat) : List Nat :=
  (List.range 16).filter fun p =>
    if i < 4 then i == s.ownerPort || s.binds.any fun e => fnPort e.1 == i && bitW e.2 0 && bitW e.2 (16 + p)
    else if 8 ≤ i then bitW (s.reg (Reg.partCtrl p)) 0 && (List.range 6).any fun w => bitW (s.reg (Reg.partWings p)) (6 * (i - 8) + w)
    else false

/-- Requests that an expiry of a processor doubts (R428). -/
def State.expiryDoubts (s : State) (i : Nat) : List Nat :=
  if i < 4 then SMap.keysOf s.reqs fun k r => k / 16384 == i && r.peer.isNone
  else if 8 ≤ i then SMap.keysOf s.reqs fun _ r => r.cur.isSome && r.homes.any fun l => landDie l == i - 8
  else []

/-- The step ID of a request's current step, 0 when none runs. -/
def State.curStepId (s : State) (slot : Nat) : Nat :=
  match s.req? slot with
  | some r => (match r.cur with | some st => stepIdOf slot st 0 | none => 0)
  | none => 0

/-- A watchdog snapshot of 4 KiB (R427; the order of its parts is DESIGN CHOICE, log entry 12). -/
def State.snapshotOf (s : State) (i : Nat) (regs trace : Blob) : Blob :=
  Blob.slice (regs ++ leBytes 8 s.now ++ (s.expiryDoubts i).flatMap (fun k => leBytes 4 (s.curStepId k)) ++ trace) 0 4096

/-- Doubts the requests of an expiry with cause bit 2 (R428). -/
def State.expiryDoubt (s : State) (i record : Nat) : State :=
  (s.expiryDoubts i).foldl (fun s k => s.doubt k 4 (s.curStepId k) record) s

/-- Restart of a processor (R426): halted, snapshot, record, reload. `counted` says that the expiry counts in RECENT (R478); the third in 10 s is followed by no restart (R429). -/
def State.procRestart (s : State) (i : Nat) (regs trace : Blob) (counted : Bool) : State :=
  let snap := s.snapshotOf i regs trace
  let s := s.updProc i fun p =>
    let es := if counted then s.now :: (p.expiries.filter fun e => decide (s.now < e + 10000000000)) else p.expiries
    { p with state := 2, snaps := (snap :: p.snaps).take 4, restarts := p.restarts + (if counted && decide (3 ≤ es.length) then 0 else 1), expiries := es }
  let record := s.flt.seq
  let recent := s.procWord i / 4 % 4
  let s := s.emit { kind := 0x04, sev := 2, site := if i < 8 then 8 + i % 4 else i - 8, unit := i, count := recent,
                    extra := (s.served i).flatMap s.boundFns }
  let s := s.expiryDoubt i record
  -- MFP-0: NEWEL_STATE reads HOLDOVER until the next measurement (R428)
  if i = 4 then { s with newel := { s.newel with servo := 3, holdFrom := some (s.newel.holdFrom.getD s.now) } } else s

/-- Fences a partition: its requests not yet completed are doubted with cause bit 5, its speculative tasks discarded (R144, R429, R433). -/
def State.fence (s : State) (p i record : Nat) : State :=
  let s := s.updPart p fun x => { x with fencedBy := i :: x.fencedBy.filter (· != i), resetting := false }
  (SMap.keysOf s.reqs fun _ r => r.part == p).foldl (fun s k => (s.doubt k 32 (s.curStepId k) record).dropSpec k) s

/-- Declares a processor failed (R429). -/
def State.procFail (s : State) (i : Nat) : State :=
  let s := s.updProc i fun p => { p with state := 3 }
  let ps := s.served i
  let record := s.flt.seq
  let s := s.emit { kind := 0x05, sev := 3, site := if i < 8 then 8 + i % 4 else i - 8, unit := i,
                    detail := ps.foldl (fun m p => m + 2 ^ p) 0, extra := ps.flatMap s.boundFns }
  let s := ps.foldl (fun s p => s.fence p i record) s
  if i = 4 then { s with fw := { s.fw with state := 5 } }
  else if 4 < i && i < 8 then
    let down := fun m k => SMap.put m (3 * (i - 4) + k) { SMap.at m (3 * (i - 4) + k) ({} : GalPort) with state := 0, lanes := 0 }
    { s with gal := { s.gal with reroute := true, ports := (List.range 3).foldl down s.gal.ports } }
  else s

/-- WATCHDOG_EXPIRY: the third expiry in 10 s fails the processor (R426, R429). In Dormant the watchdogs of HFP are suspended (R472). -/
def execWatchdogExpiry (t proc : Nat) (regs : List Byte) (trace : List Byte) (s : State) : Res :=
  let s := s.advance t
  if !s.running || !s.procRuns proc || (s.power.dormant && decide (8 ≤ proc)) then .next s else
  let s := s.procRestart proc regs trace true
  .next (if 3 ≤ s.procWord proc / 4 % 4 then s.procFail proc else s)

/-- PROCESSOR_READY: a restarted processor runs again; a store write that MFP-0 abandoned is reissued (R426, R428). -/
def execProcessorReady (t proc : Nat) (s : State) : Res :=
  let s := s.advance t
  if (s.proc proc).state = 2 && s.running then .next (s.updProc proc fun p => { p with state := 1 }) else .next s

/-- REVIVE (R430): restarts a failed processor and clears its RECENT count. -/
def execRevive (t : Nat) (s : State) : Res :=
  .next ((s.advance t).adminRun 0x87 fun s d =>
    let tag := Blob.u32 d 4
    let i := Blob.u8 d 64
    if !adminClean d [(64, 65)] || decide (16 ≤ i) || (s.proc i).state != 3 then s.adminPost tag { status := 0x21 } else
    let s := (s.procRestart i [] [] false).updProc i fun p => { p with expiries := [] }
    s.adminPost tag { status := 0 })

end Sys2Proof.Machine
end

