-- ==== Sys2Proof/Machine/Faults.lean ====
section
/-! DEFINITION. Landings that die and return, stale speakers, fenced edges, scrubbing, injections (16_faults_and_the_balustrade, 04 R116 and R117, 01 R23). -/

namespace Sys2Proof.Machine

open Sys2Proof

/-- WINDOW_MS in ns (R455). -/
def State.faultWindow (s : State) : Nat := bitsW (s.reg Reg.fltPolicy) 23 8 * 1000000
/-- Times within the window that ends now. -/
def State.inWindow (s : State) (ts : List Nat) : List Nat := ts.filter fun x => decide (s.now < x + s.faultWindow)

/-- Idle spares of a Hall die that are not reserved, ascending. -/
def State.idleSpares (s : State) (h : Nat) : List Nat :=
  (List.range 52).filter fun p => let x := s.phys (physKey h p); x.state == 1 && x.reserved.isNone

/-- Pushes a task as the newest of its level (R128). -/
def Landing.push (l : Landing) (x : Task) : Landing :=
  if x.spec then { l with spec := l.spec ++ [x] }
  else match x.cls with
    | 0 => { l with lev0 := l.lev0 ++ [x] }
    | 1 => { l with lev1 := l.lev1 ++ [x] }
    | 2 => { l with lev2 := l.lev2 ++ [x] }
    | _ => { l with lev3 := l.lev3 ++ [x] }

def Landing.queued (l : Landing) : Nat :=
  l.lev0.length + l.lev1.length + l.lev2.length + l.lev3.length + l.spec.length

/-- The partition of a task's request. -/
def State.taskPart (s : State) (x : Task) : Nat := match s.req? x.slot with | some r => r.part | none => 0
/-- A task placed on a deque wakes its landing and starts the exit of its Wing from Still; a deque with two tasks wakes every landing of its partition (R471). -/
def State.wakeLand (s : State) (l : Nat) : State :=
  let mates := if 2 ≤ (s.land l).queued then (match s.landPart l with | some p => s.partLands p | none => []) else []
  let w := landWing l
  { s with
    lands := ((l :: mates.filter fun k => (s.land k).gated).foldl (fun s k => s.updLand k fun x => { x with gated := false, gatedFor := 0 }) s).lands
    power := if s.power.wings.contains w then { s.power with wingWake := (w :: s.power.wingWake).eraseDups } else s.power }
/-- A deque of the landing's partition holds two tasks or more. -/
def State.crowded (s : State) (l : Nat) : Bool :=
  match s.landPart l with | some p => (s.partLands p).any fun k => decide (2 ≤ (s.land k).queued) | none => false
/-- A task goes onto the deque of a landing, or, where that is full or earlier tasks wait for it, into the backlog of its partition (R128). -/
def State.enqueue (s : State) (l : Nat) (x : Task) : State :=
  let p := s.taskPart x
  let x := { x with home := l }
  if (s.land l).phys.isNone || 256 ≤ (s.land l).queued || (s.part p).backlog.any fun t => t.home == l
  then s.updPart p fun q => { q with backlog := q.backlog ++ [x] } else (s.updLand l fun y => y.push x).wakeLand l

/-- The logical landings of a landing's Wing that have a physical landing, ascending slot order. -/
def State.wingMates (s : State) (l : Nat) : List Nat :=
  ((List.range 8).map fun i => landWing l * 8 + i).filter fun k => (s.land k).phys.isSome

/-- Edges of the Stair ring from Hall die a to b in one direction (R22): edge n joins Hn and its neighbour in ascending order. -/
def ringPath (m : Member) (a b : Nat) (up : Bool) : List Nat :=
  let n := m.halls
  if up then (List.range ((b + n - a) % n)).map fun i => (a + i) % n else (List.range ((a + n - b) % n)).map fun i => (a + n - 1 - i) % n

/-- The way of a transfer between two Hall dies (R22, R23): the shorter one; at equal length ascending from an even die and descending from an odd one; the other way where it would cross an edge
that traffic avoids (bits of FLT_EDGE). -/
def ringRoute (m : Member) (avoid a b : Nat) : List Nat :=
  let up := ringPath m a b true
  let down := ringPath m a b false
  let asc := if up.length = down.length then a % 2 == 0 else decide (up.length < down.length)
  let way := if asc then up else down
  if way.any fun e => bitN avoid e then (if asc then down else up) else way

/-- Stair ring distance of two Hall dies: the edges of the way that traffic takes (R22, R23). -/
def State.ringDist (s : State) (a b : Nat) : Nat := (ringRoute s.member s.flt.detour a b).length

def insertByDist (dist : Nat → Nat) (x : Nat) : List Nat → List Nat
  | [] => [x]
  | y :: r => if dist x < dist y || (dist x = dist y && x < y) then x :: y :: r else y :: insertByDist dist x r

/-- Wings in the visiting order of a landing (R130): the others of its Hall die in turn, then those of the other dies by distance. -/
def State.wingsAfter (s : State) (l : Nat) : List Nat :=
  let h := landDie l
  let w := landWing l % 6
  let dies := ((List.range s.member.halls).filter (· != h)).foldl (fun a x => insertByDist (s.ringDist h) x a) []
  ((List.range 5).map fun i => 6 * h + (w + 1 + i) % 6) ++ dies.flatMap fun g => (List.range 6).map fun i => 6 * g + (w + 1 + i) % 6
/-- A logical ID that no landing serves and no spare is to take (R444). -/
def State.orphan (s : State) (l : Nat) : Bool := (s.land l).phys.isNone && !s.flt.phys.any fun e => e.2.reserved == some l
/-- The landings that stand in for a logical ID without one: the others of its Wing in slot order, or those of the next Wing of the partition that has any (R444). -/
def State.heirs (s : State) (p l : Nat) : List Nat :=
  let mates := s.wingMates l
  if !mates.isEmpty then mates else
  (((s.wingsAfter l).filter fun w => bitW (s.reg (Reg.partWings p)) w).map fun w => s.wingMates (8 * w)).find? (fun ls => !ls.isEmpty) |>.getD []
/-- Gives tasks round-robin to landings (R444). -/
def State.pushRound (s : State) (ls : List Nat) (ts : List Task) : State :=
  if ls.isEmpty then ts.foldl (fun s t => s.enqueue t.home t) s else
  ((List.range ts.length).zip ts).foldl (fun s e => s.enqueue (ls.getD (e.1 % ls.length) 0) e.2) s

/-- The tasks of a logical ID without a landing, those of its partition's backlog among them, go to the landings that stand in for it (R444). -/
def State.rehome (s : State) (l : Nat) : State :=
  match s.landPart l with
  | none => s
  | some p =>
    let x := s.land l
    let ts := x.lev0 ++ x.lev1 ++ x.lev2 ++ x.lev3 ++ x.spec ++ x.redo ++ (s.part p).backlog.filter fun t => t.home == l
    let s := s.setLand l { x with lev0 := [], lev1 := [], lev2 := [], lev3 := [], spec := [], redo := [] }
    (s.updPart p fun q => { q with backlog := q.backlog.filter fun t => t.home != l }).pushRound (s.heirs p l) ts

/-- Declares a physical landing dead (R441 to R444): fenced, generation incremented, spare reserved, its requests doubted with cause 3.
`cause` is the code of the LANDING_DEAD record. -/
def State.declareDead (s : State) (k cause : Nat) : State :=
  let x := s.phys k
  if x.state = 2 then s else
  let h := k / 64
  let log := x.logical
  let gen := (x.gen + 1) % 256
  let s := s.setPhys k { x with state := 2, gen := gen, logical := none, reserved := none, last := if log.isSome then log else x.last }
  let spare := if log.isSome || x.reserved.isSome then (s.idleSpares h).head? else none
  let want := if log.isSome then log else x.reserved
  let s := match spare, want with
    | some p, some l => s.updPhys (physKey h p) fun y => { y with reserved := some l }
    | _, _ => s
  let record := s.flt.seq
  let s := (s.orReg Reg.fltStatus 0)
  let s := if want.isSome && spare.isNone then s.orReg Reg.fltStatus 1 else s
  let s := s.emit { kind := 0x06, sev := 3, site := h, unit := k % 64, landing := log.getD 0xFFFF,
                    part := log.bind s.landPart, count := (s.idleSpares h).length,
                    detail := cause + shl gen 8 + shl (spare.getD 0xFF) 16 }
  match log with
  | none => (match want with | some l => if spare.isNone then s.rehome l else s | none => s)
  | some l =>
    let y := s.land l
    let running := y.running
    let partial_ := SMap.keysOf s.reqs fun slot _ => s.lands.any fun e => e.2.combine.any fun c => c.slot == slot && c.held.any fun q => q.2.1 == k
    let s := s.setLand l { y.loseStore with phys := none, running := [], redo := y.redo ++ running.map (·.task), combine := [] }
    let s := s.recount [l]
    let s := running.foldl (fun s r => s.doubt r.task.slot 8 (stepIdOf r.task.slot r.task.stage r.task.seq) record) s
    let s := partial_.foldl (fun s slot => s.doubt slot 8 (s.curStepId slot) record) s
    if spare.isNone then s.rehome l else s

/-- A reserved spare takes its logical ID at action 4 of the boundary (R20, R443, R504): the queued tasks stay, those that ran are re-dispatched, and firmware refills the stair
schedule's share of its store. -/
def State.takeOver (s : State) (k : Nat) : State :=
  match (s.phys k).reserved with
  | none => s
  | some l =>
    let s := s.updPhys k fun x => { x with state := 0, logical := some l, reserved := none }
    let y := s.land l
    let c := { y.cnt with entries := [], head := 0, wrapped := false, lost := true }
    let s := s.setLand l { y with phys := some k, redo := [], cnt := c, gated := false, idleFrom := s.now }
    (y.redo.foldl (fun s t => s.enqueue l t) (s.recount [l])).stairRefill l

/-- Every reserved spare takes over. -/
def State.spareTakeovers (s : State) : State :=
  ((s.flt.phys.filter fun e => e.2.reserved.isSome).map Prod.fst).foldl State.takeOver s

/-- Counts a residue mismatch of a physical landing; at RESIDUE_MAX in the window it is declared dead (R57, R441). -/
def State.countResidue (s : State) (k : Nat) (counts : Bool) : State :=
  let s := s.updPhys k fun x => { x with resTotal := satAdd 32 x.resTotal 1, residues := if counts then s.now :: s.inWindow x.residues else s.inWindow x.residues }
  if (s.phys k).state != 2 && counts && decide (bitsW (s.reg Reg.fltPolicy) 3 0 ≤ ((s.phys k).residues).length) then s.declareDead k 1 else s

/-- Counts an uncorrectable landing-store error; at ECC_MAX in the window the landing is declared dead (R441). -/
def State.countEcc (s : State) (k : Nat) (counts : Bool) : State :=
  let s := s.updPhys k fun x => { x with eccTotal := satAdd 32 x.eccTotal 1, eccs := if counts then s.now :: s.inWindow x.eccs else s.inWindow x.eccs }
  if (s.phys k).state != 2 && counts && decide (bitsW (s.reg Reg.fltPolicy) 7 4 ≤ ((s.phys k).eccs).length) then s.declareDead k 2 else s

/-- An uncorrectable HBM error: a granule of 2 MiB that shows two in the window is retired (R447); its record names the Hall die of its stack (R14). -/
def State.granuleError (s : State) (addr : Nat) : State :=
  let g := addr / 2097152
  let ts := s.now :: s.inWindow (SMap.at s.flt.granules g [])
  let s := { s with flt := { s.flt with granules := SMap.put s.flt.granules g ts } }
  if 2 ≤ ts.length && !s.flt.retired.contains g then
    let s := { s with flt := { s.flt with retired := g :: s.flt.retired } }
    (s.orReg Reg.fltStatus 6).emit { kind := 0x0B, sev := 2, site := dieOfAddr s.member addr, addr := g * 2097152 }
  else s

/-- The physical landing that serves a logical ID. -/
def State.serving (s : State) (l : Nat) : Option Nat := (s.land l).phys

/-- Index in MEM_ECC_COUNT of a store's uncorrectable count (R118): landing store 1, pinned 3, session SRAM 7, HBM 5. -/
def eccIndex (store : Nat) : Nat := match store with | 1 => 1 | 2 => 3 | 3 => 7 | _ => 5

/-- LANDING_HANG: a task has run longer than HANG_MS (R441). -/
def execLandingHang (t landing : Nat) (s : State) : Res :=
  let s := s.advance t
  let lim := bitsW (s.reg Reg.fltPolicy) 31 24 * 1000000
  match s.serving landing with
  | some k => .next (if s.running && (s.land landing).running.any (fun r => decide (r.start + lim < s.now)) then s.declareDead k 3 else s)
  | none => .next s

/-- DECLARE_LANDING_DEAD: FLT_CMD DECLARE (R441, R454). -/
def execDeclareLandingDead (t fn die phys : Nat) (s : State) : Res :=
  let s := s.advance t
  .next (if s.reach fn && s.isOwner fn && decide (die < s.member.halls) && decide (phys < 52)
    then s.wakeDormant.declareDead (physKey die phys) 5 else s)

/-- Arms an injection on a logical landing; a locked block leaves it without effect (R454, R551). -/
def State.arm (s : State) (fn landing : Nat) (set : Landing → Landing) : State :=
  if s.reach fn && s.isOwner fn && !bitW (s.reg Reg.fltLock) 0 && decide (landing < s.member.landings) then s.wakeDormant.updLand landing set else s

/-- INJECT_RESIDUE (R551). -/
def execInjectResidue (t fn landing : Nat) (noCount : Bool) (s : State) : Res :=
  .next ((s.advance t).arm fn landing fun l => { l with injRes := some noCount })

/-- INJECT_ECC (R551). -/
def execInjectEcc (t fn landing : Nat) (noCount : Bool) (s : State) : Res :=
  .next ((s.advance t).arm fn landing fun l => { l with injEcc := some noCount })

/-- The lowest logical ID of a Hall die without a landing and without a reserved spare. -/
def State.shortId (s : State) (h : Nat) : Option Nat :=
  ((List.range 48).map fun i => 48 * h + i).find? fun l =>
    (s.land l).phys.isNone && !(s.flt.phys.any fun e => e.2.reserved == some l)

/-- Logical IDs of a Hall die without a landing (FLT_HALL.SHORT). -/
def State.shortCount (s : State) (h : Nat) : Nat :=
  (((List.range 48).map fun i => 48 * h + i).filter fun l => (s.land l).phys.isNone).length

/-- A landing in self-test passes: it takes the lowest ID without a landing, or joins the spares (R446). -/
def State.readmit (s : State) (k : Nat) : State :=
  let h := k / 64
  let id := s.shortId h
  let s := match id with
    | some l => ((s.updPhys k fun x => { x with state := 0, logical := some l }).updLand l fun y => { y with phys := some k, idleFrom := s.now }).recount [l]
    | none => s.updPhys k fun x => { x with state := 1, logical := none }
  s.emit { kind := 0x07, sev := 2, site := h, unit := k % 64, landing := id.getD 0xFFFF, part := id.bind s.landPart, detail := id.getD 0x1FF }

/-- SELF_TEST_COMPLETE: a landing self-test ends (R446). `failed` is 0 for a pass, or the code of the failed test. During firmware start every landing
is tested: one that fails is out, and a spare takes its place (R446). -/
def execSelfTestComplete (t die phys failed : Nat) (s : State) : Res :=
  let s := s.advance t
  let k := physKey die phys
  if !s.running || !decide (die < s.member.halls) || !decide (phys < 52) then .next s
  else if (s.phys k).state = 3 then
    if failed = 0 then .next (s.readmit k)
    else .next ((s.updPhys k fun x => { x with state := 2 }).emit { kind := 0x09, sev := 3, site := die, unit := phys, detail := failed })
  else if s.fw.state = 2 && failed != 0 then
    .next ((s.emit { kind := 0x09, sev := 3, site := die, unit := phys, detail := failed }).declareDead k 4)
  else .next s

/-- SPARE_PERIODIC_TEST: an idle spare repeats its self-test; a failure declares it dead (R441, R443). A reserved spare is not tested. -/
def execSparePeriodicTest (t die phys failed : Nat) (s : State) : Res :=
  let s := s.advance t
  let k := physKey die phys
  let x := s.phys k
  if s.running && decide (die < s.member.halls) && decide (phys < 52) && x.state == 1 && x.reserved.isNone && failed != 0
  then .next ((s.emit { kind := 0x09, sev := 3, site := die, unit := phys, detail := failed }).declareDead k 4) else .next s

/-- SELF_TEST (R453): a dead landing or an idle spare; a spare that fails is declared dead. -/
def execSelfTest (t failed durationUs : Nat) (s : State) : Res :=
  .next ((s.advance t).adminRun 0x85 fun s d =>
    let tag := Blob.u32 d 4
    let h := Blob.u8 d 64
    let p := Blob.u8 d 65
    let x := s.phys (physKey h p)
    let ok := adminClean d [(64, 66)] && decide (h < s.member.halls) && decide (p < 52) && decide (64 ≤ Blob.u32 d 48)
      && (x.state == 2 || (x.state == 1 && x.reserved.isNone))
    if !ok then s.adminPost tag { status := 0x21 } else
    let s := if x.state = 1 && failed != 0 then s.declareDead (physKey h p) 4 else s
    let b := leBytes 1 (b2n (failed == 0)) ++ leBytes 1 failed ++ leBytes 2 0 ++ leBytes 4 durationUs ++ zeros 56
    (s.devWrite (Blob.u64 d 40) b).adminPost tag { status := 0, count := 1, bytes := 64 })

/-- STALE_SPEAKER: transfers with an old generation are dropped and counted; the record is written at the boundary (R445). -/
def execStaleSpeaker (t die phys gen count : Nat) (s : State) : Res :=
  let s := s.advance t
  let k := physKey die phys
  if !s.running || !decide (die < s.member.halls) || !decide (phys < 52) || gen = (s.phys k).gen || count = 0 then .next s else
  let s := s.updPhys k fun x => { x with heard := x.heard + count, heardGen := gen }
  .next ({ s with flt := { s.flt with stale := satAdd 32 s.flt.stale count } }.orReg Reg.fltStatus 2)

/-- Each landing heard in the Tread that ends writes one STALE_SPEAKER record (R445). -/
def State.staleRecords (s : State) : State :=
  (s.flt.phys.filter fun e => e.2.heard != 0).foldl (fun s e =>
    (s.updPhys e.1 fun x => { x with heard := 0 }).emit
      { kind := 0x08, sev := 2, site := e.1 / 64, unit := e.1 % 64, count := e.2.heard, detail := e.2.heardGen }) s

/-- Edges that the member has, by bit of FLT_EDGE (R21, R26, R457). -/
def edgePresent (m : Member) (e : Nat) : Bool :=
  if e < 8 then decide (e < m.halls) && decide (1 < m.halls)
  else if e < 16 then decide (e - 8 < m.halls)
  else if e < 20 then decide (e - 16 < m.vestibules)
  else decide (e < 24) && decide (e - 20 < m.vestibules) && decide (1 < m.halls)

/-- The Hall die at which traffic from Vestibule v to Hall die b enters the ring (R22): the nearer of its two, H(2n) where both are equally near, and the other one where its edge is avoided. -/
def vestEntry (m : Member) (avoid v b : Nat) : Nat :=
  let lo := 2 * v
  let hi := if 2 * v + 1 < m.halls then 2 * v + 1 else lo
  let near := if (ringRoute m avoid hi b).length < (ringRoute m avoid lo b).length then hi else lo
  if near = lo && bitN avoid (16 + v) then hi else if near = hi && hi != lo && bitN avoid (20 + v) then lo else near
/-- The edges of a transfer between Vestibule v and Hall die b. -/
def vestRoute (m : Member) (avoid v b : Nat) : List Nat :=
  let e := vestEntry m avoid v b
  (if e = 2 * v then 16 + v else 20 + v) :: ringRoute m avoid e b

/-- Traffic avoids the edges that were fenced before this boundary (R23). -/
def State.edgesBoundary (s : State) : State := { s with flt := { s.flt with detour := s.flt.edges } }

/-- EDGE_FENCED: the edge is fenced and every request with a transfer in flight over it is doubted with cause 4 (R23). Its traffic takes the other way from the next boundary. Of an edge's two dies the
record names Hn for a ring edge and an Alcove edge and Vn for a Vestibule edge; R14 does not say which (DESIGN CHOICE, log entry 64). -/
def execEdgeFenced (t edge : Nat) (inFlight : List Nat) (s : State) : Res :=
  let s := s.advance t
  if !s.running || !edgePresent s.member edge || bitN s.flt.edges edge then .next s else
  let record := s.flt.seq
  let s := { s with flt := { s.flt with edges := s.flt.edges + 2 ^ edge } }
  let s := (s.orReg Reg.fltStatus 3).emit
    { kind := 0x0A, sev := 3, site := if edge < 16 then edge % 8 else 8 + edge % 4, detail := edge }
  .next (inFlight.foldl (fun s k => s.doubt k 16 (s.curStepId k) record) s)

/-- One finding of the scrubber (R117, R447): its record names the site on which the store lies (R14). -/
def State.scrubOne (s : State) (f : ScrubFinding) : State :=
  let i := eccIndex f.store
  if f.corrected then (if f.store = 2 then s else s.satField (Reg.memEccCount (i - 1)) 31 0 1)
  else
    let s := (s.satField (Reg.memEccCount i) 31 0 1).emit { kind := 0x03, sev := 2, site := if f.store = 4 then dieOfAddr s.member f.addr else f.site, addr := f.addr, detail := f.store }
    if f.store = 4 then s.granuleError f.addr else s

/-- PATROL_SCRUB (R117); scrubbing pauses in Dormant (R472). -/
def execPatrolScrub (t : Nat) (findings : List ScrubFinding) (s : State) : Res :=
  let s := s.advance t
  .next (if s.running && !s.power.dormant then findings.foldl State.scrubOne s else s)

end Sys2Proof.Machine
end

