-- ==== Sys2Proof/Machine/Time.lean ====
section
/-! DEFINITION. The Newel counter, its servo and time sources, and the Tread length (14_gallery_links_and_time, R404 to R412). -/

namespace Sys2Proof.Machine

open Sys2Proof

def State.updNewel (s : State) (g : Newel → Newel) : State := { s with newel := g s.newel }

/-- The source selected in NEWEL_CTRL (R405). -/
def State.timeSrc (s : State) : Nat := bitsW (s.reg Reg.newelCtrl) 1 0
def State.timePeer (s : State) : Nat := bitsW (s.reg Reg.newelCtrl) 7 4
/-- Whether any partition has PART_CTRL.EN set (R408). -/
def State.anyPart (s : State) : Bool := (List.range 16).any fun p => bitW (s.reg (Reg.partCtrl p)) 0

/-- Moves the counter by a step to v (R408): forward, the boundaries skipped are not run; backward, the next boundary is the first multiple above v. -/
def Newel.stepTo (n : Newel) (v : Nat) : Newel :=
  if n.time ≤ v then
    { n with time := v, slew := 0, nextB := if v ≤ n.nextB then n.nextB else (v + n.len - 1) / n.len * n.len }
  else { n with time := v, slew := 0, nextB := (v / n.len + 1) * n.len }

/-- Enters HOLDOVER (R407, R409). -/
def State.enterHoldover (s : State) : State :=
  if s.newel.servo = 2 then
    (s.updNewel fun n => { n with servo := 3, good := 0, holdFrom := some n.time }).orReg Reg.newelStatus 0
  else s

/-- The servo state after a measurement (R407): state, consecutive good measurements. -/
def servoNext (servo good : Nat) (offset : Int) : Nat × Nat :=
  match servo with
  | 1 => if offset.natAbs < 100 then (if 16 ≤ good + 1 then (2, 0) else (1, good + 1)) else (1, 0)
  | 2 => if 1000 < offset.natAbs then (3, 0) else (2, 0)
  | _ => (1, 0)

/-- Marks the enabled schedule entries whose time lies from a to b as late (R511). -/
def State.markLate (s : State) (a b : Nat) : State :=
  let js := (List.range 4).filter fun j =>
    bitW (s.reg (Reg.cntSchedCtrl j)) 0 && decide (a ≤ s.regN (Reg.cntSchedTime j)) && decide (s.regN (Reg.cntSchedTime j) < b)
  { s with cnt := { s.cnt with late := js.foldl (fun m j => m ||| 2 ^ j) s.cnt.late } }

/-- One measurement of the offset, local minus source, in ns (R407, R408). It steps the counter at the first measurement after reset or while no partition is enabled, else it slews. -/
def State.measure (s : State) (offset : Int) : State :=
  if !s.procRuns 4 then s else
  let n := s.newel
  let nx := servoNext n.servo n.good offset
  let steps := !n.first || !s.anyPart
  let lost := n.servo = 2 && nx.1 = 3
  let n' := { n with servo := nx.1, good := nx.2, first := true, offset := offset, slew := -offset,
                     holdFrom := if nx.1 = 3 then some n.time else none, holdLong := n.holdLong && nx.1 == 3 }
  let s := if lost then { s with newel := n' }.orReg Reg.newelStatus 0 else { s with newel := n' }
  if steps && offset != 0 then
    let v := Int.toNat ((s.now : Int) - offset)
    let s := s.markLate (s.now + 1) v
    (s.updNewel fun m => m.stepTo v).orReg Reg.newelStatus 1
  else s

/-- Whether a write to an RWL register of a block is accepted from a function: the owner, with the block unlocked (R370). -/
def State.rwlOk (s : State) (fn lock : Nat) : Bool := s.reach fn && s.isOwner fn && !bitW (s.reg lock) 0

/-- NEWEL_TREAD_WRITE (R411): a length of 5 to 500 µs is held pending. -/
def execNewelTreadWrite (t fn : Nat) (value : Word) (s : State) : Res :=
  let s := s.advance t
  let len := bitsW value 8 0
  if s.rwlOk fn Reg.newelLock && decide (5 ≤ len) && decide (len ≤ 500) then
    .next ((s.wakeDormant.setRegN Reg.newelTread len).updNewel fun n => { n with pend := some (1000 * len) })
  else .next s

/-- NEWEL_TIME_READ: the read returns the counter and latches the fraction (R404). A physical function sees the block (R12). -/
def execNewelTimeRead (t fn : Nat) (s : State) : Res :=
  let s := s.advance t
  if s.reach fn && fnVf fn == 0 then
    let f := s.takeFresh
    .next ((f.2.updNewel fun n => { n with fracReg := (Config.newelFrac f.1).toNat }).send (.regData fn Reg.newelTime (BitVec.ofNat 64 s.now)))
  else .next s

/-- NEWEL_CTRL_WRITE: selects the source; SRC 0 puts the servo into FREE_RUN at once (R407). -/
def execNewelCtrlWrite (t fn : Nat) (value : Word) (s : State) : Res :=
  let s := s.advance t
  if s.rwlOk fn Reg.newelLock then
    let s := s.wakeDormant.setReg Reg.newelCtrl (value &&& 0xF3)
    .next (if bitsW value 1 0 = 0 then s.updNewel fun n => { n with servo := 0, good := 0, holdFrom := none, holdLong := false, slew := 0 } else s)
  else .next s

/-- PPS_IN_EDGE (R405): the start of second NEWEL_TOD + 1, or one second later than the last where NEWEL_TOD is unchanged. -/
def execPpsInEdge (t : Nat) (s : State) : Res :=
  let s := s.advance t
  if !s.running || s.timeSrc != 2 then .next s else
  let tod := s.reg Reg.newelTod
  let missing := s.newel.lastPulse.isSome && tod == s.newel.todSeen
  let sec := if missing then s.newel.pulseSec + 1 else tod.toNat + 1
  let s := s.updNewel fun n => { n with lastPulse := some n.time, pulseSec := sec, todSeen := tod }
  let s := if missing then s.orReg Reg.newelStatus 3 else s
  .next (s.measure ((s.now : Int) - (sec * 1000000000 : Nat)))

/-- PPS_OUT_EDGE: the counter stands at a whole second and the output is enabled (R406, R412). -/
def execPpsOutEdge (t : Nat) (s : State) : Res :=
  let s := s.advance t
  let w := s.reg Reg.newelPpsOut
  .next (if s.running && bitW w 16 && s.now % 1000000000 == 0 then s.send (.ppsOut (s.now / 1000000000) (bitsW w 9 0)) else s)

/-- SOURCE_TIMEOUT: no Sync for three announce intervals, or no pulse for 1.5 s (R407). -/
def execSourceTimeout (t : Nat) (s : State) : Res :=
  let s := s.advance t
  let n := s.newel
  let iv := match n.master with | some m => (SMap.at n.masters m {}).interval | none => 0
  let ptp := s.timeSrc == 1 && decide (n.syncT2 + 3 * iv ≤ n.time)
  let pps := s.timeSrc == 2 && decide (n.lastPulse.getD 0 + 1500000000 ≤ n.time)
  if !s.running || !(ptp || pps) then .next s else
  let s := if ptp then (s.updNewel fun n => { n with master := none, masters := [] }).orReg Reg.newelStatus 4 else s
  .next s.enterHoldover

/-- HOLDOVER_LONG: 1,000 s of holdover (R409). -/
def execHoldoverLong (t : Nat) (s : State) : Res :=
  let s := s.advance t
  match s.newel.servo, s.newel.holdFrom with
  | 3, some h =>
    if s.running && decide (h + 1000000000000 ≤ s.now) then
      .next ((s.updNewel fun n => { n with holdLong := true }).orReg Reg.newelStatus 2)
    else .next s
  | _, _ => .next s

/-- The best master: lowest rank, then lowest identity (R406: the default best master clock algorithm, its comparison given by `rank`). -/
def bestMaster (ms : SMap Master) : Option Nat :=
  (ms.foldl (fun b e => match b with
    | none => some e
    | some x => if e.2.rank < x.2.rank then some e else some x) (none : Option (Nat × Master))).map Prod.fst

/-- PTP_ANNOUNCE (R406). -/
def execPtpAnnounce (t master rank intervalNs : Nat) (s : State) : Res :=
  let s := s.advance t
  if !s.running || !s.procRuns 4 then .next s else
  let s := s.updNewel fun n =>
    let ms := SMap.put n.masters master { rank := rank, interval := intervalNs }
    { n with masters := ms, master := bestMaster ms }
  .next (s.setRegN Reg.newelMaster (s.newel.master.getD 0))

/-- PTP_SYNC (R406): a Sync is timestamped and a Delay_Req sent; a Follow_Up carries the origin time of a two-step Sync. -/
def execPtpSync (t master originNs : Nat) (followUp : Bool) (s : State) : Res :=
  let s := s.advance t
  if !s.running || s.timeSrc != 1 || s.newel.master != some master then .next s
  else if followUp then .next (s.updNewel fun n => { n with syncT1 := originNs })
  else .next ((s.updNewel fun n => { n with syncT1 := originNs, syncT2 := n.time, reqT3 := some n.time }).send (.ptpDelayReq s.now))

/-- PTP_DELAY_RESP (R406): completes a measurement with the offset of the delay request-response mechanism. -/
def execPtpDelayResp (t master reqNs respNs : Nat) (s : State) : Res :=
  let s := s.advance t
  let n := s.newel
  if !s.running || s.timeSrc != 1 || n.master != some master || n.reqT3 != some reqNs then .next s else
  let off := (((n.syncT2 : Int) - n.syncT1) - ((respNs : Int) - reqNs)) / 2
  .next ((s.updNewel fun n => { n with reqT3 := none }).measure off)

/-- GALLERY_TIME_EXCHANGE (R405): the offset to the source peer; a source that is not LOCKED puts this module into HOLDOVER. -/
def execGalleryTimeExchange (t peer : Nat) (offset : Int) (locked : Bool) (s : State) : Res :=
  let s := s.advance t
  if !s.running || s.timeSrc != 3 || s.timePeer != peer || (SMap.at s.gal.peers peer {}).state != 2 then .next s
  else if locked then .next (s.measure offset) else .next s.enterHoldover

end Sys2Proof.Machine
end

