-- ==== Sys2Proof/Machine/Power.lean ====
section
/-! DEFINITION. The input supply, thermal conditions, pins, and power states (17_power_supply_and_reset, 20_module_hardware). -/

namespace Sys2Proof.Machine

open Sys2Proof

def State.updPower (s : State) (g : Power → Power) : State := { s with power := g s.power }

/-- A measured input voltage in 10 mV: PWR_SUPPLY.VIN and the lowest value seen (R459). -/
def Power.see (p : Power) (vin : Nat) : Power := { p with vin := vin, vmin := min p.vmin vin }

/-! ## Pins -/

/-- ALERT_N is asserted by a supply warning, a die throttle, coolant high or a leak (R460, R532). -/
def State.alertN (s : State) : Bool := s.power.warn.isSome || s.power.thermal.any fun c => [2, 3, 5].contains c.kind
/-- THERM_N is held asserted after a trip (R532). -/
def State.thermN (s : State) : Bool := s.power.tripped
def State.leakN (s : State) : Bool := s.power.thermal.any fun c => c.kind == 5
/-- POWER_OK is high once the start-up sequence has ended (R527, R528). -/
def State.powerOkPin (s : State) : Bool := s.power.phase == .up

/-- The issue limit of a Hall die's arrays in sixteenths: supply throttle, thermal throttle and power cap, the lowest of them (R60, R461, R468, R533). -/
def State.issueLimit (s : State) (h : Nat) : Nat :=
  let thermal := s.power.thermal.any fun c => c.kind == 3 || (c.kind == 2 && (c.site == h || (decide (8 ≤ c.site) && decide (c.site < 16))
    || (decide (16 ≤ c.site) && (c.site - 16) / 2 == h)))
  min s.power.capStep (if s.power.warn.isSome || thermal then 4 else 16)

/-! ## Supply events -/

/-- Alcove dies that may be in retention: every Wing of the two Hall dies gated, and no Arcade step of the Vestibule queued or running (R471). -/
def State.alcIdle (s : State) (a : Nat) : Bool :=
  let ws := ((List.range 12).map fun i => 12 * a + i).filter fun w => decide (w < s.member.wings)
  decide (a < s.member.alcoves) && ws.all (fun w => s.power.wings.contains w)
    && !s.reqs.any fun e => slotVest e.1 == a && (e.2.cur == some .tokenise || e.2.cur == some .detokenise)
/-- Alcove dies in retention; none enters it while a supply warning stands (R461). -/
def State.alcRetained (s : State) (a : Nat) : Bool := s.alcIdle a && (match s.power.warn with | some w => w.still.contains a | none => true)

/-- SUPPLY_WARNING: the input falls through 60.0 V (R460, R463). A fall during a warning continues it (R462). -/
def execSupplyWarning (t vin : Nat) (s : State) : Res :=
  let s := s.advance t
  if s.power.phase != .up || decide (6000 ≤ vin) then .next s else
  let w : SupplyEvent := match s.power.warn with
    | some w => { w with extreme := min w.extreme vin }
    | none => { start := s.now, extreme := vin, still := (List.range 4).filter s.alcRetained }
  let s := s.updPower fun p => { p.see vin with warn := some w, hold := none, idleFrom := none }
  let s := { s with reqs := SMap.mapVals s.reqs fun _ r => { r with brownout := r.brownout || r.passedAt.isNone } }
  .next (s.orReg Reg.pwrStatus 0)

/-- INPUT_CROSSES_62V: starts or restarts the clear hold of a warning (R462), or the qualification at power-up (R526, R529). -/
def execInputCrosses62v (t : Nat) (rising : Bool) (vin : Nat) (s : State) : Res :=
  let s := s.advance t
  let s := s.updPower fun p => p.see vin
  match s.power.phase with
  | .up => .next (if s.power.warn.isSome then s.updPower fun p => { p with hold := if rising then some s.now else none } else s)
  | .qualify => .next (s.updPower fun p => { p with phase := if rising then .qualify else .off, since := s.now })
  | .off => .next (if rising then s.updPower fun p => { p with phase := .qualify, since := s.now } else s)
  | _ => .next s

/-- The 64-bit PWR_LAST_EVENT (R482). -/
def lastEvent (us extreme kind : Nat) : Nat := min us (2 ^ 32 - 1) + shl (extreme % 65536) 32 + shl kind 48

/-- SUPPLY_WARNING_CLEAR: held at or above 62.0 V for 100 µs (R462). -/
def execSupplyWarningClear (t vin : Nat) (s : State) : Res :=
  let s := s.advance t
  match s.power.warn, s.power.hold with
  | some w, some h =>
    if vin < 6200 || s.now < h + 100000 then .next s else
    let us := (s.now - w.start) / 1000
    let s := s.updPower fun p => { p.see vin with warn := none, hold := none }
    let held := s.store.held
    let s := { s with store := { s.store with held := [], write := s.store.write.map fun (x : StoreWrite) => { x with waiting := false } } }
    let s := { s with store := held.foldl (fun st b => st.logAdd (Blob.u32 b 0) b) s.store }
    let s := (s.satField Reg.pwrEvents 15 0 1).setRegN Reg.pwrLastEvent (lastEvent us w.extreme 1)
    .next (s.emit { kind := 0x14, sev := 2, count := us, detail := w.extreme % 65536 + shl 1 16 + shl (w.deferred % 65536) 20 })
  | _, _ => .next s

/-- OVERVOLTAGE (R467). -/
def execOvervoltage (t vin : Nat) (s : State) : Res :=
  let s := s.advance t
  if s.power.phase != .up || vin < 8200 then .next s else
  match s.power.overrun with
  | some w => .next (s.updPower fun p => { p.see vin with overrun := some { w with extreme := max w.extreme vin } })
  | none =>
    let s := s.updPower fun p => { p.see vin with overrun := some { start := s.now, extreme := vin } }
    .next ((s.orReg Reg.pwrStatus 1).satField Reg.pwrEvents 63 48 1)

/-- OVERVOLTAGE_END (R467). -/
def execOvervoltageEnd (t vin : Nat) (s : State) : Res :=
  let s := s.advance t
  match s.power.overrun with
  | some w =>
    if 8000 ≤ vin then .next s else
    let us := (s.now - w.start) / 1000
    let s := (s.updPower fun p => { p.see vin with overrun := none }).setRegN Reg.pwrLastEvent (lastEvent us w.extreme 2)
    .next (s.emit { kind := 0x14, sev := 2, count := us, detail := w.extreme % 65536 + shl 2 16 })
  | none => .next s

/-- INPUT_QUALIFY: VIN reaches 62.0 V and qualification begins (R526). -/
def execInputQualify (t vin : Nat) (s : State) : Res :=
  let s := s.advance t
  .next (if s.power.phase == .off && decide (6200 ≤ vin) then s.updPower fun p => { p with phase := .qualify, since := s.now, vin := vin, vmin := vin } else s)

/-- INPUT_ENABLE: qualified with J1-C1 tied to return, the hold-up charge begins (R526). -/
def execInputEnable (t : Nat) (s : State) : Res :=
  let s := s.advance t
  .next (if s.power.phase == .qualify then s.updPower fun p => { p with phase := .charge, since := s.now, enOpen := false } else s)

/-- CHARGE_COMPLETE: the rails start (R527). -/
def execChargeComplete (t : Nat) (s : State) : Res :=
  let s := s.advance t
  .next (if s.power.phase == .charge then s.updPower fun p => { p with phase := .rails, since := s.now } else s)

/-- POWER_CAP_EVALUATE: one 1 ms average of the input power in W, and the input current in 10 mA (R468, R459). -/
def execPowerCapEvaluate (t avgW iin : Nat) (s : State) : Res :=
  let s := s.advance t
  if !s.running then .next s else
  let lim := bitsW (s.reg Reg.pwrCap) 12 0
  let c := s.power.capStep
  let c' := if lim < avgW then max 4 (c - 1) else if 100 * avgW < 95 * lim then min 16 (c + 1) else c
  let s := s.updPower fun p => { p with watts := avgW, iin := iin, capStep := c' }
  .next (if c = 16 && c' < 16 then (s.orReg Reg.pwrStatus 2).satField Reg.pwrEvents 31 16 1 else s)

/-! ## Thermal conditions and leak (R532 to R534) -/

/-- A THERMAL_EVENT record (R534). -/
def State.thermalRec (s : State) (kind site temp us : Nat) : State :=
  s.emit { kind := 0x15, sev := 2, site := if site = 0xFF then 8 else site, count := us, detail := site + shl temp 8 + shl kind 16 }

/-- A condition begins, or its highest temperature rises. -/
def State.thermalBegin (s : State) (kind site temp : Nat) : State :=
  if s.power.thermal.any fun c => c.kind == kind && c.site == site then
    s.updPower fun p => { p with thermal := p.thermal.map fun c => if c.kind = kind && c.site = site then { c with peak := max c.peak temp } else c }
  else
    (s.updPower fun p => { p with thermal := p.thermal ++ [{ kind := kind, site := site, start := s.now, peak := temp }] }).thermalRec kind site temp 0

/-- Die sites that a member has (R14, R26): Hall, Vestibule and Alcove dies, and the stacks of its Hall dies. -/
def sitePresent (m : Member) (site : Nat) : Bool :=
  if site < 8 then decide (site < m.halls)
  else if site < 12 then decide (site - 8 < m.vestibules)
  else if site < 16 then decide (site - 12 < m.alcoves)
  else decide (site < 32) && decide ((site - 16) % 2 < m.dieStacks ((site - 16) / 2))

/-- DIE_WARN: a junction at 95 °C (R532). -/
def execDieWarn (t site temp : Nat) (s : State) : Res :=
  let s := s.advance t
  .next (if s.running && decide (site < 16) && sitePresent s.member site && decide (95 ≤ temp) then s.thermalBegin 1 site temp else s)

/-- DIE_THROTTLE: a junction at 105 °C, or a stack at 95 °C (R532). -/
def execDieThrottle (t site temp : Nat) (s : State) : Res :=
  let s := s.advance t
  .next (if s.running && sitePresent s.member site && decide ((if site < 16 then 105 else 95) ≤ temp) then s.thermalBegin 2 site temp else s)

/-- COOLANT_HIGH: the inlet at 45 °C (R532). -/
def execCoolantHigh (t temp : Nat) (s : State) : Res :=
  let s := s.advance t
  .next (if s.running && decide (45 ≤ temp) then s.thermalBegin 3 0xFF temp else s)

/-- LEAK: the leak loop below 100 kΩ (R532). -/
def execLeak (t : Nat) (s : State) : Res :=
  let s := s.advance t
  .next (if s.running then s.thermalBegin 5 0xFF 0 else s)

/-- THERMAL_CONDITION_CLEAR (R532, R534): a trip does not clear. -/
def execThermalConditionClear (t kind site : Nat) (s : State) : Res :=
  let s := s.advance t
  match s.power.thermal.find? fun c => c.kind == kind && c.site == site with
  | some c =>
    if kind = 4 || !s.running then .next s else
    let s := s.updPower fun p => { p with thermal := p.thermal.filter fun x => !(x.kind == kind && x.site == site) }
    .next (s.thermalRec kind site c.peak (min ((s.now - c.start) / 1000) (2 ^ 32 - 1)))
  | none => .next s

/-! ## Power states (R469 to R474) -/

/-- The latency tolerance in µs (R470), all ones where nothing bounds it. -/
def State.tolerance (s : State) : Nat :=
  let dflt := bitsW (s.reg Reg.pwrCtrl) 31 16
  let hosts := (List.range s.member.ports).flatMap fun p =>
    if (s.port p).linkUp then (List.range (s.pfCount p)).map fun k =>
      let f := s.fnOf (fnId p k 0)
      if f.ltrEn then min f.ltrSnoop f.ltrNoSnoop else dflt
    else []
  let parts := ((List.range 16).filter fun p => bitW (s.reg (Reg.partCtrl p)) 0).map fun p => bitsW (s.reg (Reg.partLatTol p)) 22 0
  (hosts ++ parts).foldl min (2 ^ 24 - 1)

/-- The permitted depth for a tolerance (R469, R470). -/
def depthFor (tol maxState : Nat) : Nat :=
  min maxState (if 4000 ≤ tol then 3 else if 60 ≤ tol then 2 else if 2 ≤ tol then 1 else 0)

def State.evalDepth (s : State) : State :=
  let tol := s.tolerance
  s.updPower fun p => { p with tol := tol, depth := depthFor tol (bitsW (s.reg Reg.pwrCtrl) 1 0) }

/-- No request, wait, unread descriptor, or supply warning stands (R472). -/
def State.quiet (s : State) : Bool :=
  s.reqs.isEmpty && s.power.warn.isNone
    && !(s.fns.any fun e => e.2.rings.any fun r => r.2.live 1 && r.2.host != r.2.dev)
    && !(s.admin.sqOn && s.admin.sqHost != s.admin.sqDev)

/-- LANDING_CLOCK_GATE: idle for 1 µs at depth Quiet or deeper (R471), and not where a deque of its partition holds two tasks, which wake it. -/
def execLandingClockGate (t landing : Nat) (s : State) : Res :=
  let s := s.advance t
  let l := s.land landing
  .next (if s.running && decide (landing < s.member.landings) && decide (1 ≤ s.power.depth) && l.queued == 0 && l.running.isEmpty && !l.gated
      && decide (l.idleFrom + 1000 ≤ s.now) && !s.crowded landing
    then s.setLand landing { l with gated := true, gatedFor := 0 } else s)

/-- Landings of a Wing. -/
def wingLands (w : Nat) : List Nat := (List.range 8).map fun i => 8 * w + i

/-- Whether a Wing lies in an enabled partition. -/
def State.wingUsed (s : State) (w : Nat) : Bool := (s.landPart (8 * w)).isSome

/-- WING_POWER_GATE: gated for 16 Treads at depth Still, or in no enabled partition (R149, R471); not during a supply warning (R461). -/
def execWingPowerGate (t wing : Nat) (s : State) : Res :=
  let s := s.advance t
  let still := decide (2 ≤ s.power.depth) && (wingLands wing).all fun l => (s.land l).gated && decide (16 ≤ (s.land l).gatedFor)
  if !(s.running && decide (wing < s.member.wings) && s.power.warn.isNone && !s.power.wings.contains wing && (still || !s.wingUsed wing)) then .next s else
  let s := s.updPower fun p => { p with wings := wing :: p.wings, wingWake := p.wingWake.filter (· != wing) }
  .next ((wingLands wing).foldl (fun s l => s.updLand l fun x => x.loseStore) s |>.recount (wingLands wing))

/-- STILL_EXIT_COMPLETE: a woken Wing can run tasks (R471). -/
def execStillExitComplete (t wing : Nat) (s : State) : Res :=
  let s := s.advance t
  if !(s.power.wings.contains wing && s.power.wingWake.contains wing) then .next s else
  let s := s.updPower fun p => { p with wings := p.wings.filter (· != wing), wingWake := p.wingWake.filter (· != wing) }
  .next (((wingLands wing).foldl (fun s l => (s.updLand l fun x => { x with gated := false, gatedFor := 0, idleFrom := s.now }).stairRefill l) s).recount (wingLands wing))

/-- DORMANT_ENTRY (R472). -/
def execDormantEntry (t : Nat) (s : State) : Res :=
  let s := s.advance t
  let idle := bitsW (s.reg Reg.pwrCtrl) 15 8 * 10000000
  match s.power.idleFrom with
  | some f =>
    if s.running && !s.power.dormant && s.power.depth == 3 && s.quiet && decide (f + idle ≤ s.now) && decide (s.power.activeTo ≤ s.now) then
      let s := s.updPower fun p => { p with dormant := true, waking := none }
      let s := (List.range s.member.halls).foldl (fun s h => s.updProc (8 + h) fun p => { p with state := if p.state = 1 then 0 else p.state }) s
      .next ((s.satField Reg.pwrEvents 47 32 1).recount (List.range s.member.landings))
    else .next s
  | none => .next s

/-- DORMANT_EXIT_COMPLETE (R380, R473, R481): HFPs start, landing stores, loans and Alcove lines are lost, pinned regions are reloaded, every enabled tenant's OWN is BURST and SURPLUS 0. -/
def execDormantExitComplete (t : Nat) (s : State) : Res :=
  let s := s.advance t
  if !(s.power.dormant && s.power.waking.isSome && s.running) then .next s else
  let s := s.updPower fun p => { p with dormant := false, waking := none, idleFrom := none, activeTo := s.now + bitsW (s.reg Reg.pwrCtrl) 15 8 * 10000000 }
  let s := (List.range s.member.halls).foldl (fun s h => s.updProc (8 + h) fun p => { p with state := if p.state = 0 then 1 else p.state }) s
  -- the Alcove dies were off: their lines are lost, and firmware reloads the pinned regions from T2
  let s := s.updAlc fun a => { a with sets := [], fills := [], pins := [] }
  .next (({ s.reloadAll with
    tenants := SMap.mapVals s.tenants fun _ x => if bitW x.cfg 0 then { x with own := bitsW x.rate 63 32, surplus := 0 } else x
    lands := SMap.mapVals s.lands fun _ l => l.loseStore } : State).recount (List.range s.member.landings))

/-- CLEAR_MIN (R482). -/
def execClearMin (t fn : Nat) (s : State) : Res :=
  let s := s.advance t
  .next (if s.reach fn && s.isOwner fn then s.wakeDormant.updPower fun p => { p with vmin := p.vin } else s)

/-- WAKE: an exit from Still and Dormant starts (R473, R482). -/
def execWake (t fn : Nat) (s : State) : Res :=
  let s := s.advance t
  .next (if s.reach fn && s.isOwner fn then s.wakeDormant.updPower fun p => { p with wingWake := p.wings } else s)

/-- PERST_N_RELEASE (R525, R529). -/
def execPerstNRelease (t port : Nat) (s : State) : Res :=
  let s := s.advance t
  .next (if port < s.member.ports then s.updPort port fun p => { p with perst := false } else s)

/-- HOST_LINK_TRAINED: the link is up and its LTR values count (R335, R470, R483). -/
def execHostLinkTrained (t port : Nat) (ltr : List LtrVal) (s : State) : Res :=
  let s := s.advance t
  if !(s.running && decide (port < s.member.ports) && !(s.port port).perst) then .next s else
  let s := s.updPort port fun p => { p with linkUp := true }
  let s := ltr.foldl (fun s v => if v.pf < s.pfCount port then
    s.updFn (fnId port v.pf 0) fun f => { f with ltrEn := v.enable, ltrSnoop := v.snoop, ltrNoSnoop := v.noSnoop, relaxed := v.relaxed } else s) s
  .next s.evalDepth

end Sys2Proof.Machine
end

