-- ==== Sys2Proof/Machine/Gallery.lean ====
section
/-! DEFINITION. Gallery ports, HELLO, peers, replay, heartbeats, loss and rejoin, exports (14_gallery_links_and_time, R389 to R403). -/

namespace Sys2Proof.Machine

open Sys2Proof

def State.galPort (s : State) (p : Nat) : GalPort := SMap.at s.gal.ports p {}
def State.updGal (s : State) (g : Gallery → Gallery) : State := { s with gal := g s.gal }
def State.updGalPort (s : State) (p : Nat) (g : GalPort → GalPort) : State :=
  s.updGal fun x => { x with ports := SMap.put x.ports p (g (s.galPort p)) }
def State.peer (s : State) (p : Nat) : Peer := SMap.at s.gal.peers p {}
def State.updPeer (s : State) (p : Nat) (g : Peer → Peer) : State :=
  s.updGal fun x => { x with peers := SMap.put x.peers p (g (s.peer p)) }
/-- The port carries traffic (R394). -/
def GalPort.up (p : GalPort) : Bool := p.state == 2 || p.state == 3
/-- Generation a is later than b (R396, R400), modulo 256. -/
def genLater (a b : Nat) : Bool :=
  let d := (a + 256 - b % 256) % 256
  decide (1 ≤ d) && decide (d ≤ 127)

/-- A port goes down (R389, R391). -/
def State.galDown (s : State) (p : Nat) (st : Nat) : State :=
  ((s.updGalPort p fun x => { x with state := st, lanes := 0, replays := 0 }).updGal fun g => { g with reroute := true }).orReg Reg.galStatus 6

/-- Whether a port of this member is enabled and the module has a Gallery record (R393, R403, R413). -/
def State.galPortOk (s : State) (p : Nat) : Bool :=
  s.running && s.gal.enabled && decide (p < s.member.galPorts) && bitW (s.reg (Reg.galPortCtrl p)) 0

/-- The module's HELLO (R394). -/
def State.helloMsg (s : State) : GalMsg :=
  .hello s.gal.moduleId s.gal.groupTag (s.regN Reg.idOrderCode) s.fuses.behaviour s.fw.ifVer s.gal.ownGen

/-- GALLERY_LINK_TRAINED: training ends and the port sends its HELLO (R394); a link of four lanes needs ALLOW_X4. -/
def execGalleryLinkTrained (t port lanes : Nat) (s : State) : Res :=
  let s := s.advance t
  if !s.galPortOk port || (s.proc (4 + port / 3)).state != 1 || (lanes != 8 && !bitW (s.reg (Reg.galPortCtrl port)) 1) then .next s else
  .next ((s.updGalPort port fun x => { x with state := 1, lanes := lanes }).send (.galPort port s.helloMsg))

/-- GALLERY_LANE_LOSS: the port retrains at x4, or goes down (R389). -/
def execGalleryLaneLoss (t port : Nat) (halfTrains : Bool) (s : State) : Res :=
  let s := s.advance t
  if !s.galPortOk port || !((s.galPort port).up || (s.galPort port).state == 1) then .next s
  else if halfTrains && bitW (s.reg (Reg.galPortCtrl port)) 1 then
    .next ((s.updGalPort port fun x => { x with state := 1, lanes := 4 }).updGal fun g => { g with reroute := true })
  else .next (s.galDown port 0)

/-- Bits of GAL_STATUS for which a HELLO is refused (R394): group, interface, module ID. A second link to the same present peer is no duplicate (log entry 13). -/
def State.helloRefusal (s : State) (port : Nat) (m : HelloMsg) : Nat :=
  let p := s.peer m.moduleId
  b2n (m.groupTag != s.gal.groupTag)
    + 2 * b2n (m.behaviour != s.fuses.behaviour || m.ifVersion / 65536 != s.fw.ifVer / 65536)
    + 4 * b2n (m.moduleId == s.gal.moduleId || (p.state == 2 && p.port != port && p.order != m.orderCode))

/-- HELLO (R394, R396, R402): the port is refused, or the peer is answered with its expected generation, or it joins at the next boundary. -/
def execHello (t port : Nat) (msg : HelloMsg) (s : State) : Res :=
  let s := s.advance t
  let g := s.galPort port
  if !s.galPortOk port || g.state = 0 || g.state = 4 then .next s else
  let e := s.helloRefusal port msg
  if e != 0 then
    .next (((s.updGalPort port fun x => { x with state := 4, peer := msg.moduleId, peerPort := msg.peerPort }).updGal fun x => { x with reroute := true }).setReg
      Reg.galStatus (s.reg Reg.galStatus ||| BitVec.ofNat 64 e))
  else
    let s := (s.updGalPort port fun x => { x with state := if x.lanes = 8 then 2 else 3, peer := msg.moduleId, peerPort := msg.peerPort }).updGal
      fun x => { x with reroute := true }
    let p := s.peer msg.moduleId
    if genLater p.expGen msg.gen then .next (s.send (.galPort port (.expected p.expGen)))
    else
      let st := if p.state = 2 then 2 else 1
      .next (s.updPeer msg.moduleId fun x => { x with state := st, expGen := msg.gen, lastFlit := s.now, order := msg.orderCode })

/-- FLIT_ERROR: the flit is not delivered and a replay is requested (R391). -/
def execFlitError (t port seq : Nat) (s : State) : Res :=
  let s := s.advance t
  .next (if s.galPortOk port && (s.galPort port).up then s.send (.galPort port (.replayRequest seq)) else s)

/-- REPLAY_REQUEST: the sender replays from the failed flit on; 16 replays of one flit take the port down to retrain (R391). -/
def execReplayRequest (t port seq : Nat) (s : State) : Res :=
  let s := s.advance t
  let g := s.galPort port
  if !s.galPortOk port || !g.up then .next s else
  let n := if g.replaySeq = seq then g.replays + 1 else 1
  let s := s.updGalPort port fun x => { x with replaySeq := seq, replays := n, replayed := satAdd 16 x.replayed 1 }
  .next (if 16 ≤ n then s.galDown port 1 else s.send (.galPort port (.replayFrom seq)))

/-- STALE_FLIT_DROP: flits with another generation than the expected one are dropped and counted (R396). -/
def State.staleFlits (s : State) (peer count : Nat) : State :=
  let s := s.updPeer peer fun x => { x with stale := x.stale + count }
  (s.updGal fun g => { g with stale := satAdd 32 g.stale count }).orReg Reg.galStatus 4

def execStaleFlitDrop (t peer gen count : Nat) (s : State) : Res :=
  let s := s.advance t
  .next (if s.running && s.gal.enabled && decide (peer < 16) && gen != (s.peer peer).expGen && count != 0 then s.staleFlits peer count else s)

/-- Present peers, ascending. -/
def State.presentPeers (s : State) : List Nat := SMap.keysOf s.gal.peers fun _ p => p.state == 2

/-- HEARTBEAT_SEND: a heartbeat to each present peer (R400). -/
def execHeartbeatSend (t : Nat) (s : State) : Res :=
  let s := s.advance t
  .next (if s.running then s.presentPeers.foldl (fun s p => s.send (.gal p 3 .heartbeat)) s else s)

/-- HEARTBEAT: refreshes a peer's liveness, or is dropped as stale (R396, R400). -/
def execHeartbeat (t port peer gen : Nat) (s : State) : Res :=
  let s := s.advance t
  if !s.galPortOk port || !(s.galPort port).up || !decide (peer < 16) then .next s
  else if gen = (s.peer peer).expGen then .next (s.updPeer peer fun x => { x with lastFlit := s.now })
  else .next (s.staleFlits peer 1)

/-- PEER_LOSS_TIMEOUT: no flit for GAL_LOSS.TIMEOUT; the peer is declared lost at the next boundary (R400). -/
def execPeerLossTimeout (t peer : Nat) (s : State) : Res :=
  let s := s.advance t
  let p := s.peer peer
  .next (if s.running && p.state == 2 && decide (p.lastFlit + 1000 * bitsW (s.reg Reg.galLoss) 19 0 ≤ s.now)
    then s.updPeer peer fun x => { x with timedOut := true } else s)

/-- DECLARE_PEER_LOST: GAL_CMD OP 2 (R400, R403). -/
def execDeclarePeerLost (t fn peer : Nat) (s : State) : Res :=
  let s := s.advance t
  .next (if s.reach fn && s.isOwner fn && decide (peer < 16) && (s.peer peer).state == 2
    then s.wakeDormant.updPeer peer fun x => { x with declare := true } else s)

/-- RETRAIN_PORT: GAL_CMD OP 1 (R403). -/
def execRetrainPort (t fn port : Nat) (s : State) : Res :=
  let s := s.advance t
  .next (if s.reach fn && s.isOwner fn && s.galPortOk port
    then (s.wakeDormant.updGalPort port fun x => { x with state := 1, lanes := 0 }).updGal fun g => { g with reroute := true } else s)

/-- LOSS_NOTICE: the receiver adopts the later of its own value and the notice's; a notice about this module gives its own generation (R396, R400). -/
def execLossNotice (t peer : Nat) (msg : LossMsg) (s : State) : Res :=
  let s := s.advance t
  if !s.running || !s.gal.enabled || !decide (peer < 16) then .next s
  else if msg.about = s.gal.moduleId then
    .next (s.updGal fun g => { g with ownGen := if genLater msg.gen g.ownGen then msg.gen else g.ownGen })
  else if decide (msg.about < 16) then
    .next (s.updPeer msg.about fun x => { x with expGen := if genLater msg.gen x.expGen then msg.gen else x.expGen })
  else .next s

/-- A request that depends on a lost peer ends; the Balustrade treats it as withheld with PEER_LOST (R400, R401). -/
def State.peerEnd (s : State) (slot record : Nat) : State :=
  match s.req? slot with
  | none => s
  | some r =>
    let s := s.dropTasks slot
    s.setReq slot { r.halt s.now with peerLost := true, doubt := r.doubt ||| 0x80, doubtRec := some (r.doubtRec.getD record),
                                      doubtStep := if r.doubt = 0 then s.curStepId slot else r.doubtStep }

/-- The staging buffers that a peer's step held or waited for (R329). -/
def Objs.dropStaging (o : Objs) (p : Nat) : Objs :=
  let o := { o with stageWait := o.stageWait.filter fun e => e.1 != p }
  match o.stageBy with
  | some e => if e.1 = p then { o with stageBy := none, staged := [] } else o
  | none => o

/-- Declares a peer lost at a boundary (R400, R397). -/
def State.losePeer (s : State) (p : Nat) : State :=
  let gen := ((s.peer p).expGen + 1) % 256
  let s := s.updPeer p fun x => { x with state := 3, expGen := gen, declare := false, timedOut := false, links := [] }
  let s := s.updGal fun g => { g with reroute := true }
  let s := s.presentPeers.foldl (fun s q => s.send (.gal q 3 (.lossNotice p gen))) s
  let ends := SMap.keysOf s.reqs fun _ r => r.needs.contains p && r.phase != .epoch && r.peer.isNone
  let s := { s with objs := s.objs.dropStaging p }
  let subs := SMap.keysOf s.reqs fun _ r => match r.peer with | some q => q.1 == p | none => false
  -- a source peer that is lost puts the counter into HOLDOVER (R405, R407)
  let s := if s.timeSrc == 3 && s.timePeer == p then s.enterHoldover else s
  let record := s.flt.seq
  let s := (s.orReg Reg.galStatus 3).emit { kind := 0x0D, sev := 3, unit := p, count := ends.length, detail := p + shl gen 8 }
  let s := subs.foldl State.freeSlot s
  ends.foldl (fun s k => s.peerEnd k record) s

/-- Ports whose link leads to a module that passes. -/
def State.portsTo (s : State) (is : Nat → Bool) : List Nat := SMap.keysOf s.gal.ports fun _ g => g.up && is g.peer
/-- The modules that this module's ports reach. -/
def State.ownLinks (s : State) : List Nat := (List.range 16).filter fun m => !(s.portsTo (· == m)).isEmpty
/-- The route to a peer over the links that HELLO has accepted (R395): hops, at most 3, and the lowest local port of a way with the fewest; (0, 0) where there is none. -/
def State.routeTo (s : State) (p : Nat) : Nat × Nat :=
  let near := fun n m => (s.peer n).links.contains m
  let ways := [s.portsTo (· == p), s.portsTo fun n => near n p, s.portsTo fun n => (s.peer n).links.any fun m => near m p]
  match (List.range 3).find? fun i => !(ways.getD i []).isEmpty with
  | some i => (i + 1, ((ways.getD i []).head?).getD 0)
  | none => (0, 0)
/-- Management firmware's routes, at the first boundary after a port changed its state or a peer reported other links (R395). -/
def State.reroutes (s : State) : State :=
  if !s.gal.reroute then s else
  s.updGal fun g => { g with reroute := false, peers := SMap.mapVals g.peers fun p x => { x with hops := (s.routeTo p).1, port := (s.routeTo p).2 } }

/-- A partition accepts sub-requests (R398): bits of GAL_PART[p].ACCEPT. -/
def State.acceptMask (s : State) : Nat :=
  (List.range 16).foldl (fun m p => m + shl (b2n (bitW (s.reg (Reg.galPart p)) 8)) p) 0

/-- What the Gallery does at a boundary: losses, rejoins, routes, stale records (R395, R396, R400, R402). -/
def State.galBoundary (s : State) : State :=
  let lost := SMap.keysOf s.gal.peers fun _ p => p.state == 2 && (p.declare || p.timedOut)
  let s := lost.foldl State.losePeer s
  let join := SMap.keysOf s.gal.peers fun _ p => p.state == 1
  let s := join.foldl (fun s p => s.updPeer p fun x => { x with state := 2, lastFlit := s.now }) s
  let stale := s.gal.peers.filter fun e => e.2.stale != 0
  let s := stale.foldl (fun s e => (s.updPeer e.1 fun x => { x with stale := 0 }).emit
    { kind := 0x0E, sev := 2, unit := e.1, count := e.2.stale, detail := e.1 }) s
  s.reroutes

/-- PEER_DIRECTORY: index states, generations and ACCEPT bits of a present peer (R398). -/
def execPeerDirectory (t peer : Nat) (dir : PeerDir) (s : State) : Res :=
  let s := s.advance t
  .next (if s.running && (s.peer peer).state == 2
    then (s.updPeer peer fun x => { x with ready := dir.ready, accept := dir.accept, links := dir.links, lastFlit := s.now }).updGal fun g =>
      { g with reroute := g.reroute || dir.links != (s.peer peer).links }
    else s)

end Sys2Proof.Machine
end

