-- ==== Sys2Proof/Machine/Counters.lean ====
section
/-! DEFINITION. Performance counters, scheduled actions and sampling (19_performance_counters). -/

namespace Sys2Proof.Machine

open Sys2Proof

/-- Events of R508, and those marked as occupancies. -/
def eventCodes : List Nat :=
  [0x01, 0x02, 0x03, 0x04, 0x05, 0x06, 0x07, 0x08, 0x09, 0x0A, 0x0B, 0x10, 0x11, 0x12, 0x13, 0x14, 0x15, 0x16, 0x17, 0x18] ++
  [0x20, 0x21, 0x22, 0x23, 0x24, 0x25, 0x26, 0x27, 0x28, 0x29, 0x2A, 0x30, 0x31, 0x32, 0x33, 0x34, 0x38]
def eventOcc (e : Nat) : Bool := [0x08, 0x15, 0x22, 0x23].contains e

/-- Adds to a programmable counter; on passing 2^48 − 1 it wraps and its CNT_OVF bit is set (R506). -/
def Counters.add (c : Counters) (i n : Nat) : Counters :=
  let v := SMap.at c.prog i 0 + n
  { c with prog := SMap.put c.prog i (v % 2 ^ 48), ovf := if 2 ^ 48 ≤ v then c.ovf ||| 2 ^ i else c.ovf }

/-- Whether a selection counts an event of a task (R507). -/
def selCounts (sel event : Nat) (spec : Bool) (kind : Nat) : Bool :=
  bitsN sel 7 0 == event && bitsN sel 21 20 == 0 && (bitsN sel 23 22 == 0 || bitsN sel 23 22 == (if spec then 2 else 1))
    && (!bitN sel 28 || bitsN sel 27 24 == kind)

/-- Counts n occurrences of an event of a task on a landing (R506, R507); frozen counters stand (R510). -/
def State.countLand (s : State) (l event n : Nat) (spec : Bool) (kind : Nat) : State :=
  if s.cnt.frozen || n = 0 || event = 0 then s else
  s.updLand l fun x => { x with cnt := (List.range 8).foldl (fun c i =>
    if selCounts (SMap.at c.evsel i 0) event spec kind then c.add i n else c) x.cnt }

/-- Applies a change to every landing's counter block. -/
def State.allCnt (s : State) (g : Counters → Counters) : State :=
  (List.range s.member.landings).foldl (fun s l => s.updLand l fun x => { x with cnt := g x.cnt }) s

/-- A counter action of R510. -/
def State.cntAction (s : State) (op : Nat) : State :=
  match op with
  | 1 => if s.cnt.frozen then s else
      let s := s.allCnt fun c => c.stopCyc s.now
      { s with cnt := { s.cnt with frozen := true } }
  | 2 => if !s.cnt.frozen then s else
      let s := (List.range s.member.landings).foldl (fun s l => s.updLand l fun x =>
        if s.power.dormant || x.phys.isNone || s.power.wings.contains (landWing l) then x else { x with cnt := x.cnt.startCyc s.now }) s
      { s with cnt := { s.cnt with frozen := false } }
  | 3 =>
      let s := s.allCnt fun c => { c with snapCyc := c.cycles s.now, snapProg := c.prog }
      { s with cnt := { s.cnt with snapSeq := (s.cnt.snapSeq + 1) % 65536, snapTime := s.now, snapPart := s.cnt.part } }
  | 4 =>
      let s := s.allCnt fun c => { c with cycBase := 0, cycFrom := c.cycFrom.map fun _ => s.now, prog := [], ovf := 0, entries := [], head := 0,
                                          wrapped := false, lost := false, total := 0 }
      { s with cnt := { s.cnt with part := [] } }
  | _ => s

/-- EVSEL_WRITE (R506, R507, R514): on the landing of the function's CNT_SEL. -/
def execEvselWrite (t fn i : Nat) (value : Word) (s : State) : Res :=
  let s := s.advance t
  if !(s.reach fn && s.isOwner fn) || decide (8 ≤ i) then .next s else
  let s := s.wakeDormant
  let e := bitsW value 7 0
  let mode := bitsW value 21 20
  let l := (s.fnOf fn).cntSel
  if (e != 0 && !eventCodes.contains e) || ((mode == 1 || mode == 2) && !eventOcc e) || mode == 3 then .next (s.orReg Reg.cntStatus 1)
  else if s.member.landings ≤ l then .next s
  else
    let v := value.toNat &&& 0x1FF7FFFF
    .next (s.updLand l fun x => { x with cnt := { x.cnt with evsel := SMap.put x.cnt.evsel i v, prog := SMap.put x.cnt.prog i 0,
                                                             ovf := x.cnt.ovf &&& (255 - 2 ^ i) } })

/-- Applies schedule entry j and re-arms or clears it (R511). -/
def State.schedApply (s : State) (j : Nat) : State :=
  let c := s.reg (Reg.cntSchedCtrl j)
  let rep := bitsW c 23 8
  let late := bitN s.cnt.late j
  let s := if late then { s with cnt := { s.cnt with late := s.cnt.late - 2 ^ j } }.orReg Reg.cntStatus 0 else s
  let s := s.cntAction (bitsW c 3 1)
  if rep = 0 then s.setReg (Reg.cntSchedCtrl j) (clrBitW c 0)
  else s.setRegN (Reg.cntSchedTime j) (s.regN (Reg.cntSchedTime j) + rep * s.newel.len)

/-- The schedule entries that apply at a boundary (action 2 of R125), ascending (R512). -/
def State.schedBoundary (s : State) : State :=
  (List.range 4).foldl (fun s j =>
    let c := s.reg (Reg.cntSchedCtrl j)
    if bitW c 0 && decide (s.regN (Reg.cntSchedTime j) ≤ s.now) && (!bitW c 4 || bitN s.cnt.late j) then s.schedApply j else s) s

/-- Whether an AT_TIME entry has fallen due (R511); a late one waits for the boundary. -/
def State.schedDue (s : State) (j : Nat) : Bool :=
  let c := s.reg (Reg.cntSchedCtrl j)
  bitW c 0 && bitW c 4 && !bitN s.cnt.late j && decide (s.regN (Reg.cntSchedTime j) ≤ s.now)
/-- The due entries that apply before entry j: those due earlier, and those of one instant with a lower number (R512). -/
def State.schedBefore (s : State) (j : Nat) : List Nat :=
  let time := fun k => s.regN (Reg.cntSchedTime k)
  (List.range 4).filter fun k => s.schedDue k && (decide (time k < time j) || (time k == time j && decide (k < j)))
/-- The entries that are due apply, the earliest first. -/
def State.schedRun : Nat → State → State
  | 0, s => s
  | n + 1, s => match (List.range 4).find? fun j => s.schedDue j && (s.schedBefore j).isEmpty with | some j => State.schedRun n (s.schedApply j) | none => s
def State.schedNow (s : State) : State := State.schedRun ((List.range 4).filter s.schedDue).length s

/-- A CNT_CMD write of the owner (R510, R514): scheduled entries that are due apply before it (R512). -/
def State.cntCmd (s : State) (fn op : Nat) : State :=
  if s.reach fn && s.isOwner fn then s.wakeDormant.schedNow.cntAction op else s

/-- FREEZE (R510). -/
def execFreeze (t fn : Nat) (s : State) : Res := .next ((s.advance t).cntCmd fn 1)
/-- UNFREEZE (R510). -/
def execUnfreeze (t fn : Nat) (s : State) : Res := .next ((s.advance t).cntCmd fn 2)
/-- SNAPSHOT (R510). -/
def execSnapshot (t fn : Nat) (s : State) : Res := .next ((s.advance t).cntCmd fn 3)
/-- CLEAR (R510). -/
def execClear (t fn : Nat) (s : State) : Res := .next ((s.advance t).cntCmd fn 4)

/-- SCHEDULED_COUNTER_ACTION: an AT_TIME entry falls due; coinciding ones apply in ascending order (R511, R512). -/
def execScheduledCounterAction (t j : Nat) (s : State) : Res :=
  let s := s.advance t
  .next (if s.running && decide (j < 4) && s.schedDue j && (s.schedBefore j).isEmpty then s.schedApply j else s)

/-- PROG_COUNTER_WRAP: cycles that the commands do not show add `amount` to a counter, which wraps (R506). -/
def execProgCounterWrap (t landing i amount : Nat) (s : State) : Res :=
  let s := s.advance t
  .next (if s.running && !s.cnt.frozen && decide (landing < s.member.landings) && decide (i < 8)
    then s.updLand landing fun x => { x with cnt := x.cnt.add i amount } else s)

/-- One sampling entry's 32 bytes (R513). -/
def sampleBytes (time l number : Nat) (e : SampleFields) : Blob :=
  leBytes 8 time ++ leBytes 4 e.step ++ leBytes 4 e.instr ++ leBytes 4 (min e.latency (2 ^ 32 - 1)) ++ leBytes 1 e.event
    ++ leBytes 1 (b2n e.spec) ++ leBytes 2 l ++ leBytes 1 (e.part % 16) ++ zeros 3 ++ leBytes 4 number

/-- Adds a sample to a buffer of 1,024 entries (R513). -/
def Counters.sample (c : Counters) (b : Nat → Blob) : Counters :=
  let full := 1024 ≤ c.entries.length && !bitN c.smpCfg 28
  let n := (c.total + 1) % 2 ^ 32
  if full then { c with total := n, lost := true }
  else { c with total := n, entries := SMap.put c.entries c.head (b n), head := (c.head + 1) % 1024, wrapped := c.wrapped || decide (1024 ≤ c.entries.length) }

/-- SAMPLE_WRITE: the P-th occurrence of the sampled event (R513). -/
def execSampleWrite (t landing : Nat) (entry : SampleFields) (s : State) : Res :=
  let s := s.advance t
  let c := (s.land landing).cnt
  .next (if s.running && !s.cnt.frozen && decide (landing < s.member.landings) && bitN c.smpCfg 31 && bitsN c.smpCfg 7 0 == entry.event
      && bitsN c.smpCfg 27 8 != 0 && !eventOcc entry.event
    then s.updLand landing fun x => { x with cnt := x.cnt.sample fun n => sampleBytes s.now landing n entry } else s)

end Sys2Proof.Machine
end

