-- ==== Sys2Proof/Machine/Units.lean ====
section
/-! DEFINITION. Micro-programs, function tables, walker programs, normalisation slots, and the pins, regions and pseudo-channel sets of the memory (03 R79 to R91, 04 R98 to R119, 06 R156 and R158). -/

namespace Sys2Proof.Machine

open Sys2Proof

/-! ## Micro-programs (R80 to R83) -/

def Prog.word (p : Prog) (i : Nat) : Word := p.words.getD i 0
def mOp (w : Word) : Nat := bitsW w 63 58
def mDeg (w : Word) : Nat := bitsW w 35 33
def mCidx (w : Word) : Nat := bitsW w 45 41
def mTbl (w : Word) : Nat := bitsW w 40 36
def mCsrc (w : Word) : Bool := bitW w 32
def mImm (w : Word) : Nat := bitsW w 31 0

/-- What a micro-program can see: the built-ins of its request's mode (R87), its slot's constants and the committed tables (R83). -/
structure MicroEnv where
  bfn    : Nat → F32 → F32
  consts : List F32
  table  : Nat → Int → F32

/-- An FP32 value as the nearest integer, ties to even. -/
def roundEven (x : F32) : Int :=
  match F.dec x with
  | .fin s m e => F.sval s (if 0 ≤ e then m <<< e.toNat else (F.rne (F.blen m + 1) 0 m e false).1)
  | _ => 0

/-- Registers hold FP32 bits; an integer result stands in a register as a two's-complement number. -/
def asInt (x : F32) : Int := x.toInt

/-- The entry of a committed table: an index outside 0 to 1,023 reads 0, and a coefficient run is not clamped to a segment; R81 states neither (DESIGN CHOICE, log entry 60). -/
def tableEntry (t : Option Prog) (i : Int) : F32 :=
  if i < 0 then 0 else match t with | some p => (p.words.getD i.toNat 0).setWidth 32 | none => 0

/-- One micro-operation on r0 to r7 (R81). Points that R81 leaves open (DESIGN CHOICE, log entry 60): an RRED with SB equal to DST leaves DST's value; its n is 0 for a NaN or an infinity, the
two's-complement low 32 bits for a larger integer, and the integer nearest to the product rounded to FP32; the coefficients of a table stand with the constant term at the lowest index. -/
def microOp (env : MicroEnv) (w : Word) (r : List F32) : List F32 :=
  let g := fun i => r.getD i 0
  let a := g (bitsW w 54 52)
  let sb := bitsW w 51 49
  let b := g sb
  let c := g (bitsW w 48 46)
  let k := fun i => env.consts.getD (mCidx w + i) 0
  let imm := mImm w
  let put := fun x => r.set (bitsW w 57 55) x
  match mOp w with
  | 0x01 =>
    let n := roundEven (F.mul a (k 2))
    let nf := F.ofInt (-n)
    (r.set sb (BitVec.ofInt 32 n)).set (bitsW w 57 55) (F.fma nf (k 1) (F.fma nf (k 0) a))
  | 0x02 => put (BitVec.ofNat 32 (min 1023 (((a.toNat >>> bitsN imm 4 0) &&& bitsN imm 14 5) + bitsN imm 24 15)))
  | 0x03 => put (env.table (mTbl w) (asInt b))
  | 0x04 =>
    let coef := fun (i : Nat) => if mCsrc w then env.table (mTbl w) (8 * asInt b + (i : Int)) else k i
    let d := mDeg w
    put ((List.range d).foldl (fun acc i => F.fma acc a (coef (d - 1 - i))) (coef d))
  | 0x05 => put (F.fma a b c)
  | 0x06 => put (F.add a b)
  | 0x07 => put (F.mul a b)
  | 0x08 => put (F.add a (k 0))
  | 0x09 => put (F.mul a (k 0))
  | 0x0A => put (match F.dec a with | .fin s m e => F.round s m (e + asInt b) | .inf s => F.infOf s | .nan => F.qnan)
  | 0x0B => put (F.minimum a (if bitN imm 0 then k 0 else b))
  | 0x0C => put (F.maximum a (if bitN imm 0 then k 0 else b))
  | 0x0D => put (F.abs a)
  | 0x0E => put (F.neg a)
  | 0x0F => put (if F.isNan a then F.qnan else (a &&& 0x7FFFFFFF) ||| (b &&& 0x80000000))
  | 0x10 => put (if F.lt a (k 0) then b else c)
  | 0x11 => put (env.bfn (bitsN imm 8 0) a)
  | _ => r

/-- Runs the words up to END; r0 is the result. -/
def microRun (env : MicroEnv) : List Word → List F32 → F32
  | [], r => r.getD 0 0
  | w :: ws, r => if mOp w = 0x3F then r.getD 0 0 else microRun env ws (microOp env w r)

/-- The special-value codes of R82; none runs the program. Codes 9 to 15, which R82 does not list, run it too (DESIGN CHOICE, log entry 60). -/
def specialValue (code : Nat) (x : F32) : Option F32 :=
  match code with
  | 1 => some F.zero | 2 => some F.negZero | 3 => some F.pinf | 4 => some F.ninf | 5 => some F.qnan
  | 6 => some F.one | 7 => some 0xBF800000 | 8 => some x | _ => none

/-- A micro-program applied to an input (R82): the special-value word first; a NaN that arises is the quiet NaN. -/
def microApply (env : MicroEnv) (p : Prog) (x : F32) : F32 :=
  let sp := p.special.toNat
  let code := if F.isNan x then bitsN sp 3 0 else if x = F.ninf then bitsN sp 7 4 else if x = F.pinf then bitsN sp 11 8
    else if x = F.negZero then bitsN sp 15 12 else if x = F.zero then bitsN sp 19 16 else 0
  match specialValue code x with
  | some y => y
  | none =>
    if F.isNan x then F.qnan else
    let y := microRun env p.words (x :: List.replicate 7 0)
    if F.isNan y then F.qnan else y

/-- The environment of a slot's program: a fixed function of the slot, the committed tables, the SFU revision and the mode (R83, R87). -/
def State.microEnv (s : State) (rilqua : Bool) (p : Prog) : MicroEnv :=
  { bfn := F.sfu (bitsN s.fuses.behaviour 23 16) rilqua, consts := p.consts, table := fun t i => tableEntry (SMap.find s.units.tbl.done t) i }

/-- A function code of a step (R70): a built-in, or 0x100 + s for micro-program slot s; none where it names neither. -/
def State.sfuCode (s : State) (rilqua : Bool) (code : Nat) : Option (F32 → F32) :=
  if F.builtIn code then some (F.sfu (bitsN s.fuses.behaviour 23 16) rilqua code)
  else if 256 ≤ code ∧ code < 512 then (SMap.find s.units.mp.done (code - 256)).map fun p x => microApply (s.microEnv rilqua p) p x
  else none

/-! ## Staging and commit (R84, R85, R111) -/

/-- A commit outcome: state 3 with the error and the word's index, or the program. -/
abbrev Checked := Except (Nat × Nat) Prog

/-- CRC-32C of a slot: words, constants, special word (R90). -/
def Prog.digest (p : Prog) : Nat :=
  (crc32c (p.words.flatMap (fun w => leBytes 8 w.toNat) ++ p.consts.flatMap (fun c => leBytes 4 c.toNat) ++ leBytes 4 p.special.toNat)).toNat
/-- CRC-32C of a walker program's instructions (R118). -/
def Prog.walkDigest (p : Prog) : Nat := (crc32c (p.words.flatMap fun w => leBytes 8 w.toNat)).toNat
/-- The walker programs: 0 to 15 of the firmware image, the others as committed (R111). -/
def State.walker (s : State) (n : Nat) : Option Prog :=
  if n < 16 then some { words := Config.walkProg s.fw.release n } else SMap.find s.units.walk.done n

/-- The slots a resident image lists, with their CRCs (R86): entries of 8 bytes, number and CRC (log entry 24). -/
def imgList (img : Blob) (section_ : Nat) : List (Nat × Nat) :=
  let off := Blob.u64 img (64 + 16 * section_)
  let len := Blob.u64 img (72 + 16 * section_)
  (List.range (len / 8)).map fun i => (Blob.u32 img (off + 8 * i), Blob.u32 img (off + 8 * i + 4))

/-- Every resident object of MODEL_LOAD. -/
def Objs.all (o : Objs) : List Model := (o.models ++ o.sets ++ o.steers ++ o.grammars).map Prod.snd

/-- Numbers of section 2 (micro-programs) or 3 (walker programs) that resident objects list. -/
def State.listed (s : State) (section_ : Nat) : List Nat := s.objs.all.flatMap fun m => (imgList m.image section_).map Prod.fst

/-- Whether a micro-operation reads a function table. -/
def readsTable (w : Word) (t : Nat) : Bool := (mOp w == 0x03 || (mOp w == 0x04 && mCsrc w)) && mTbl w == t

/-- Whether a resident model references any slot that reads the table (R85). -/
def State.tableUsed (s : State) (t : Nat) : Bool :=
  (s.listed 2).any fun k => match SMap.find s.units.mp.done k with | some p => p.words.any fun w => readsTable w t | none => false

/-- The error of a micro-operation, 0 when it has none (R85). -/
def State.microErr (s : State) (w : Word) : Nat :=
  let op := mOp w
  let empty := (SMap.find s.units.tbl.done (mTbl w)).isNone
  if !((decide (1 ≤ op) && decide (op ≤ 0x11)) || op == 0x3F) then 1
  else if op = 0x04 && mDeg w = 0 then 2
  else if op = 0x11 && !F.builtIn (bitsW w 8 0) then 3
  else if (op = 0x03 || (op = 0x04 && mCsrc w)) && empty then 3
  else if op = 0x01 && 29 < mCidx w then 8
  else if op = 0x04 && !mCsrc w && 31 < mCidx w + mDeg w then 8
  else 0

/-- The error of a walker instruction (R110, R111). -/
def walkErr (w : Word) : Nat :=
  let op := mOp w
  if !((decide (1 ≤ op) && decide (op ≤ 0x0F)) || op == 0x3F) then 1
  else if op = 0x02 && (7 < bitsW w 9 6 || 63 < bitsW w 5 0 + bitsW w 9 6) then 8
  else 0

/-- Checks staged words up to END: the words, or the first failure. A place that was not staged has no word and so no END follows. -/
def checkWords (err : Word → Nat) (staged : SMap Word) (n : Nat) : Except (Nat × Nat) (List Word) :=
  let rec go : Nat → Nat → List Word → Except (Nat × Nat) (List Word)
    | 0, i, _ => .error (4, i)
    | k + 1, i, acc =>
      match SMap.find staged i with
      | none => .error (4, i)
      | some w =>
        if err w != 0 then .error (err w, i)
        else if mOp w = 0x3F then .ok (acc ++ [w])
        else go k (i + 1) (acc ++ [w])
  go n 0 []

def statusWord (st err idx : Nat) : Nat := st + shl err 4 + shl (idx % 128) 8

/-- Whether a slot owner's command reaches the block (R84, R90). -/
def State.ownerCmd (s : State) (fn : Nat) : Bool := s.reach fn && s.isOwner fn

def State.updUnits (s : State) (g : Units → Units) : State := { s with units := g s.units }

def Loader.fail (l : Loader) (e i : Nat) : Loader := { l with status := statusWord 3 e i }
/-- A passed check waits for the boundary. -/
def Loader.hold (l : Loader) (n : Nat) (p : Option Prog) : Loader := { l with status := 1, pend := SMap.put l.pend n p }

/-- The staged micro-program slot (R85). -/
def State.mpCheck (s : State) : Except (Nat × Nat) Prog :=
  match checkWords s.microErr s.units.mp.staged 65 with
  | .error e => .error e
  | .ok ws => .ok { words := ws, consts := (List.range 32).map (fun i => (s.reg (Reg.sfuMpConst i)).setWidth 32),
                    special := (s.reg Reg.sfuMpSpecial).setWidth 32 }

/-- A commit or a clear of a unit: the lock, a reference, an overflow, then the content (R85, R91, R111). -/
def Loader.command (l : Loader) (locked referenced : Bool) (n : Nat) (content : Option (Except (Nat × Nat) Prog)) : Loader :=
  if locked then l.fail 6 0
  else match content with
    | none => if referenced then l.fail 5 0 else l.hold n none
    | some c =>
      if l.overrun then l.fail 7 0
      else match c with
        | .error e => l.fail e.1 e.2
        | .ok p => if referenced then l.fail 5 0 else l.hold n (some p)

/-- Stores a word at the index of a selector and advances the index; past `top` the word is discarded and the staging overflows (R84, R90). -/
def State.stageWord (s : State) (sel hi lo top : Nat) (l : Loader) (v : Word) : State × Loader :=
  let i := bitsW (s.reg sel) hi lo
  if top ≤ i then (s, { l with overrun := true })
  else (s.setReg sel (putBitsW (s.reg sel) hi lo (i + 1)), { l with staged := SMap.put l.staged i v })

/-- MP_DATA_WRITE (R84, R90). -/
def execMpDataWrite (t fn : Nat) (value : Word) (s : State) : Res :=
  let s := s.advance t
  if !s.ownerCmd fn then .next s else
  let r := s.wakeDormant.stageWord Reg.sfuMpSel 14 8 65 s.units.mp value
  .next (r.1.updUnits fun u => { u with mp := r.2 })

/-- MP_COMMIT (R85). -/
def execMpCommit (t fn : Nat) (s : State) : Res :=
  let s := s.advance t
  if !s.ownerCmd fn then .next s else
  let n := bitsW (s.reg Reg.sfuMpSel) 7 0
  .next (s.wakeDormant.updUnits fun u => { u with mp := u.mp.command (bitW (s.reg Reg.sfuLock) 0) ((s.listed 2).contains n) n (some s.mpCheck) })

/-- MP_CLEAR (R90). -/
def execMpClear (t fn : Nat) (s : State) : Res :=
  let s := s.advance t
  if !s.ownerCmd fn then .next s else
  let n := bitsW (s.reg Reg.sfuMpSel) 7 0
  .next (s.wakeDormant.updUnits fun u => { u with mp := u.mp.command (bitW (s.reg Reg.sfuLock) 0) ((s.listed 2).contains n) n none })

/-- TBL_DATA_WRITE (R84, R90): an FP32 entry; the index field wraps after 1,023 (log entry 24). -/
def execTblDataWrite (t fn : Nat) (value : Word) (s : State) : Res :=
  let s := s.advance t
  if !s.ownerCmd fn then .next s else
  let i := bitsW (s.reg Reg.sfuTblSel) 19 10
  let s := s.wakeDormant.setReg Reg.sfuTblSel (putBitsW (s.reg Reg.sfuTblSel) 19 10 (i + 1))
  .next (s.updUnits fun u => { u with tbl := { u.tbl with staged := SMap.put u.tbl.staged i (value &&& 0xFFFFFFFF) } })

def State.tblCheck (s : State) : Except (Nat × Nat) Prog :=
  .ok { words := (List.range 1024).map fun i => SMap.at s.units.tbl.staged i 0 }

def execTblCommit (t fn : Nat) (s : State) : Res :=
  let s := s.advance t
  if !s.ownerCmd fn then .next s else
  let n := bitsW (s.reg Reg.sfuTblSel) 4 0
  .next (s.wakeDormant.updUnits fun u => { u with tbl := u.tbl.command (bitW (s.reg Reg.sfuLock) 0) (s.tableUsed n) n (some s.tblCheck) })

def execTblClear (t fn : Nat) (s : State) : Res :=
  let s := s.advance t
  if !s.ownerCmd fn then .next s else
  let n := bitsW (s.reg Reg.sfuTblSel) 4 0
  .next (s.wakeDormant.updUnits fun u => { u with tbl := u.tbl.command (bitW (s.reg Reg.sfuLock) 0) (s.tableUsed n) n none })

/-- WALK_DATA_WRITE (R111, R118). -/
def execWalkDataWrite (t fn : Nat) (value : Word) (s : State) : Res :=
  let s := s.advance t
  if !s.ownerCmd fn then .next s else
  let i := bitsW (s.reg Reg.memWalkSel) 14 8
  let s := s.wakeDormant
  -- the 7-bit index stays at 127 after the last place; a further word overflows
  if i = 127 then
    if (SMap.find s.units.walk.staged 127).isSome then .next (s.updUnits fun u => { u with walk := { u.walk with overrun := true } })
    else .next (s.updUnits fun u => { u with walk := { u.walk with staged := SMap.put u.walk.staged 127 value } })
  else
    let r := s.stageWord Reg.memWalkSel 14 8 127 s.units.walk value
    .next (r.1.updUnits fun u => { u with walk := r.2 })

/-- Commands for programs 0 to 15, which the firmware image supplies, fail with error 8 (log entry 24). -/
def State.walkCommand (s : State) (fn : Nat) (content : Option (Except (Nat × Nat) Prog)) : State :=
  if !s.ownerCmd fn then s else
  let n := bitsW (s.reg Reg.memWalkSel) 5 0
  let go := fun l : Loader => if n < 16 then l.fail 8 0 else l.command (bitW (s.reg Reg.memLock) 0) ((s.listed 3).contains n) n content
  s.wakeDormant.updUnits fun u => { u with walk := go u.walk }

def State.walkCheck (s : State) : Except (Nat × Nat) Prog :=
  match checkWords walkErr s.units.walk.staged 128 with
  | .error e => .error e
  | .ok ws => .ok { words := ws }

def execWalkCommit (t fn : Nat) (s : State) : Res := let s := s.advance t; .next (s.walkCommand fn (some s.walkCheck))
def execWalkClear (t fn : Nat) (s : State) : Res := let s := s.advance t; .next (s.walkCommand fn none)

/-! ## Normalisation slots (R156, R158) -/

/-- Offset and record count of section i of a table image: CCC, DECOMP, COMP, FOLD, CLASS. -/
def normSec (b : Blob) (i : Nat) : Nat × Nat := (Blob.u32 b (16 + 8 * i), Blob.u32 b (20 + 8 * i))
def normRecSize (i : Nat) : Nat := [4, 8, 12, 8, 4].getD i 4
/-- The offset of the pool: the end of the sections. -/
def normPool (b : Blob) : Nat := (List.range 5).foldl (fun m i => let s := normSec b i; max m (s.1 + normRecSize i * s.2)) 64

/-- First code points of a section's records. -/
def normKeys (b : Blob) (i : Nat) : List Nat :=
  let s := normSec b i
  (List.range s.2).map fun k => Blob.u32 b (s.1 + normRecSize i * k) % 2 ^ 21

def rising : List Nat → Bool
  | a :: b :: r => decide (a < b) && rising (b :: r)
  | _ => true

/-- Section order, bounds and code points, those of composites and of the pool among them (error 3 of R173). COMP is sorted by its pair. -/
def normSecsOk (b : Blob) : Bool :=
  let size := Blob.u32 b 56
  (List.range 5).all fun i =>
    let s := normSec b i
    let ks := normKeys b i
    let pair := (List.range s.2).map fun k => Blob.u32 b (s.1 + 12 * k) * 2 ^ 32 + Blob.u32 b (s.1 + 12 * k + 4)
    (s.2 == 0 || (decide (64 ≤ s.1) && decide (s.1 + normRecSize i * s.2 ≤ size))) && ks.all (fun c => decide (c ≤ 0x10FFFF))
      && (if i = 2 then rising pair && pair.all (fun x => decide (x % 2 ^ 32 ≤ 0x10FFFF) && decide (x / 2 ^ 32 ≤ 0x10FFFF))
            && (List.range s.2).all (fun k => decide (Blob.u32 b (s.1 + 12 * k + 8) ≤ 0x10FFFF)) else rising ks)
      && (List.range ((size - normPool b) / 4)).all fun k => decide (Blob.u32 b (normPool b + 4 * k) ≤ 0x10FFFF)

/-- The first failed check of an image (R158, R173), 0 when it passes. -/
def normErr (b : Blob) : Nat :=
  let size := Blob.u32 b 56
  if Blob.u32 b 0 != 0x4C4E524D || Blob.u8 b 4 = 0 || 3 < Blob.u8 b 4 then 1
  else if 4194304 < size || size < 64 || (crc32c (Blob.slice b 0 60 ++ Blob.slice b 64 (size - 64))).toNat != Blob.u32 b 60 then 2
  else if !normSecsOk b then 3
  else 0

/-- Whether a resident vocabulary names a normalisation slot (R156, R160): MODES of the vocabulary of a resident model. -/
def State.normUsed (s : State) (n : Nat) : Bool :=
  s.objs.models.any fun e => let v := Blob.u8 e.2.image (Blob.u64 e.2.image 64 + 20); !bitN v 4 && v % 8 == n

def State.normCommand (s : State) (fn : Nat) (commit : Bool) : State :=
  if !s.ownerCmd fn then s else
  let n := bitsW (s.reg Reg.txtNormSel) 2 0
  let src := s.regN Reg.txtNormSrc / 4096 * 4096
  let size := leNat (Memory.readN s.hbm (src + 56) 4)
  let b := Memory.readN s.hbm src (min size 4194304)
  let e := if bitW (s.reg Reg.txtLock) 0 then 5 else if s.normUsed n then 4 else if commit then normErr (Blob.slice b 0 (max 64 b.length)) else 0
  s.wakeDormant.updUnits fun u =>
    if e != 0 then { u with normStatus := statusWord 3 e 0 }
    else { u with normStatus := 1, normPend := SMap.put u.normPend n (if commit then some b else none) }

def execNormCommit (t fn : Nat) (s : State) : Res := .next ((s.advance t).normCommand fn true)
def execNormClear (t fn : Nat) (s : State) : Res := .next ((s.advance t).normCommand fn false)

/-! ## The boundary (action 4 of R125) -/

/-- Applies what a loader holds; a unit that became referenced is dropped with error 5 (R547). A lock set since the write was accepted does not stop it (DESIGN CHOICE, log entry 61). -/
def Loader.apply (l : Loader) (referenced : Nat → Bool) : Loader :=
  l.pend.foldl (fun l e =>
    if referenced e.1 then l.fail 5 0
    else { l with status := 2, done := match e.2 with | some p => SMap.put l.done e.1 p | none => SMap.del l.done e.1 }) { l with pend := [] }

/-- Micro-programs, then tables, then walker programs take effect: a micro-program whose check found a table committed stands even where the same boundary clears that table, since R85
tests the table at the commit (DESIGN CHOICE, log entry 61). -/
def State.unitsBoundary (s : State) : State :=
  let u := s.units
  let norms := u.normPend.foldl (fun (x : SMap Blob × Nat) e =>
    if s.normUsed e.1 then (x.1, statusWord 3 4 0)
    else (match e.2 with | some b => SMap.put x.1 e.1 b | none => SMap.del x.1 e.1, 2)) (u.norms, u.normStatus)
  { s with units := { u with mp := u.mp.apply fun n => (s.listed 2).contains n, tbl := u.tbl.apply s.tableUsed,
                             walk := u.walk.apply fun n => (s.listed 3).contains n,
                             norms := norms.1, normStatus := norms.2, normPend := [] } }

/-! ## Memory tiers: counters, pins, regions, pseudo-channels (R98 to R103, R118, R119) -/

/-- ECC_COUNT_CLEAR: bit i clears MEM_ECC_COUNT[i]. -/
def execEccCountClear (t fn : Nat) (value : Word) (s : State) : Res :=
  let s := s.advance t
  if !s.ownerCmd fn then .next s else
  .next ((List.range 8).foldl (fun s i => if bitW value i then s.setReg (Reg.memEccCount i) 0 else s) s.wakeDormant)

/-- A write held until the boundary (R547): it replaces what waits for the same register. -/
def State.stage (s : State) (off : Nat) (v : Word) : State := { s with staged := SMap.put s.staged off v }

/-- Whether a pin mask is refused (R98). -/
def State.pinRefused (s : State) (a v : Nat) : Bool := decide (14 < popN 16 v) || (s.usedWays a &&& v) != s.usedWays a

/-- ALC_PIN_WRITE (R98): the mask takes effect at the boundary. -/
def execAlcPinWrite (t fn alcove : Nat) (value : Word) (s : State) : Res :=
  let s := s.advance t
  if !s.rwlOk fn Reg.memLock || !decide (alcove < s.member.alcoves) then .next s else
  let v := bitsW value 15 0
  let s := s.wakeDormant
  .next (if s.pinRefused alcove v then s.orReg Reg.memStatus 0 else s.stage (Reg.memAlcPin alcove) (BitVec.ofNat 64 v))

/-- The limits of R100 on the ways of a content in an Alcove die: 64 MiB for each of the 8 vocabularies of R160, the trie's ways for normalisation tables, both halves within 14 ways, one way for
the prefix table. `own` gives the ways of the other valid regions of a content. -/
def regionLimit (c n ways : Nat) (own : Nat → Nat) : Bool :=
  match c with
  | 1 => decide (n + popN 16 (own 1) ≤ 8)
  | 2 => (ways &&& own 1) == ways
  | 3 => decide (n ≤ 14)
  | 4 => n == 1 && own 4 == 0
  | 5 => decide (n ≤ 14)
  | _ => true

/-- Whether a region word with VALID is refused (R119): unpinned ways, an overlap, or the limits of R100. Normalisation tables share the ways of a trie, which is no overlap (DEDUCED, log entry 62). -/
def State.regionBad (s : State) (i : Nat) (v : Word) : Bool :=
  let a := bitsW v 5 4
  let ways := regionWays v
  let others := (s.regionsOf a).filter (· != i)
  let c := regionContent v
  let own := fun k => (others.filter fun j => regionContent (s.reg (Reg.memPinRegion j)) == k).foldl (fun m j => m ||| regionWays (s.reg (Reg.memPinRegion j))) 0
  let shares := fun j => let k := regionContent (s.reg (Reg.memPinRegion j)); (c == 1 && k == 2) || (c == 2 && k == 1)
  (s.regN (Reg.memAlcPin a) &&& ways) != ways
    || others.any (fun j => !shares j && (regionWays (s.reg (Reg.memPinRegion j)) &&& ways) != 0)
    || !regionLimit c (bitsW v 15 12 + 1) ways own

/-- PC_SET_WRITE (R102): an overlap is reported whether or not the partition also holds an allocation on the die. -/
def execPcSetWrite (t fn set die : Nat) (value : Word) (s : State) : Res :=
  let s := s.advance t
  if !s.rwlOk fn Reg.memLock || !decide (set < 16) || !decide (die < s.member.halls) then .next s else
  let s := s.wakeDormant
  let v := value.toNat &&& dieChannels s.member die
  let clash := (List.range 16).any fun k => k != set && (s.regN (Reg.memPcSet (8 * k + die)) &&& v) != 0
  let s := if clash then s.orReg Reg.memStatus 1 else s
  .next (if clash || s.usedOn set die != 0 then s else s.setRegN (Reg.memPcSet (8 * set + die)) v)

end Sys2Proof.Machine
end

