-- ==== Sys2Proof/Machine/Text.lean ====
section
/-! DEFINITION. The text pipeline of the Arcade engine: UTF-8, normalisation, tokenisation, detokenisation, holdback and stop strings (06_text_and_tokens). -/

namespace Sys2Proof.Machine

open Sys2Proof

/-! ## UTF-8 (R153, R154) -/

/-- Continuation bytes a lead byte needs, and the range of the second byte (Table 3-7 of the Unicode Standard). -/
def leadOf (b : Nat) : Option (Nat × Nat × Nat) :=
  if b < 0x80 then some (0, 0, 0)
  else if 0xC2 ≤ b && b ≤ 0xDF then some (1, 0x80, 0xBF)
  else if b = 0xE0 then some (2, 0xA0, 0xBF)
  else if b = 0xED then some (2, 0x80, 0x9F)
  else if 0xE1 ≤ b && b ≤ 0xEF then some (2, 0x80, 0xBF)
  else if b = 0xF0 then some (3, 0x90, 0xBF)
  else if 0xF1 ≤ b && b ≤ 0xF3 then some (3, 0x80, 0xBF)
  else if b = 0xF4 then some (3, 0x80, 0x8F)
  else none

/-- What a run of bytes is: a whole character, a proper prefix of one, or ill formed. -/
inductive Utf8Class where
  | char | prefix_ | bad
deriving DecidableEq, Repr, Inhabited

def utf8Class (h : List Nat) : Utf8Class :=
  match h with
  | [] => .prefix_
  | b :: r =>
    match leadOf b with
    | none => .bad
    | some (n, lo, hi) =>
      let ok := match r with
        | [] => true
        | c :: r' => decide (lo ≤ c) && decide (c ≤ hi) && r'.all fun x => decide (0x80 ≤ x) && decide (x ≤ 0xBF)
      if !ok || n < r.length then .bad else if r.length = n then .char else .prefix_

/-- The code point of a whole character. -/
def utf8Cp (h : List Nat) : Nat :=
  match h with
  | [a] => a
  | [a, b] => a % 32 * 64 + b % 64
  | [a, b, c] => a % 16 * 4096 + b % 64 * 64 + c % 64
  | [a, b, c, d] => a % 8 * 262144 + b % 64 * 4096 + c % 64 * 64 + d % 64
  | _ => 0xFFFD

def utf8Enc (c : Nat) : Blob :=
  let bs := if c < 0x80 then [c] else if c < 0x800 then [0xC0 + c / 64, 0x80 + c % 64]
    else if c < 0x10000 then [0xE0 + c / 4096, 0x80 + c / 64 % 64, 0x80 + c % 64]
    else [0xF0 + c / 262144, 0x80 + c / 4096 % 64, 0x80 + c / 64 % 64, 0x80 + c % 64]
  bs.map (BitVec.ofNat 8)

/-- A decoded unit: its code point, or none for a maximal subpart, and its first byte's position. -/
structure Unit8 where
  cp  : Option Nat
  pos : Nat
deriving DecidableEq, Repr, Inhabited

/-- Takes one byte with its position: the units it completes, and what is held (R153, R154, R168). -/
def utf8Push (held : List (Nat × Nat)) (x : Nat × Nat) : List Unit8 × List (Nat × Nat) :=
  let alone := fun y : Nat × Nat =>
    match utf8Class [y.1] with
    | .char => ([{ cp := some y.1, pos := y.2 : Unit8 }], [])
    | .prefix_ => ([], [y])
    | .bad => ([{ cp := none, pos := y.2 : Unit8 }], [])
  match held with
  | [] => alone x
  | h :: _ =>
    let all := held ++ [x]
    match utf8Class (all.map Prod.fst) with
    | .char => ([{ cp := some (utf8Cp (all.map Prod.fst)), pos := h.2 }], [])
    | .prefix_ => ([], all)
    | .bad => let r := alone x; ({ cp := none, pos := h.2 } :: r.1, r.2)

/-- Decodes bytes with positions; what is held at the end is a maximal subpart. -/
def utf8Decode (bs : List (Nat × Nat)) : List Unit8 :=
  let r := bs.foldl (fun (a : List Unit8 × List (Nat × Nat)) x => let p := utf8Push a.2 x; (a.1 ++ p.1, p.2)) ([], [])
  match r.2 with
  | h :: _ => r.1 ++ [{ cp := none, pos := h.2 }]
  | [] => r.1

def blobPos (b : Blob) : List (Nat × Nat) := (List.range b.length).zip b |>.map fun e => (e.2.toNat, e.1)

/-! ## Normalisation (R157, R158) -/

/-- A code point with the input offset of the first input character that contributed to it. -/
abbrev Cp := Nat × Nat

def normFind (b : Blob) (sec : Nat) (c : Nat) : Option Nat :=
  let s := normSec b sec
  ((List.range s.2).find? fun k => Blob.u32 b (s.1 + normRecSize sec * k) % 2 ^ 21 == c).map fun k => s.1 + normRecSize sec * k

def normCcc (b : Blob) (c : Nat) : Nat := if c = 0xFFFD then 0 else match normFind b 0 c with | some o => bitsN (Blob.u32 b o) 28 21 | none => 0


/-- The mapping of a DECOMP (section 1) or FOLD (section 3) record. -/
def normMap (b : Blob) (sec c : Nat) : Option (List Nat) :=
  (normFind b sec c).map fun o => (List.range (Blob.u8 b (o + 7))).map fun i => Blob.u32 b (normPool b + 4 * (Blob.u b (o + 4) 3 + i))

/-- Hangul syllables decompose and compose algorithmically. -/
def hangulDec (c : Nat) : Option (List Nat) :=
  if 0xAC00 ≤ c && c < 0xAC00 + 11172 then
    let i := c - 0xAC00
    let t := i % 28
    some ([0x1100 + i / 588, 0x1161 + i % 588 / 28] ++ (if t = 0 then [] else [0x11A7 + t]))
  else none
def hangulComp (a c : Nat) : Option Nat :=
  if 0x1100 ≤ a && a < 0x1113 && 0x1161 ≤ c && c < 0x1176 then some (0xAC00 + ((a - 0x1100) * 21 + (c - 0x1161)) * 28)
  else if 0xAC00 ≤ a && a < 0xAC00 + 11172 && (a - 0xAC00) % 28 = 0 && 0x11A7 < c && c < 0x11C3 then some (a + (c - 0x11A7))
  else none

def normDecomp (b : Blob) (xs : List Cp) : List Cp :=
  xs.flatMap fun x => match hangulDec x.1 with
    | some l => l.map fun c => (c, x.2)
    | none => match normMap b 1 x.1 with | some l => l.map fun c => (c, x.2) | none => [x]

/-- Places a mark before the marks of higher class that stand at the end (canonical reordering). -/
def normInsert (b : Blob) (x : Cp) : List Cp → List Cp
  | [] => [x]
  | y :: r => if normCcc b x.1 != 0 && normCcc b x.1 < normCcc b y.1 then y :: normInsert b x r else x :: y :: r
def normReorder (b : Blob) (xs : List Cp) : List Cp := (xs.foldl (fun acc x => normInsert b x acc) []).reverse

/-- The composite of a pair, where the table lists one. -/
def normPair (b : Blob) (a c : Nat) : Option Nat :=
  match hangulComp a c with
  | some h => some h
  | none =>
    let s := normSec b 2
    ((List.range s.2).find? fun k => Blob.u32 b (s.1 + 12 * k) == a && Blob.u32 b (s.1 + 12 * k + 4) == c).map fun k => Blob.u32 b (s.1 + 12 * k + 8)

/-- Canonical composition: each character joins the last starter unless a character of its class or above stands between. `mid` holds what stands between, newest first. -/
def normCompose (b : Blob) : Option Cp → List Cp → List Cp → List Cp
  | st, mid, [] => (match st with | some x => [x] | none => []) ++ mid.reverse
  | none, mid, x :: r => if normCcc b x.1 = 0 then mid.reverse ++ normCompose b (some x) [] r else normCompose b none (x :: mid) r
  | some st, mid, x :: r =>
    let blocked := match mid with | [] => false | y :: _ => decide (normCcc b x.1 ≤ normCcc b y.1)
    match (if blocked then none else normPair b st.1 x.1) with
    | some c => normCompose b (some (c, min st.2 x.2)) mid r
    | none => if normCcc b x.1 = 0 then st :: mid.reverse ++ normCompose b (some x) [] r else normCompose b (some st) (x :: mid) r

def normalise (b : Blob) (xs : List Cp) : List Cp := normCompose b none [] (normReorder b (normDecomp b xs))
/-- Case folding, where FLAGS says that the FOLD section is present (R158). -/
def foldCase (b : Blob) (xs : List Cp) : List Cp :=
  if !bitN (Blob.u32 b 12) 0 then xs else xs.flatMap fun x => match normMap b 3 x.1 with | some l => l.map fun c => (c, x.2) | none => [x]

/-- The CLASS of a code point (R158, R162); without a CLASS section every code point has class 0 (DESIGN CHOICE, log entry 27). -/
def normClass (b : Blob) (c : Nat) : Nat :=
  let s := if bitN (Blob.u32 b 12) 1 then normSec b 4 else (0, 0)
  (List.range s.2).foldl (fun k i => let w := Blob.u32 b (s.1 + 4 * i); if w % 2 ^ 21 ≤ c then bitsN w 23 21 else k) 0

/-! ## Vocabularies and tokenisation (R160 to R162) -/

def vocSize (v : Blob) : Nat := Blob.u32 v 4 % 2 ^ 21
def vocByteBase (v : Blob) : Nat := Blob.u32 v 8
def vocNone : Nat := 0xFFFFFFFF
def vocBos (v : Blob) : Nat := Blob.u32 v 12
def vocEos (v : Blob) : Nat := Blob.u32 v 16
def vocModes (v : Blob) : Nat := Blob.u8 v 20
def vocCrc (v : Blob) : Nat := Blob.u32 v 60
def vocCaseFold (v : Blob) : Bool := bitN (vocModes v) 3
def vocNoNorm (v : Blob) : Bool := bitN (vocModes v) 4
def vocSplit (v : Blob) : Bool := bitsN (vocModes v) 6 5 == 1

/-- The child of a trie node at a byte. -/
def trieChild (v : Blob) (node x : Nat) : Option Nat :=
  let o := Blob.u32 v 32 + 16 * node
  let n := Blob.u32 v (o + 4) % 512
  let first := Blob.u32 v (o + 8)
  ((List.range n).map fun i => Blob.u32 v (Blob.u32 v 36 + 4 * (first + i))).find? (fun e => e % 256 == x) |>.map fun e => e / 256
/-- The token of a node. -/
def trieToken (v : Blob) (node : Nat) : Option Nat :=
  let w := Blob.u32 v (Blob.u32 v 32 + 16 * node)
  if bitN w 20 then some (w % 2 ^ 20) else none

/-- A byte of the normalised text: value, origin, and whether a split point stands before it. -/
structure TByte where
  b     : Nat
  pos   : Nat
  split : Bool
deriving DecidableEq, Repr, Inhabited

/-- Split points (R162): before a class change; a space goes with the letters that follow it; class 3 stands alone. -/
def splitMarks (b : Blob) (on : Bool) (xs : List Cp) : List (Cp × Bool) :=
  let cls := fun i => normClass b (xs.getD i (0, 0)).1
  let n := xs.length
  -- a space that leads a letter joins the letter's run
  let joins := fun i => decide (i + 1 < n) && (xs.getD i (0, 0)).1 == 0x20 && cls (i + 1) == 0
  (List.range n).map fun i =>
    let mark := on && decide (0 < i) &&
      (joins i || (!joins (i - 1) && (cls i != cls (i - 1) || cls (i - 1) == 3)))
    (xs.getD i (0, 0), mark)

def toTBytes (xs : List (Cp × Bool)) : List TByte :=
  xs.flatMap fun x => match utf8Enc x.1.1 with
    | [] => []
    | h :: r => { b := h.toNat, pos := x.1.2, split := x.2 } :: r.map fun y => { b := y.toNat, pos := x.1.2, split := false }

/-- The longest match from the front of the text: its token and length. -/
def trieWalk (v : Blob) : Nat → Nat → Option (Nat × Nat) → List TByte → Option (Nat × Nat)
  | _, _, best, [] => best
  | node, len, best, x :: r =>
    if len != 0 && x.split then best
    else match trieChild v node x.b with
      | none => best
      | some k => trieWalk v k (len + 1) (match trieToken v k with | some t => some (t, len + 1) | none => best) r

/-- Longest-match tokenisation with byte fallback (R161): tokens with the offset of their first code point. -/
def tokLoop (v : Blob) : Nat → List TByte → List (Nat × Nat)
  | 0, _ => []
  | _, [] => []
  | n + 1, x :: r =>
    match trieWalk v 0 0 none (x :: r) with
    | some (t, l) => (t, x.pos) :: tokLoop v n ((x :: r).drop l)
    | none => (vocByteBase v + x.b, x.pos) :: tokLoop v n r

/-- What a run of the text pipeline gives: tokens with offsets, or an error; replacements; normalised length. -/
structure TextOut where
  tokens   : List (Nat × Nat) := []
  err      : Option (Nat × Nat × Nat) := none
  replaced : Nat := 0
  normLen  : Nat := 0
deriving DecidableEq, Repr, Inhabited

/-- The segment that holds an input offset; `lens` are the segment lengths. -/
def segmentOf : List Nat → Nat → Nat → Nat
  | [], _, i => i - 1
  | l :: r, off, i => if off < l then i else segmentOf r (off - l) (i + 1)

/-- The stages of R150 over the whole input. `norm` is the vocabulary's normalisation table. -/
def textPipe (v norm : Blob) (reject : Bool) (seg : Nat → Nat) (input : Blob) : TextOut :=
  let us := utf8Decode (blobPos input)
  match (if reject then us.find? fun u => u.cp.isNone else none) with
  | some u => { err := some (u.pos, seg u.pos, 1) }
  | none =>
    let replaced := (us.filter fun u => u.cp.isNone).length
    let xs : List Cp := us.map fun u => (u.cp.getD 0xFFFD, u.pos)
    let n1 := if vocNoNorm v then xs else normalise norm xs
    let n2 := if vocNoNorm v || !vocCaseFold v then n1 else normalise norm (foldCase norm n1)
    let lens := n2.map fun x => (utf8Enc x.1).length
    let total := lens.foldl (· + ·) 0
    if 16777216 < total then
      let overrun := (n2.zip lens).foldl (fun (a : Nat × Option Nat) e =>
        let t := a.1 + e.2; (t, if a.2.isNone && 16777216 < t then some e.1.2 else a.2)) (0, none)
      { err := some (overrun.2.getD 0, seg (overrun.2.getD 0), 2), replaced := replaced }
    else
      let bs := toTBytes (splitMarks norm (vocSplit v) n2)
      { tokens := tokLoop v bs.length bs, replaced := replaced, normLen := total }

/-! ## Detokenisation (R165 to R167) -/

/-- The string-table record of a token: bytes and CONTROL. -/
def tokenBytes (v : Blob) (t : Nat) : Blob × Bool :=
  let w := Blob.u32 v (Blob.u32 v 40 + 4 * t)
  (Blob.slice v (Blob.u32 v 44 + w % 2 ^ 24) (bitsN w 30 24), bitN w 31)

/-- A piece of the output: its bytes, the word that produced its first byte, and whether it is a replacement of a maximal subpart (1) or a bad token (3). -/
structure OutChar where
  bytes : Blob
  word  : Nat
  bad   : Nat
deriving DecidableEq, Repr, Inhabited

def unitOut (us : List Unit8) : List OutChar :=
  us.map fun u => match u.cp with
    | some c => { bytes := utf8Enc c, word := u.pos, bad := 0 }
    | none => { bytes := utf8Enc 0xFFFD, word := u.pos, bad := 1 }

/-- Runs over token words; positions are word numbers. A bad token interrupts a held character (R165). -/
def detokWords (v : Blob) (render : Bool) (ws : List Nat) : List OutChar :=
  let flush := fun held : List (Nat × Nat) => match held with
    | h :: _ => [{ bytes := utf8Enc 0xFFFD, word := h.2, bad := 1 : OutChar }]
    | [] => []
  let r := ((List.range ws.length).zip ws).foldl (fun (a : List OutChar × List (Nat × Nat)) e =>
    let w := e.2
    if w / 2 ^ 20 != 0 || vocSize v ≤ w then (a.1 ++ flush a.2 ++ [{ bytes := utf8Enc 0xFFFD, word := e.1, bad := 3 }], [])
    else
      let tb := tokenBytes v w
      if tb.2 && !render then a
      else tb.1.foldl (fun (b : List OutChar × List (Nat × Nat)) x =>
        let p := utf8Push b.2 (x.toNat, e.1)
        (b.1 ++ unitOut p.1, p.2)) a) ([], [])
  r.1 ++ flush r.2

/-- Result of DETOKENIZE in a buffer: bytes written whole characters at a time, words consumed, total bytes, replacements (R167). -/
structure DetokOut where
  bytes    : Blob := []
  consumed : Nat := 0
  total    : Nat := 0
  replaced : Nat := 0
  err      : Option (Nat × Nat) := none
deriving DecidableEq, Repr, Inhabited

/-- The characters that fit into a buffer, and the first that does not. -/
def fitChars : Nat → List OutChar → Blob × Option OutChar
  | _, [] => ([], none)
  | room, c :: r =>
    if c.bytes.length ≤ room then let x := fitChars (room - c.bytes.length) r; (c.bytes ++ x.1, x.2) else ([], some c)

def detokenise (v : Blob) (render reject : Bool) (room : Nat) (ws : List Nat) : DetokOut :=
  let cs := detokWords v render ws
  match (if reject then cs.find? fun c => c.bad != 0 else none) with
  | some c => { err := some (c.word, c.bad) }
  | none =>
    let f := fitChars room cs
    { bytes := f.1, consumed := (match f.2 with | some c => c.word | none => ws.length),
      total := (cs.map fun c => c.bytes.length).foldl (· + ·) 0, replaced := (cs.filter fun c => c.bad != 0).length }

/-! ## Holdback and stop strings (R168 to R172) -/

def isSuffix (x h : Blob) : Bool := decide (x.length ≤ h.length) && h.drop (h.length - x.length) == x

/-- The stop string that ends at the end of the held text: the one that starts earliest, the longest (R169). -/
def stopEnding (stops : List Blob) (h : Blob) : Option Blob :=
  (stops.filter fun x => isSuffix x h).foldl (fun b x => match b with
    | some y => if y.length < x.length then some x else b
    | none => some x) none

/-- Length of the longest suffix that is a proper prefix of a stop string. -/
def stopHold (stops : List Blob) (h : Blob) : Nat :=
  ((List.range (h.length + 1)).filter fun k => stops.any fun x => decide (k < x.length) && x.take k == h.drop (h.length - k)).foldl max 0

/-- The holdback state: partial character and held text. -/
structure Hold where
  partial_ : Blob := []
  held     : Blob := []
deriving DecidableEq, Repr, Inhabited

/-- One byte of a token: the new state, replacements, and the release of a stop string where one completes (R168). -/
def holdByte (stops : List Blob) (incl : Bool) (a : Hold × Nat × Option Blob) (x : Byte) : Hold × Nat × Option Blob :=
  match a.2.2 with
  | some _ => a
  | none =>
    let p := utf8Push (a.1.partial_.map fun b => (b.toNat, 0)) (x.toNat, 0)
    let h := { a.1 with partial_ := p.2.map fun y => BitVec.ofNat 8 y.1 }
    p.1.foldl (fun (z : Hold × Nat × Option Blob) u =>
      match z.2.2 with
      | some _ => z
      | none =>
        let held := z.1.held ++ utf8Enc (u.cp.getD 0xFFFD)
        let reps := z.2.1 + b2n u.cp.isNone
        match stopEnding stops held with
        | some m => ({ partial_ := [], held := [] }, reps, some (held.take (held.length - m.length) ++ (if incl then m else [])))
        | none => ({ z.1 with held := held }, reps, none)) (h, a.2.1, none)

/-- One token: bytes released, replacements, and whether a stop string ended the stream. -/
def holdToken (stops : List Blob) (incl : Bool) (h : Hold) (b : Blob) : Hold × Nat × Blob × Bool :=
  let r := b.foldl (holdByte stops incl) (h, 0, none)
  match r.2.2 with
  | some rel => (r.1, r.2.1, rel, true)
  | none =>
    let k := stopHold stops r.1.held
    let n := r.1.held.length - k
    ({ r.1 with held := r.1.held.drop n }, r.2.1, r.1.held.take n, false)

/-- What an ordinary end releases: the held text, then an incomplete character as one U+FFFD (R172). -/
def holdEnd (h : Hold) : Blob × Nat := (h.held ++ (if h.partial_.isEmpty then [] else utf8Enc 0xFFFD), b2n !h.partial_.isEmpty)

/-- The stop-string list of R170: strings and INCLUDE_STOP, or none where the layout breaks. -/
def stopList (b : Blob) : Option (List Blob × Bool) :=
  let n := Blob.u8 b 0
  let es := (List.range n).map fun i => Blob.slice b (8 + 72 * i) 72
  let ok := decide (n ≤ 16) && decide (Blob.u8 b 1 < 2) && Blob.zeroIn b 2 8 && es.all fun e =>
    decide (1 ≤ Blob.u8 e 0) && decide (Blob.u8 e 0 ≤ 64) && Blob.zeroIn e 1 8 && Blob.zeroIn e (8 + Blob.u8 e 0) 72
      && (utf8Decode (blobPos (Blob.slice e 8 (Blob.u8 e 0)))).all fun u => u.cp.isSome
  if ok then some (es.map (fun e => Blob.slice e 8 (Blob.u8 e 0)), Blob.u8 b 1 == 1) else none

end Sys2Proof.Machine
end

