-- ==== Sys2Proof/Machine/Objects.lean ====
section
/-! DEFINITION. What resident objects hold: model images, vocabularies, templates, index shapes, table records (06 R160, 07 R177 to R189, 09 R259, 10 R275 to R277, 11 R311 to R315). -/

namespace Sys2Proof.Machine

open Sys2Proof

/-! ## Models (R275 to R277) -/

def imgKind (b : Blob) : Nat := Blob.u8 b 4
def imgLayers (b : Blob) : Nat := Blob.u16 b 6
def imgExperts (b : Blob) : Nat := Blob.u16 b 8
def imgDim (b : Blob) : Nat := Blob.u32 b 12
def imgContext (b : Blob) : Nat := Blob.u32 b 16
def imgVocabCrc (b : Blob) : Nat := Blob.u32 b 20
def imgCrc (b : Blob) : Nat := Blob.u32 b 60
def imgTenant (b : Blob) : Nat := Blob.u32 b 40 % 4096
def imgSec (b : Blob) (i : Nat) : Nat × Nat := (Blob.u64 b (64 + 16 * i), Blob.u64 b (72 + 16 * i))
def imgSection (b : Blob) (i : Nat) : Blob := Blob.slice b (imgSec b i).1 (imgSec b i).2
/-- The vocabulary of a model of kind 1 to 3. -/
def Model.vocab (m : Model) : Blob := imgSection m.image 0
/-- Bytes of keys and values of one position (R286). -/
def Model.kvBytes (m : Model) : Nat :=
  imgLayers m.image * 2 * Blob.u8 m.image 29 * Blob.u16 m.image 30 * (if Blob.u8 m.image 28 = 0 then 2 else 1)

/-- The normalisation table of a vocabulary. -/
def State.normOf (s : State) (v : Blob) : Blob := SMap.at s.units.norms (vocModes v % 8) []

/-- Templates of a generator image, back to back in its section (R259; log entry 26). -/
def templateSize (b : Blob) : Nat := 64 + 8 * Blob.u8 b 5 + 4 * Blob.u32 b 12
def splitTemplates : Nat → Blob → List Blob
  | 0, _ => []
  | n + 1, b => if b.length < 64 then [] else Blob.slice b 0 (templateSize b) :: splitTemplates n (b.drop (templateSize b))
def Model.templates (m : Model) : List Blob := splitTemplates 256 (imgSection m.image 1)
def templateNo (t : Blob) : Nat := Blob.u8 t 4
def Model.template (m : Model) (n : Nat) : Option Blob := m.templates.find? fun t => templateNo t == n

/-- A model ID names a number and a generation (R275). -/
def idNum (id : Nat) : Nat := id % 64
def idGen (id : Nat) : Nat := id / 256 % 256
def modelIdOk (id : Nat) : Bool := id / 64 % 4 == 0 && decide (id < 65536)
def grammarIdOk (id : Nat) : Bool := decide (id < 65536)
def indexIdOk (id : Nat) : Bool := id / 8 % 32 == 0 && decide (id < 65536)
def tableIdOk (id : Nat) : Bool := decide (id < 2 ^ 20)

/-- The resident model that an ID names, of one of the kinds (R275, R549). -/
def State.modelOf (s : State) (id : Nat) (kinds : List Nat) : Option Model :=
  (SMap.find s.objs.models (idNum id)).filter fun m => m.gen == idGen id && kinds.contains m.kind && !m.unloading

/-- Status of a model that a request of partition p names: 0 passes (R549). -/
def State.modelTest (s : State) (p id : Nat) (kinds : List Nat) : Nat :=
  match s.modelOf id kinds with
  | none => 0x28
  | some m => if bitN m.mask p then 0 else 0x23

/-- Status of a private expert set or a steering set (R282, R549). -/
def setTest (x : Option Model) (base tenant p : Nat) : Nat :=
  match x with
  | none => 0x28
  | some m => if m.base != base || m.unloading then 0x28 else if imgTenant m.image != tenant || !bitN m.mask p then 0x23 else 0

def State.grammarOf (s : State) (id : Nat) : Option Model :=
  (SMap.find s.objs.grammars (id % 256)).filter fun m => m.gen == idGen id && !m.unloading

def State.grammarTest (s : State) (id base p : Nat) : Nat :=
  match s.grammarOf id with
  | none => 0x28
  | some m => if m.base != base then 0x28 else if bitN m.mask p then 0 else 0x23

/-! ## Indexes (R177 to R189, R202) -/

def Index.dimD (x : Index) : Nat := Blob.u16 x.block 4
def Index.dimC (x : Index) : Nat := Blob.u16 x.block 6
def Index.metric (x : Index) : Nat := Blob.u8 x.block 8
def Index.fmt (x : Index) : Nat := Blob.u8 x.block 9
def Index.m (x : Index) : Nat := Blob.u8 x.block 10
def Index.r (x : Index) : Nat := Blob.u8 x.block 11
def Index.nRooms (x : Index) : Nat := Blob.u32 x.block 12
def Index.entryRoom (x : Index) : Nat := Blob.u32 x.block 16
def Index.beam (x : Index) : Nat := Blob.u16 x.block 20
def Index.budget (x : Index) : Nat := Blob.u64 x.block 24
def Index.region (x : Index) (a : Nat) : Nat := Blob.u8 x.block (32 + a)
def Index.dieMask (x : Index) : Nat := Blob.u8 x.block 36
/-- Offset i of the block: projection, centroids, graph, PQ codebook, refine codebook. -/
def Index.off (x : Index) (i : Nat) : Nat := Blob.u64 x.block (64 + 8 * i)
/-- Under inner product and cosine a larger score is better (R212). -/
def Index.similar (x : Index) : Bool := x.metric != 0

def State.index (s : State) (i : Nat) : Index := SMap.at s.objs.indexes i {}
def State.setIndex (s : State) (i : Nat) (x : Index) : State := s.updObjs fun o => { o with indexes := SMap.put o.indexes i x }
/-- A READY index that an ID names (R176). -/
def State.indexOf (s : State) (id : Nat) : Option Index :=
  let x := s.index (id % 8)
  if x.state = 2 && x.gen = idGen id then some x else none

/-- Newest version of a room; a room of a built index without entries has an empty version of the build epoch. -/
def Index.vers (x : Index) (r : Nat) : List RoomVer := SMap.at x.rooms r [{ base := x.built, sw := x.built }]
def Index.top (x : Index) (r : Nat) : RoomVer := (x.vers r).headD {}
/-- The version visible to a snapshot: the largest switch epoch that does not exceed it (R192). -/
def Index.verAt (x : Index) (r s : Nat) : RoomVer :=
  ((x.vers r).find? fun v => decide (v.sw ≤ s)).getD { base := s + 1, sw := s + 1 }

/-- Locations (R182): segment in bit 22, room in [43:23], position in [21:0]. -/
def locOf (room seg pos : Nat) : Nat := shl room 23 + shl seg 22 + pos
def locRoom (l : Nat) : Nat := l >>> 23
def locAnnex (l : Nat) : Bool := bitN l 22
def locPos (l : Nat) : Nat := l % 2 ^ 22
/-- The 48-bit order key (R214). -/
def orderKey (modId loc : Nat) : Nat := shl modId 44 + shl (b2n (locAnnex loc)) 43 + shl (locRoom loc) 22 + locPos loc

/-- The entry at a location, in the newest version of its room or the spill Annex. -/
def Index.entryAt (x : Index) (loc : Nat) : Option Entry :=
  let v := x.top (locRoom loc)
  if !locAnnex loc then v.main[locPos loc]? else if locPos loc < 4096 then v.annex[locPos loc]? else SMap.find x.spill (locPos loc - 4096)

/-- The visibility test of R192: main entries take the version's base epoch. -/
def visible (e : Entry) (main : Bool) (s : Nat) (v : RoomVer) : Bool :=
  let ins := if main then v.base else e.ins
  decide (ins ≤ s) && (main || decide (v.base < ins)) && (match e.tomb with | some t => decide (s < t) | none => true)

/-- All entries that occupy slots: versions and spill (R189), or what a build has added. -/
def Index.slots (x : Index) : Nat :=
  (x.rooms.map fun e => (e.2.map fun v => v.main.length + v.annex.length).foldl (· + ·) 0).foldl (· + ·) 0 + x.spill.length + x.added.length
def Index.tombs (x : Index) : Nat :=
  let c := fun es : List Entry => (es.filter fun e => e.tomb.isSome).length
  (x.rooms.map fun e => (e.2.map fun v => c v.main + c v.annex).foldl (· + ·) 0).foldl (· + ·) 0 + c (x.spill.map Prod.snd)
def State.slotsUsed (s : State) : Nat := (s.objs.indexes.map fun e => e.2.slots).foldl (· + ·) 0
def State.tombsUsed (s : State) : Nat := (s.objs.indexes.map fun e => e.2.tombs).foldl (· + ·) 0
/-- Entries visible at an epoch (IDX_LIVE). -/
def Index.live (x : Index) (s : Nat) : Nat :=
  let room := x.rooms.map fun e =>
    let v := x.verAt e.1 s
    (v.main.filter fun y => visible y true s v).length + (v.annex.filter fun y => visible y false s v).length
  room.foldl (· + ·) 0 + (x.spill.filter fun y => visible y.2 false s (x.verAt y.2.room s)).length

/-- Snapshots held by requests (R207, IDX_OLDEST_SNAP). -/
def State.snapshots (s : State) : List Nat := s.reqs.filterMap fun e => e.2.xs.snapshot

/-- Requests that hold an object (R204, R279, R313). -/
def State.held (s : State) (o : Obj) : Bool := s.reqs.any fun e => e.2.holds.contains o

/-! ## Tables (R311 to R315) -/

def Table.dim (t : Table) : Nat := Blob.u16 t.rec_ 4
def Table.fmt (t : Table) : Nat := Blob.u8 t.rec_ 6
def Table.nRows (t : Table) : Nat := Blob.u64 t.rec_ 8
def Table.stripe (t : Table) : Nat := Blob.u8 t.rec_ 16
def Table.dieMask (t : Table) : Nat := Blob.u8 t.rec_ 17
def Table.peers (t : Table) : Nat := Blob.u16 t.rec_ 18
def Table.parts (t : Table) : Nat := Blob.u16 t.rec_ 20
def Table.hotAt (t : Table) : Nat := Blob.u32 t.rec_ 24
def Table.hotMax (t : Table) : Nat := Blob.u32 t.rec_ 28
def Table.region (t : Table) (a : Nat) : Nat := Blob.u8 t.rec_ (32 + a)
def Table.crc (t : Table) : Nat := Blob.u32 t.rec_ 60
/-- Bytes of an element by format: FP32, BF16, FP8. -/
def fmtBytes (f : Nat) : Nat := [4, 2, 1].getD f 4
/-- Row stride: the row's bytes rounded up to 64 (R315). -/
def Table.rowStride (t : Table) : Nat := (t.dim * fmtBytes t.fmt + 63) / 64 * 64

def State.table (s : State) (n : Nat) : Option Table := SMap.find s.objs.tables n
def State.updTable (s : State) (n : Nat) (g : Table → Table) : State := s.updObjs fun o => { o with tables := SMap.upd o.tables n g }
/-- A table that an ID names (R311). -/
def State.tableOf (s : State) (id : Nat) : Option Table :=
  (s.table (id % 4096)).filter fun t => t.gen == id / 4096 % 256 && !t.destroying
def State.tableTest (s : State) (p id : Nat) : Nat :=
  match s.tableOf id with
  | none => 0x28
  | some t => if bitN t.parts p then 0 else 0x23

/-- The rotation of dies: on LSH-E28 each of H0 to H3 counts twice (R183). -/
def dieRotation (m : Member) (mask : Nat) : List Nat :=
  (setBitsOf 8 mask).flatMap fun h => if m = .e28 && h < 4 then [h, h] else [h]
/-- The module that owns a row (R314). -/
def Table.owner (t : Table) (row : Nat) : Nat :=
  let ms := setBitsOf 16 t.peers
  ms.getD ((row >>> t.stripe) % ms.length) 0
/-- The Hall die that owns a row on its module (R314). -/
def Table.die (m : Member) (t : Table) (row : Nat) : Nat :=
  let j := (row >>> t.stripe) / (setBitsOf 16 t.peers).length
  let rot := dieRotation m t.dieMask
  rot.getD (j % rot.length) 0

/-- Values of an encoded element run in a format (R67, R315). -/
def decodeElems (f n : Nat) (b : Blob) : List F32 :=
  (List.range n).map fun i => match f with
    | 0 => BitVec.ofNat 32 (Blob.u32 b (4 * i))
    | 1 => F.ofBf16 (BitVec.ofNat 16 (Blob.u16 b (2 * i)))
    | _ => F.ofE4m3 (BitVec.ofNat 8 (Blob.u8 b i))
/-- FP32 values in a format (R67). -/
def encodeElems (f : Nat) (xs : List F32) : Blob :=
  xs.flatMap fun x => match f with
    | 0 => leBytes 4 x.toNat
    | 1 => leBytes 2 (F.toBf16 x).toNat
    | _ => [F.toE4m3 x]
/-- The stored row: +0 where nothing was written. -/
def Table.row (t : Table) (r : Nat) : List F32 := decodeElems t.fmt t.dim (SMap.at t.rows r [])
def Table.setRow (t : Table) (r : Nat) (xs : List F32) : Table := { t with rows := SMap.put t.rows r (encodeElems t.fmt xs) }
/-- A read through the replica where the row is replicated (R321). -/
def Table.read (t : Table) (r : Nat) : List F32 :=
  match SMap.find t.repl r with
  | some b => decodeElems t.fmt t.dim b
  | none => t.row r

end Sys2Proof.Machine
end

