-- ==== Sys2Proof/Machine/Regions.lean ====
section
/-! DEFINITION. What stands in device memory for the resident objects, and the contents of the pinned regions (04 R98 to R101, 06 R156 and R160, 07 R178 to R188, 09 R265, 11 R315 and R321). -/

namespace Sys2Proof.Machine

open Sys2Proof

/-! ## The layout of an index (R181 to R188) -/

/-- Rounds up to a multiple of 128. -/
def up128 (n : Nat) : Nat := (n + 127) / 128 * 128

/-- Bytes of a main block and of an Annex block (R181). -/
def Index.blockBytes (x : Index) (annex : Bool) : Nat := 128 * (x.m + x.r + if annex then 16 else 9)

/-- A block of 128 lanes: its arrays in order, each lane at its place; an unused lane holds the sentinel ID and zeros (R181). -/
def Index.block128 (x : Index) (annex : Bool) (es : List Entry) : Blob :=
  let lane := fun j => es[j]?
  let arr := fun (n : Nat) (f : Entry → Blob) (unused : Blob) =>
    (List.range 128).flatMap fun j => match lane j with | some e => Blob.slice (f e) 0 n | none => unused
  arr x.m (·.pq) (zeros x.m) ++ arr x.r (·.ref) (zeros x.r) ++ arr 4 (fun e => leBytes 4 e.attr) (zeros 4)
    ++ arr 5 (fun e => leBytes 5 e.id) (leBytes 5 0xFFFFFFFFFF) ++ (if annex then arr 7 (fun e => leBytes 7 e.ins) (zeros 7) else [])

/-- The blocks of a segment in position order. -/
def Index.blocks (x : Index) (annex : Bool) (es : List Entry) : List Blob := (F.chunks 128 es).map (x.block128 annex)

/-- A tombstone bitmap: bit i says that the entry at position i has a tombstone (R188). -/
def tombBits (n : Nat) (es : List Entry) : Blob :=
  (List.range ((n + 7) / 8)).map fun k =>
    BitVec.ofNat 8 (((List.range 8).filter fun i => match es[8 * k + i]? with | some e => e.tomb.isSome | none => false).map (2 ^ ·) |>.foldl (· + ·) 0)

/-- Bytes of a room version's bitmap, and of header, bitmap and main blocks together (R183, R188). -/
def bitmapBytes (n : Nat) : Nat := up128 ((n + 7) / 8 + 512)
def Index.verBytes (x : Index) (n : Nat) : Nat := 256 + bitmapBytes n + (n + 127) / 128 * x.blockBytes false

/-- The 256-byte header of a room version (R183): main count, epochs, addresses of main blocks and bitmap, Annex count, addresses of the Annex blocks. The order of the fields is the model's (log entry 63). -/
def Index.header (x : Index) (v : RoomVer) : Blob :=
  let at_ := fun off => runAddr x.gran off
  let b := leBytes 8 v.main.length ++ leBytes 8 v.base ++ leBytes 8 v.sw ++ leBytes 8 (at_ (v.at_ + 256 + bitmapBytes v.main.length)) ++ leBytes 8 (at_ (v.at_ + 256))
    ++ leBytes 8 v.annex.length ++ v.annexAt.flatMap fun o => leBytes 6 (at_ o)
  Blob.slice b 0 256

/-- A map entry: location, version and SECOND_COPY; an empty one is all ones (R185). -/
def mapBytes (m : Option MapEnt) : Blob :=
  match m with
  | some e => leBytes 8 (e.loc + shl (e.ver % 65536) 44 + shl (b2n e.second) 63)
  | none => leBytes 8 (2 ^ 64 - 1)

/-- Buckets of the passage map (R185). -/
def Index.buckets (x : Index) : Nat := (5 * x.budget + 31) / 32
/-- Offsets of the index's parts: the map's buckets, its overflow area, the spill Annex and its bitmap; the room versions stand behind them (log entry 63). -/
def Index.overflowAt (x : Index) : Nat := 64 * x.buckets
def Index.spillAt (x : Index) : Nat := up128 (x.overflowAt + 8388608)
def Index.spillBitsAt (x : Index) : Nat := x.spillAt + 8192 * x.blockBytes true
def Index.roomsAt (x : Index) : Nat := x.spillBitsAt + 131072

/-- The parts of a room version: offset and bytes. -/
def Index.verParts (x : Index) (v : RoomVer) : List (Nat × Blob) :=
  (v.at_, x.header v ++ Blob.slice (tombBits ((v.main.length + 7) / 8 * 8) v.main ++ tombBits 4096 v.annex) 0 (bitmapBytes v.main.length) ++ (x.blocks false v.main).flatMap id)
    :: List.zip v.annexAt (x.blocks true v.annex)

/-- Every part of an index that is written: offset in its allocation and bytes. Of the spill Annex, whose unused lanes are empty blocks, only the blocks with an entry are listed. -/
def Index.parts (x : Index) : List (Nat × Blob) :=
  let bucket := fun b => let ms := SMap.at x.mapB b []; (64 * b, (List.range 8).flatMap fun i => mapBytes ms[i]?)
  let spill := (x.spill.map fun e => e.1 / 128).eraseDups
  -- a spill block's lanes by slot: a free slot stands as an unused lane
  let free : Entry := { id := 0xFFFFFFFFFF }
  (List.range x.buckets).map bucket ++ (List.range 1048576).map (fun i => (x.overflowAt + 8 * i, mapBytes x.mapO[i]?))
    ++ spill.map (fun k => (x.spillAt + k * x.blockBytes true, x.block128 true ((List.range 128).map fun j => SMap.at x.spill (128 * k + j) free)))
    ++ [(x.spillBitsAt, tombBits 1048576 ((List.range 1048576).map fun i => SMap.at x.spill i free))]
    ++ x.rooms.flatMap fun e => e.2.flatMap x.verParts

/-- The byte at an offset among parts. -/
def partByte (ps : List (Nat × Blob)) (off : Nat) : Byte :=
  match ps.find? fun p => decide (p.1 ≤ off) && decide (off < p.1 + p.2.length) with
  | some p => p.2.getD (off - p.1) 0
  | none => 0

/-! ## Space for room versions (R183, R205) -/

/-- The Hall die of a room: the rotation of the die mask (R183). -/
def Index.roomDie (m : Member) (x : Index) (r : Nat) : Nat := let rot := dieRotation m x.dieMask; rot.getD (r % rot.length) 0
/-- Offsets of the allocation that lie on a Hall die: first and the one after the last. -/
def dieSpans (m : Member) (h : Nat) (g : Runs) : List (Nat × Nat) :=
  (g.foldl (fun (a : List (Nat × Nat) × Nat) x =>
    let n := x.2 * granule
    (if decide (granLo m h ≤ x.1) && decide (x.1 < granHi m h) then a.1 ++ [(a.2, a.2 + n)] else a.1, a.2 + n)) ([], 0)).1
/-- Space that the index's parts take: offset and bytes. -/
def Index.taken (x : Index) : List (Nat × Nat) :=
  (0, x.roomsAt) :: x.rooms.flatMap fun e => e.2.flatMap fun v =>
    (v.at_, x.verBytes v.main.length) :: v.annexAt.map fun o => (o, x.blockBytes true)
/-- The lowest free place for n bytes in spans, on a boundary of 128 bytes. -/
def fitIn (spans taken : List (Nat × Nat)) (n : Nat) : Option Nat :=
  let starts := (spans.map Prod.fst ++ taken.map fun e => e.1 + e.2).map up128
  oldestOf id (starts.filter fun a =>
    spans.any (fun e => decide (e.1 ≤ a) && decide (a + n ≤ e.2)) && taken.all fun e => e.2 == 0 || decide (a + n ≤ e.1) || decide (e.1 + e.2 ≤ a))
/-- A place for n bytes of a room on its Hall die. -/
def Index.place (m : Member) (x : Index) (r n : Nat) : Option Nat := fitIn (dieSpans m (x.roomDie m r) x.gran) x.taken n

/-- Bytes of an index by Hall die (R183, R189; log entry 29): the map and the spill Annex on the lowest set die, and the rooms' shares by their rotation. -/
def Index.dieNeeds (m : Member) (x : Index) : List (Nat × Nat) :=
  let rot := dieRotation m x.dieMask
  let k := max 1 rot.length
  let share := (x.budget * (x.m + x.r + 16) + x.budget / 8 + x.nRooms * (127 * (x.m + x.r + 9) + 1024) + k - 1) / k
  rot.eraseDups.map fun h =>
    (h, (share * (rot.filter (· == h)).length + (if rot.head? = some h then x.roomsAt else 0) + granule - 1) / granule)

/-! ## Rows of a table (R314, R315) -/

/-- The row slot in its die's shard (R314). -/
def Table.rowSlot (m : Member) (t : Table) (row : Nat) : Nat :=
  let j := (row >>> t.stripe) / (setBitsOf 16 t.peers).length
  (j / (dieRotation m t.dieMask).length) <<< t.stripe + row % 2 ^ t.stripe
/-- A row's stored bytes with its padding. -/
def Table.rowBytes (t : Table) (row : Nat) : Blob := Blob.slice (SMap.at t.rows row []) 0 t.rowStride
/-- The offset of a row in the table's allocation: by die in ascending order, then by row slot. -/
def Table.rowAt (m : Member) (t : Table) (row : Nat) : Option Nat :=
  ((dieSpans m (t.die m row) t.gran).head?).map fun sp => sp.1 + t.rowSlot m row * t.rowStride
/-- Rows of a die's shard: the largest row slot of its stripes and one more (R314). -/
def Table.dieRows (m : Member) (own : Nat) (t : Table) (h : Nat) : Nat :=
  let ms := setBitsOf 16 t.peers
  let stripes := (t.nRows + 2 ^ t.stripe - 1) / 2 ^ t.stripe
  let place := (ms.takeWhile (· != own)).length
  let loc := (stripes + ms.length - 1 - place) / max 1 ms.length
  let rot := dieRotation m t.dieMask
  let k := max 1 rot.length
  (((List.range rot.length).filter fun i => rot.getD i 0 == h).map fun i => (loc + k - 1 - i) / k * 2 ^ t.stripe).foldl max 0 * (if (rot.filter (· == h)).length = 0 then 0 else 1)
def Table.dieNeeds (m : Member) (own : Nat) (t : Table) : List (Nat × Nat) :=
  (dieRotation m t.dieMask).eraseDups.map fun h => (h, (t.dieRows m own h * t.rowStride + granule - 1) / granule)

/-! ## Device memory as reads see it (R93, R103) -/

/-- The byte that an object or a cache entry has at a device address, where one holds the address (log entry 58). -/
def State.objByte (s : State) (a : Nat) : Option Byte :=
  let m := s.member
  let ofModel := s.objs.all.findSome? fun x => (runOff x.gran a).map fun o => x.image.getD o 0
  let ofIndex := s.objs.indexes.findSome? fun e => (runOff e.2.gran a).map fun o => partByte e.2.parts o
  let ofTable := s.objs.tables.findSome? fun e => (runOff e.2.gran a).map fun o =>
    match e.2.rows.find? fun r => (match e.2.rowAt m r.1 with | some at_ => decide (at_ ≤ o) && decide (o < at_ + e.2.rowStride) | none => false) with
    | some r => (e.2.rowBytes r.1).getD (o - (e.2.rowAt m r.1).getD 0) 0
    | none => 0
  let inPage := fun (page size : Nat) => decide (page * 4096 ≤ a) && decide (a < page * 4096 + size)
  let ofPref := (s.objs.prefs.find? fun e => inPage e.at_ e.size).map fun e => (e.rows.flatMap id ++ e.tokens.flatMap (leBytes 4)).getD (a - e.at_ * 4096) 0
  let ofCache := (s.objs.caches.find? fun e => inPage e.at_ e.size).map fun e => (e.rows.flatMap id ++ e.tokens.flatMap (leBytes 4)).getD (a - e.at_ * 4096) 0
  let ofKv := s.reqs.findSome? fun r => (runOff r.2.xs.gen.kvGran a).map fun o => (r.2.xs.gen.kvRows.flatMap id).getD o 0
  ofModel <|> ofIndex <|> ofTable <|> ofPref <|> ofCache <|> ofKv

/-- A read of device memory. -/
def State.t2 (s : State) (a n : Nat) : Blob := (List.range n).map fun i => (s.objByte (a + i)).getD (Memory.read s.hbm (a + i))

/-! ## The contents of pinned regions (R100) -/

/-- Vocabulary images that are resident, each once (R160). -/
def State.vocabularies (s : State) : List Blob := (s.objs.models.map fun e => e.2.vocab).eraseDups
/-- Committed tables take 4 MiB each at the end of the ways that they share with a trie (R100, R156; log entry 62). -/
def State.normShare (s : State) (a : Nat) : Nat :=
  if (s.regionsOf a).any fun i => regionContent (s.reg (Reg.memPinRegion i)) == 2 then ((s.units.norms.map fun e => e.1 + 1).foldl max 0) * 4194304 else 0
/-- Bytes of the content-1 regions of an Alcove die that vocabularies may take (R100). -/
def State.trieRoom (s : State) (a : Nat) : Nat :=
  ((s.regionsOf a).filter fun i => regionContent (s.reg (Reg.memPinRegion i)) == 1).foldl (fun n i => n + regionBytes (s.reg (Reg.memPinRegion i))) 0 - s.normShare a

/-- An entry of the prefix table (R265). -/
def PrefEnt.bytes (e : PrefEnt) : Blob :=
  leBytes 12 e.key ++ leBytes 12 e.parent ++ leBytes 4 e.at_ ++ leBytes 4 (e.part + shl 1 4 + shl (b2n e.pinned) 5 + shl (e.age % 2 ^ 19) 6)
/-- Alcove die and bucket of a block key (R265). -/
def prefBucket (m : Member) (k : Nat) : Nat × Nat := ((k >>> 94) % m.alcoves, k % 2 ^ 19)

/-- One half of an index's coarse region: centroids room by room, then the graph (R178). -/
def Index.coarseHalf (x : Index) : Blob := Blob.slice x.block (x.off 1) (x.nRooms * x.dimC) ++ Blob.slice x.block (x.off 2) (x.nRooms * 96)

/-- What the content of a region is, by offset from its first byte or from that of its half: vocabularies back to back, normalisation tables from the end, prefix entries by bucket and place, and
replica rows in ascending row (log entries 62 and 63). -/
def State.regionImage (s : State) (i : Nat) : List (Nat × Blob) :=
  let w := s.reg (Reg.memPinRegion i)
  let a := bitsW w 5 4
  match regionContent w with
  | 1 => [(0, s.vocabularies.flatMap id)]
  | 2 => s.units.norms.map fun e => (regionBytes w - 4194304 * (e.1 + 1), e.2)
  | 3 => (s.objs.indexes.filter fun e => e.2.state != 0 && e.2.built != 0 && e.2.region a == i).map fun e => (0, e.2.coarseHalf)
  | 4 => (s.objs.prefs.filter fun e => (prefBucket s.member e.key).1 == a).map fun e => ((prefBucket s.member e.key).2 * 128 + e.slot * 32, e.bytes)
  | 5 => (s.objs.tables.filter fun e => e.2.region a == i).map fun e => (0, e.2.repl.flatMap fun r => Blob.slice r.2 0 e.2.rowStride)
  | _ => []

/-- Firmware writes what a region holds at an offset of it, source copy first. -/
def State.regionSync (s : State) (i off : Nat) : State := (s.regionImage i).foldl (fun s p => s.regionWrite i (off + p.1) p.2) s
/-- The regions of a TABLE or STATIC content are written in place. -/
def State.syncContent (s : State) (content : Nat) : State := (s.regionsWith content).foldl (fun s i => s.regionSync i 0) s

/-- A step of the Arcade engine is released and has not ended: it reads the STATIC regions (R99, R100). -/
def State.arcadeReads (s : State) : Bool := s.reqs.any fun e => e.2.phase == .running && (e.2.cur == some .tokenise || e.2.cur == some .detokenise)
/-- Firmware has to write a STATIC content: at once where no released step reads it, and else it holds back the steps that read it (R99). -/
def State.staticWrite (s : State) (content : Nat) : State :=
  if s.arcadeReads then s.updAlc fun x => { x with due := if x.due.contains content then x.due else x.due ++ [content] } else s.syncContent content
/-- STATIC writes that wait are made once no released step reads their regions (R99). -/
def State.staticDue (s : State) : State :=
  if s.alc.due.isEmpty || s.arcadeReads then s else (s.alc.due.foldl State.syncContent s).updAlc fun x => { x with due := [] }

/-- A region that becomes valid is loaded with its content. -/
def State.regionLoad (s : State) (i : Nat) : State :=
  let c := regionContent (s.reg (Reg.memPinRegion i))
  if c = 1 ∨ c = 2 then s.staticWrite c
  else if c = 3 ∨ c = 5 then s.regionSync i (halfBase (s.reg (Reg.memPinRegion i)) true) else s.regionSync i 0

/-- PIN_REGION_WRITE (R119): ACTIVE_HALF is not written. Firmware writes the source copy and the region (R101). -/
def execPinRegionWrite (t fn region : Nat) (value : Word) (s : State) : Res :=
  let s := s.advance t
  if !s.rwlOk fn Reg.memLock || !decide (region < 32) then .next s else
  let s := s.wakeDormant
  let old := s.reg (Reg.memPinRegion region)
  let v := (value &&& 0xFFFFFFFF00FFFF37) ||| (if bitW value 0 && bitW old 0 then old &&& 0x1000000 else 0)
  .next (if bitW v 0 && s.regionBad region v then s.orReg Reg.memStatus 2
    else
      let s := s.setReg (Reg.memPinRegion region) v
      if bitW v 0 then s.regionLoad region else s)

/-! ## The prefix table and the partition caches (R253, R254, R265 to R268, R273) -/

/-- The lines of the prefix table lie in a valid TABLE region of content 4 in the key's Alcove die (R265). -/
def State.prefRegions (s : State) (key : Nat) : List Nat :=
  (s.regionsWith 4).filter fun i => let w := s.reg (Reg.memPinRegion i); bitsW w 5 4 == (prefBucket s.member key).1 && regionKind w == 2
/-- Entries of the bucket of a key. -/
def State.bucketOf (s : State) (key : Nat) : List PrefEnt := s.objs.prefs.filter fun e => prefBucket s.member e.key == prefBucket s.member key
/-- Writes the line of a bucket whole (R99, R267): its four entries by place, a free one zero. -/
def State.prefLine (s : State) (key : Nat) : State :=
  let es := s.bucketOf key
  let line := (List.range 4).flatMap fun i => match es.find? fun e => e.slot == i with | some e => e.bytes | none => zeros 32
  (s.prefRegions key).foldl (fun s i => s.regionWrite i ((prefBucket s.member key).2 * 128) line) s
/-- Changes the entries that pass, none where they leave the table, and writes their lines. -/
def State.prefsChange (s : State) (is : PrefEnt → Bool) (g : PrefEnt → Option PrefEnt) : State :=
  let keys := ((s.objs.prefs.filter is).map (·.key)).eraseDups
  keys.foldl State.prefLine (s.updObjs fun o => { o with prefs := o.prefs.filterMap fun e => if is e then g e else some e })
def State.prefDrop (s : State) (is : PrefEnt → Bool) : State := s.prefsChange is fun _ => none

/-- A released step reads the entry (R253, R272). -/
def State.prefInUse (s : State) (e : PrefEnt) : Bool :=
  s.reqs.any fun r => r.2.phase == .running && r.2.part == e.part && r.2.xs.usePref.contains e.key
def State.cacheInUse (s : State) (e : CacheEnt) : Bool :=
  s.reqs.any fun r => r.2.phase == .running && r.2.part == e.part && r.2.xs.useKeys.contains (e.kv, e.key)

/-- Evicts the entry of a partition that was used longest ago, over the three caches, skipping those that a released step reads (R254). A pinned prefix entry stays (R268). -/
def State.evictOne (s : State) (p : Nat) : Option State :=
  let c := oldestOf (·.used) (s.objs.caches.filter fun c => c.part == p && !s.cacheInUse c)
  let q := oldestOf (·.order) (s.objs.prefs.filter fun e => e.part == p && !e.pinned && !s.prefInUse e)
  match c, q with
  | none, none => none
  | some c, none => some (s.updObjs fun o => { o with caches := o.caches.erase c })
  | none, some q => some (s.prefDrop (· == q))
  | some c, some q =>
    some (if c.used ≤ q.order then s.updObjs fun o => { o with caches := o.caches.erase c } else s.prefDrop (· == q))

/-- Evicts until a test passes; without an entry that may go, what was evicted stays evicted. -/
def State.evictUntil (p : Nat) (ok : State → Bool) : Nat → State → State
  | 0, s => s
  | n + 1, s => if ok s then s else match s.evictOne p with | some q => State.evictUntil p ok n q | none => s

/-- Makes whole granules free for another purpose (R254): demands by Hall die, or a number on any die. -/
def State.evictFor (s : State) (set : Nat) (ok : State → Bool) : State :=
  if set < 16 then State.evictUntil set ok (s.objs.caches.length + s.objs.prefs.length + 1) s else s
def State.roomDies (s : State) (set : Nat) (needs : List (Nat × Nat)) : State := s.evictFor set fun q => (q.allocDies set needs).isSome
def State.room (s : State) (set n : Nat) : State := s.evictFor set fun q => (q.alloc set n).isSome

/-! ## Prefetches -/

/-- Issues a prefetch within the share of 512 lines, or the lower limit of the partition (R108); one that finds no place is dropped. -/
def State.prefetch (s : State) (p l a : Nat) : State :=
  let limit := min 512 (bitsW (s.reg (Reg.memOutstanding p)) 10 0)
  let line := a / 128 * 128
  if (s.alc.fills.filter fun f => f.land == l).length < limit then s.alcPrefetch p l line (s.t2 line 128) else s

end Sys2Proof.Machine
end

