-- ==== Sys2Proof/Machine/Admission.lean ====
section
/-! DEFINITION. Admission of a descriptor: checks 1 to 6 of R121, with the order of R548 and R549, the steps a request is split into, budgets and session contexts (05, 06, 08, 09, 10, 11, 12). -/

namespace Sys2Proof.Machine

open Sys2Proof

/-! ## Check 1: which bytes a descriptor may use (R351, R352, R550) -/

def useIndex (d : Blob) : Bool := bitN (Blob.u8 d 184) 0
def genFlag (d : Blob) (i : Nat) : Bool := bitN (Blob.u8 d 184) i

/-- The byte ranges of a descriptor that its opcode uses; every other byte must be zero. -/
def usedRanges (d : Blob) : List (Nat × Nat) :=
  let o := Blob.u8 d 0
  let op := Blob.u8 d 64
  let has := fun l : List Nat => l.contains o
  let on := fun (c : Bool) r => if c then [r] else []
  [(0, 16)] ++ on (has [1, 2, 3, 0x41]) (16, 20) ++ on (has [1, 2, 3, 4, 5, 0x10, 0x11, 0x12, 0x13, 0x14, 0x15, 0x20, 0x21, 0x22, 0x31]) (20, 24)
    ++ on (has [1, 2, 3, 4, 5, 0x15]) (24, 40)
    ++ on (has [1, 2, 3, 4, 5, 0x10, 0x11, 0x12, 0x15, 0x20] || (o == 0x14 && op == 1) || (o == 0x21 && op == 4) || (o == 0x22 && bitN (Blob.u8 d 89) 0)) (40, 52)
    ++ on (hasStatusBlock o) (56, 64) ++ on (o == 3 && bitN (Blob.u8 d 1) 1) (56, 60)
    ++ (match o with
      | 0x01 => [(64, 66)]
      | 0x02 => [(64, 112)]
      | 0x03 => [(64, 256)]
      | 0x04 => [(64, 65)] ++ on (bitN op 2) (72, 84)
      | 0x05 => [(64, 65)]
      | 0x10 | 0x11 | 0x12 => [(64, 78)]
      | 0x13 => [(64, 76)]
      | 0x14 => [(64, 65)] ++ on (op < 2) (72, 80) ++ on (op == 1) (80, 86)
      | 0x15 => [(64, 112)]
      | 0x20 => [(64, 90), (92, 104)]
      | 0x21 => [(64, 66)] ++ on (op ≤ 2) (72, 80) ++ on (op < 2) (80, 88)
      | 0x22 => [(64, 91), (92, 112)]
      | 0x30 => [(64, 82), (84, 88)]
      | 0x31 => [(64, 65)] ++ on (op == 2 || op == 3) (68, 72)
      | 0x50 => [(64, 78)]
      | 0x51 => [(64, 76), (77, 78), (80, 88)]
      | 0x60 => [(64, 69)]
      | _ => [])

def unusedZero (d : Blob) : Bool :=
  let rs := usedRanges d
  (Blob.slice d 0 256).zipIdx.all fun e => rs.any (fun r => decide (r.1 ≤ e.2) && decide (e.2 < r.2)) || e.1 == 0#8

def opcodes : List Nat := [1, 2, 3, 4, 5, 0x10, 0x11, 0x12, 0x13, 0x14, 0x15, 0x20, 0x21, 0x22, 0x30, 0x31, 0x40, 0x41, 0x50, 0x51, 0x60]

/-! ### Scatter lists (R151, R152) -/

def segCount (d : Blob) : Nat := Blob.u32 d 36 % 32
def isReject (d : Blob) : Bool := bitN (Blob.u32 d 36) 8
def inputLen (d : Blob) : Nat := Blob.u32 d 32
/-- The segments of a request: address and length. -/
def State.segments (s : State) (f : Nat) (d : Blob) : List (Nat × Nat) :=
  (List.range (segCount d)).map fun i =>
    let e := s.hostRead f (Blob.u64 d 24 + 16 * i) 16
    (Blob.u64 e 0, Blob.u32 e 8)
def State.segLens (s : State) (f : Nat) (d : Blob) : List Nat := (s.segments f d).map Prod.snd
/-- The input gathered in list order. -/
def State.gather (s : State) (f : Nat) (d : Blob) : Blob := (s.segments f d).flatMap fun e => s.hostRead f e.1 e.2

/-- Whether VECTOR_QUERY is set in the search block at `at_`. -/
def vectorQuery (d : Blob) : Bool := bitN (Blob.u8 d 72) 3
/-- Input in token words. -/
def tokenInput (d : Blob) : Bool := (Blob.u8 d 0 == 1 && bitN (Blob.u8 d 65) 1) || (Blob.u8 d 0 == 3 && genFlag d 1)
def queryInput (d : Blob) : Bool :=
  ((Blob.u8 d 0 == 2 || Blob.u8 d 0 == 0x15) && vectorQuery d) || (Blob.u8 d 0 == 3 && useIndex d && vectorQuery d)

def State.inputOk (s : State) (f : Nat) (d : Blob) : Bool :=
  let o := Blob.u8 d 0
  let n := inputLen d
  let w := Blob.u32 d 36
  let lim := if o = 4 || o = 5 then 4194304 else if tokenInput d then 524288 else if queryInput d then 2 ^ 32 else 65536
  Blob.u64 d 24 % 16 == 0 && decide (segCount d ≤ 16) && w &&& (0xFFFFFFFF - 0x11F) == 0 && (s.segLens f d).foldl (· + ·) 0 == n
    && (List.range (segCount d)).all (fun i => Blob.zeroIn (s.hostRead f (Blob.u64 d 24 + 16 * i) 16) 12 16)
    && decide (n ≤ lim) && (n != 0 || o == 4 || o == 5) && (!(o == 5 || tokenInput d) || n % 4 == 0)

/-! ### Opcode bodies -/

/-- The search parameter block at 64 (R216, R217). -/
def searchOk (d : Blob) (isRecall : Bool) : Bool :=
  let k := Blob.u16 d 64
  let c := Blob.u16 d 66
  let np := Blob.u16 d 68
  let nm := Blob.u16 d 70
  let fl := Blob.u8 d 72
  let sh := Blob.u8 d 84
  let wd := Blob.u8 d 85
  decide (1 ≤ k) && decide (k ≤ 4096) && (isRecall || ((c == 0 || (decide (k ≤ c) && decide (c ≤ 4096))) && decide (1 ≤ np) && decide (np ≤ 8192)
      && (nm == 0 || (decide (np ≤ nm) && decide (nm ≤ 8192)))))
    && decide (fl < 16) && (if bitN fl 3 then decide (Blob.u8 d 73 ≤ 2) && Blob.u32 d 100 == 0 else Blob.u8 d 73 == 0 && modelIdOk (Blob.u32 d 100))
    && decide (sh ≤ 31) && decide (wd ≤ 32) && (!bitN fl 2 || (decide (1 ≤ wd) && decide (sh + wd ≤ 32)))
    && Blob.zeroIn d 86 88 && Blob.zeroIn d 104 112

/-- A passage store descriptor (R249); with TIER 1 its addresses name PEER (R399). -/
def storeOk (b : Blob) : Bool :=
  Blob.u32 b 0 == 0x4C505354 && decide (Blob.u8 b 8 ≤ 1) && (if Blob.u8 b 8 = 0 then Blob.u8 b 9 == 0 else decide (Blob.u8 b 9 < 16))
    && Blob.zeroIn b 10 12 && Blob.u64 b 16 % 64 == 0 && decide (1 ≤ Blob.u64 b 24) && decide (Blob.u64 b 24 ≤ 2 ^ 40) && Blob.u64 b 32 % 4 == 0
    && Blob.zeroIn b 48 60 && (crc32c (Blob.slice b 0 60)).toNat == Blob.u32 b 60
    && (Blob.u8 b 8 == 0 || (Blob.u8 b 23 / 16 == Blob.u8 b 9 && Blob.u8 b 39 / 16 == Blob.u8 b 9))

/-- The rerank and packing block at 112 (R247, R248). -/
def State.rerankOk (s : State) (f : Nat) (d : Blob) : Bool :=
  let rin := Blob.u16 d 112
  let rout := Blob.u16 d 114
  let pf := Blob.u8 d 129
  let budget := Blob.u32 d 132
  decide (rin ≤ min 1024 (Blob.u16 d 64)) && decide (1 ≤ rout) && decide (rout ≤ 64) && (rin == 0 || decide (rout ≤ rin))
    && (if rin = 0 then Blob.u32 d 116 == 0 else modelIdOk (Blob.u32 d 116)) && Blob.u64 d 120 % 64 == 0
    && decide (pf < 64) && !(bitN pf 4 && bitN pf 5) && Blob.zeroIn d 130 132 && decide (64 ≤ budget) && decide (budget ≤ 131072)
    && decide (Blob.u32 d 144 ≤ 65536) && decide (Blob.u32 d 148 ≤ 65536) && Blob.u64 d 160 % 8 == 0
    && (Blob.u64 d 160 == 0 || decide (32 + 32 * rout ≤ Blob.u32 d 168)) && Blob.zeroIn d 172 176 && storeOk (s.hostRead f (Blob.u64 d 120) 64)

def f32At (d : Blob) (o : Nat) : F32 := BitVec.ofNat 32 (Blob.u32 d o)
def finitePos (x : F32) : Bool := F.lt F.zero x && !F.isInf x

/-- The stop-string list of a GENERATE; an address of 0 names none (R170, R281). -/
def State.stopsOf (s : State) (f : Nat) (d : Blob) : Option (List Blob × Bool) :=
  if Blob.u64 d 208 = 0 then some ([], false) else stopList (s.hostRead f (Blob.u64 d 208) (8 + 72 * 16))

/-- The generation block at 176 (R281, R282). -/
def State.generateOk (s : State) (f : Nat) (d : Blob) : Bool :=
  let stream := bitN (Blob.u8 d 1) 1
  let mode := Blob.u8 d 185
  let topk := Blob.u8 d 186
  let mt := Blob.u32 d 176
  let temp := f32At d 188
  let topp := f32At d 192
  let ring := Blob.u32 d 56
  decide (1 ≤ mt) && decide (mt ≤ 131072) && decide (Blob.u8 d 184 < 32)
    && (if useIndex d then searchOk d false && s.rerankOk f d && indexIdOk (Blob.u32 d 180) && !genFlag d 1 else Blob.zeroIn d 64 176 && Blob.u32 d 180 == 0)
    && decide (mode ≤ 3) && (if mode = 2 then decide (1 ≤ topk) && decide (topk ≤ 64) else topk == 0) && decide (Blob.u8 d 187 ≤ 8)
    && (if mode = 0 then Blob.u32 d 188 == 0 else finitePos temp)
    && (if mode = 3 then finitePos topp && !F.lt F.one topp else Blob.u32 d 192 == 0)
    && (decide (Blob.u16 d 204 ≤ 1023) || Blob.u16 d 204 == 0x7FF) && (decide (Blob.u8 d 206 ≤ 63) || Blob.u8 d 206 == 0xFF) && Blob.u8 d 207 == 0
    && (if genFlag d 4 then grammarIdOk (Blob.u32 d 216) else Blob.u32 d 216 == 0) && Blob.zeroIn d 224 256 && (s.stopsOf f d).isSome
    && (if stream then Blob.u64 d 40 == 0 && Blob.u32 d 48 == 0 && decide (ring < 64) && (s.ring f ring).live 3 else Blob.u32 d 48 != 0)

/-- The index and bag fields that TABLE_GATHER and TABLE_STEP share (R316, R330). -/
def State.bagsOk (s : State) (f : Nat) (d : Blob) : Bool :=
  let n := Blob.u32 d 72
  let b := Blob.u32 d 76
  let offs := (List.range b).map fun i => leNat (s.hostRead f (Blob.u64 d 80 + 4 * i) 4)
  let rec mono : List Nat → Bool
    | a :: c :: r => decide (a ≤ c) && mono (c :: r)
    | _ => true
  Blob.u64 d 64 % 4 == 0 && decide (1 ≤ n) && decide (n ≤ 16777216) && decide (b ≤ 1048576) && decide (Blob.u8 d 88 ≤ 2)
    && (Blob.u8 d 88 == 0) == (b == 0) && (if b = 0 then Blob.u64 d 80 == 0 else offs.headD 1 == 0 && mono offs && offs.all fun o => decide (o ≤ n))

/-- Tests of check 1 that an opcode's own fields make. -/
def State.bodyOk (s : State) (f : Nat) (d : Blob) : Bool :=
  let id := Blob.u32 d 20
  let op := Blob.u8 d 64
  match Blob.u8 d 0 with
  | 0x01 => modelIdOk id && s.inputOk f d && decide (op ≤ 2) && decide (Blob.u8 d 65 < 4)
  | 0x02 => indexIdOk id && s.inputOk f d && searchOk d false && decide (16 * Blob.u16 d 64 ≤ Blob.u32 d 48)
  | 0x03 => modelIdOk id && s.inputOk f d && s.generateOk f d
  | 0x04 => modelIdOk id && s.inputOk f d && decide (op < 8)
  | 0x05 => modelIdOk id && s.inputOk f d && decide (op < 2)
  | 0x10 | 0x11 | 0x12 =>
    indexIdOk id && Blob.u64 d 64 % 16 == 0 && decide (1 ≤ Blob.u32 d 72) && decide (Blob.u32 d 72 ≤ 65536) && Blob.u16 d 76 % 16 == 0
      && decide (8 * Blob.u32 d 72 ≤ Blob.u32 d 48)
  | 0x13 => indexIdOk id
  | 0x14 =>
    indexIdOk id && decide (op ≤ 3) && (op != 1 || (Blob.u64 d 72 % 16 == 0 && decide (1 ≤ Blob.u32 d 80) && decide (Blob.u32 d 80 ≤ 16777216)
      && Blob.u16 d 84 % 16 == 0 && decide (8 * Blob.u32 d 80 ≤ Blob.u32 d 48)))
  | 0x15 => indexIdOk id && s.inputOk f d && searchOk d true && decide (16 * Blob.u16 d 64 ≤ Blob.u32 d 48)
  | 0x20 =>
    tableIdOk id && s.bagsOk f d && decide (Blob.u8 d 89 ≤ 2) && decide (Blob.u32 d 92 ≤ 16777216) && (Blob.u32 d 92 != 0 || Blob.u64 d 96 == 0)
  | 0x21 =>
    tableIdOk id && decide (op ≤ 4) && (if op = 0 then decide (Blob.u8 d 65 < 2) else Blob.u8 d 65 == 0)
      && (!decide (op < 2) || (Blob.u64 d 72 % 16 == 0 && decide (1 ≤ Blob.u32 d 80) && decide (Blob.u32 d 80 ≤ 65536) && Blob.u32 d 84 % 16 == 0))
      && (op != 4 || decide (80 ≤ Blob.u32 d 48))
  | 0x22 =>
    let fl := Blob.u8 d 89
    tableIdOk id && s.bagsOk f d && Blob.u8 d 88 != 0 && decide (fl < 16) && (if bitN fl 0 then decide (Blob.u8 d 90 ≤ 2) else Blob.u8 d 90 == 0)
      && !F.isNan (f32At d 92) && !F.isInf (f32At d 92)
      && (if bitN fl 3 then tableIdOk (Blob.u32 d 108) && decide (1 ≤ Blob.u32 d 104) && decide (Blob.u32 d 104 ≤ 16384) else Blob.u32 d 108 == 0)
  | 0x30 => Blob.u64 d 64 % 4096 == 0 && bitN (Blob.u16 d 80) (Blob.u16 d 2 / 4096) && modelIdOk (Blob.u32 d 84)
  | 0x31 => decide (op ≤ 4) && (if op = 1 then indexIdOk id else if op = 4 then grammarIdOk id else modelIdOk id)
  | 0x50 => decide (Blob.u8 d 76 ≤ 2) && decide (Blob.u8 d 77 < 2) && Blob.u64 d 8 == 0 && (Blob.u8 d 76 == 1 || Blob.u32 d 72 &&& 0xFF008000 == 0)
  | 0x51 => decide (Blob.u8 d 77 < 2) && Blob.u64 d 8 == 0 && Blob.u32 d 72 &&& 0xFF008000 == 0
  | 0x60 => decide (Blob.u8 d 68 ≤ 63) || Blob.u8 d 68 == 0xFF
  | _ => true

/-- Check 1 (R121, R351). -/
def State.check1 (s : State) (f : Nat) (d : Blob) : Bool :=
  let o := Blob.u8 d 0
  opcodes.contains o && decide (Blob.u8 d 1 < 16) && (o == 3 || !bitN (Blob.u8 d 1) 1) && unusedZero d
    && (!hasStatusBlock o || Blob.u64 d 56 % 64 == 0) && Blob.u8 d 19 == 0 && s.bodyOk f d

/-! ## Check 2 (R375, R548) -/

def descPart (d : Blob) : Nat := Blob.u16 d 2 / 4096
def descTenant (d : Blob) : Nat := Blob.u16 d 2 % 4096

def State.tenant (s : State) (t : Nat) : Tenant := SMap.at s.tenants t {}
def State.updTenant (s : State) (t : Nat) (g : Tenant → Tenant) : State := { s with tenants := SMap.put s.tenants t (g (s.tenant t)) }
/-- The binding of a function; the owner's entry is fixed (R376). -/
def State.bind (s : State) (f : Nat) : Word := if f = s.ownerPort then 0x0FFF0000FFFF0001 else SMap.at s.binds f 0

/-- Binding and configuration (R375). -/
def State.bound (s : State) (f p t : Nat) : Bool :=
  let b := s.bind f
  bitW b 0 && bitW b (16 + p) && decide (bitsW b 43 32 ≤ t) && decide (t ≤ bitsW b 59 48)
    && bitW (s.tenant t).cfg 0 && bitW (s.tenant t).cfg (16 + p) && bitW (s.reg (Reg.partCtrl p)) 0

/-- Opcodes that a partition's kind allows (R132). -/
def kindAllows (exclusive : Bool) (o : Nat) : Bool :=
  [4, 5, 0x15, 0x50, 0x51, 0x60].contains o || (if exclusive then [0x14, 0x13, 0x22].contains o else !([0x14, 0x13, 0x22].contains o))

/-- MODE of a partition (R89). -/
def State.compatMode (s : State) (p : Nat) : Nat := bitsW (s.reg (Reg.sfuCompat p)) 1 0
/-- Whether a request runs in Rilqua mode: fixed at admission (R89). -/
def State.rilqua (s : State) (p : Nat) (d : Blob) : Bool := s.compatMode p == 1 || (s.compatMode p == 2 && bitN (Blob.u8 d 1) 2)

/-- Opcodes of the owner alone (R276, R313, R370). -/
def ownerOnly (d : Blob) : Bool :=
  Blob.u8 d 0 == 0x30 || Blob.u8 d 0 == 0x31 || (Blob.u8 d 0 == 0x21 && (Blob.u8 d 64 == 2 || Blob.u8 d 64 == 3))

/-- A partition whose STATE reads 5: fenced (R429), and not in reset, whose STATE reads 4 (R384, R548). -/
def State.fenced (s : State) (p : Nat) : Bool := !(s.part p).fencedBy.isEmpty && !(s.part p).resetting

/-- Check 2 in the order of R548: 0 passes. -/
def State.check2 (s : State) (f : Nat) (d : Blob) : Nat :=
  let p := descPart d
  if !s.bound f p (descTenant d) then 0x23
  else if !kindAllows (bitW (s.reg (Reg.partCtrl p)) 1) (Blob.u8 d 0) || (bitN (Blob.u8 d 1) 2 && s.compatMode p == 0) then 0x23
  else if ownerOnly d && !s.isOwner f then 0x23
  else if s.fenced p then 0x23
  else if (s.part p).resetting then 0x31
  else 0

/-! ## Check 3 (R549) -/

/-- The first non-zero status. -/
def firstFail : List Nat → Nat
  | [] => 0
  | x :: r => if x = 0 then firstFail r else x

/-- Whether a peer can take a sub-request for an index number (R398). -/
def State.peerTest (s : State) (m num p : Nat) : Nat :=
  let x := SMap.at s.gal.peers m {}
  if x.state != 2 || !x.ready.any (fun e => e.1 == num) then 0x28 else if bitN x.accept p then 0 else 0x23

/-- Modules that a PEERS field names, apart from this one (R216). -/
def State.peersOf (s : State) (d : Blob) : List Nat := (setBitsOf 16 (Blob.u16 d 74)).filter (· != s.gal.moduleId)

/-- Objects of a search block: index, embedding model, peers; `num` is the index ID. -/
def State.searchTests (s : State) (d : Blob) (p id : Nat) (mid : List Nat) : List Nat :=
  let dies := s.partDies p
  let ix := match s.indexOf id with
    | none => 0x28
    -- a query needs the coarse region in the Alcove dies that serve its landings (R202)
    | some x => if dies.any fun h => x.region (alcoveOf h) == 0xFF then 0x28 else 0
  [ix] ++ (if vectorQuery d then [] else [s.modelTest p (Blob.u32 d 100) [2]]) ++ mid ++ (s.peersOf d).map fun m => s.peerTest m (id % 8) p

/-- Property tests of a search (R217): refine codes, query length, dimensions. -/
def State.searchProps (s : State) (d : Blob) (id : Nat) : Bool :=
  match s.indexOf id with
  | none => false
  | some x =>
    (!bitN (Blob.u8 d 72) 0 || x.r != 0)
      && (if vectorQuery d then inputLen d == x.dimD * fmtBytes (Blob.u8 d 73)
          else match s.modelOf (Blob.u32 d 100) [2] with | some m => (Config.outDim (imgCrc m.image)).toNat == x.dimD | none => false)

/-- Bytes of an insert record (R197). -/
def insertSize (x : Index) (codes : Bool) : Nat := 32 + (if codes then x.m + x.r else x.dimD * fmtBytes x.fmt)

/-- A record of a batch does not fit the stride: the size of an insert record follows from its own flags (R196, R197; DEDUCED, log entry 28). -/
def shortStride (x : Index) (stride : Nat) (recs : List Blob) : Bool := recs.any fun b => decide (stride < insertSize x (bitN (Blob.u8 b 5) 1))
/-- Records of a batch: stride and count from the body. -/
def splitRecords (b : Blob) (stride count : Nat) : List Blob := (List.range count).map fun i => Blob.slice b (stride * i) stride

/-- What the step programs of a model name is there: every function code has a function (R70), and no write target lies in T3 or T4 (R94). An image without step programs names nothing. -/
def State.stepsOk (s : State) (m : Model) : Bool :=
  (imgSec m.image 7).2 == 0 || (!(Config.stepNames m.image).outward && (Config.stepNames m.image).codes.all fun c => (s.sfuCode false c).isSome)
/-- The models that a request's steps run: those of the IDs that are resident. -/
def State.runsModels (s : State) (ids : List Nat) : Bool := ids.all fun id => match s.modelOf id [1, 2, 3] with | some m => s.stepsOk m | none => true

/-- Whether a request meets the conditions of speculation: the member, the partition and the flag (R139). -/
def State.speculates (s : State) (p : Nat) (d : Blob) : Bool := s.member.speculates && bitW (s.reg (Reg.partSpec p)) 0 && bitN (Blob.u8 d 1) 3

/-- Result of check 3: 0 passes. -/
def State.check3 (s : State) (f : Nat) (d : Blob) : Nat :=
  let p := descPart d
  let t := descTenant d
  let id := Blob.u32 d 20
  let op := Blob.u8 d 64
  let prop := fun (ok : Bool) => if ok then 0 else 0x21
  match Blob.u8 d 0 with
  | 0x01 =>
    firstFail [s.modelTest p id [2], match s.modelOf id [2] with
      | some m => prop ((!bitN (Blob.u8 d 65) 1 || decide (inputLen d / 4 ≤ imgContext m.image))
          && Blob.u32 d 48 == (Config.outDim (imgCrc m.image)).toNat * fmtBytes op && s.stepsOk m)
      | none => 0]
  | 0x02 => firstFail (s.searchTests d p id [] ++ [prop (s.searchProps d id && (vectorQuery d || s.runsModels [Blob.u32 d 100]))])
  | 0x15 => firstFail (s.searchTests d p id [] ++ [prop (s.searchProps d id && (vectorQuery d || s.runsModels [Blob.u32 d 100]))])
  | 0x03 =>
    let num := idNum id
    let set := Blob.u16 d 204
    let steer := Blob.u8 d 206
    let ixId := Blob.u32 d 180
    let gen := s.modelOf id [1]
    let tmpl := gen.bind fun m => m.template (Blob.u8 d 128)
    let store := s.hostRead f (Blob.u64 d 120) 64
    let voc := match gen with | some m => vocCrc m.vocab | none => 0
    -- ascending body offset: EMBED_MODEL, PEERS last; RERANK_MODEL, TEMPLATE, INDEX_ID, PRIVATE_SET, STEER_SLOT, GRAMMAR_ID
    let peers := if useIndex d then (s.peersOf d).map fun m => s.peerTest m (ixId % 8) p else []
    let ix := match s.indexOf ixId with
      | none => 0x28
      | some x => if (s.partDies p).any fun h => x.region (alcoveOf h) == 0xFF then 0x28 else 0
    let objs := [s.modelTest p id [1]]
      ++ (if useIndex d && !vectorQuery d then [s.modelTest p (Blob.u32 d 100) [2]] else [])
      ++ (if useIndex d && Blob.u16 d 112 != 0 then [s.modelTest p (Blob.u32 d 116) [3]] else [])
      ++ (if useIndex d then [if tmpl.isSome then 0 else 0x28, ix] else [])
      ++ (if set = 0x7FF then [] else [setTest (SMap.find s.objs.sets set) num t p])
      ++ (if steer = 0xFF then [] else [setTest (SMap.find s.objs.steers steer) num t p])
      ++ (if genFlag d 4 then [s.grammarTest (Blob.u32 d 216) num p] else []) ++ peers
    let rr := match s.modelOf (Blob.u32 d 116) [3] with | some m => imgVocabCrc m.image | none => voc
    let props := (!useIndex d || (s.searchProps d ixId
        && decide (Blob.u32 d 132 ≤ (match gen with | some m => imgContext m.image | none => 0))
        && (Blob.u16 d 112 == 0 || rr == voc) && Blob.u32 store 12 == voc && (match tmpl with | some b => Blob.u32 b 8 == voc | none => false)))
      && (useIndex d || !genFlag d 2 || (match gen with | some m => vocBos m.vocab != vocNone | none => false))
      && s.runsModels ([id] ++ (if useIndex d && !vectorQuery d then [Blob.u32 d 100] else []) ++ if useIndex d && Blob.u16 d 112 != 0 then [Blob.u32 d 116] else [])
    firstFail (objs ++ [prop props])
  | 0x04 =>
    firstFail [s.modelTest p id [1, 2, 3], match s.modelOf id [1, 2, 3] with
      | some m => prop ((!bitN op 0 || vocBos m.vocab != vocNone) && (!bitN op 1 || vocEos m.vocab != vocNone))
      | none => 0]
  | 0x05 => s.modelTest p id [1, 2, 3]
  | 0x10 | 0x11 | 0x12 =>
    match s.indexOf id with
    | none => 0x28
    | some x =>
      let stride := Blob.u16 d 76
      match Blob.u8 d 0 with
      | 0x10 => prop (!shortStride x stride (splitRecords (s.hostRead f (Blob.u64 d 64) (Blob.u32 d 72 * stride)) stride (Blob.u32 d 72)))
      | 0x11 => prop (decide (8 ≤ stride))
      | _ => prop (decide (16 ≤ stride))
  | 0x13 => if (s.indexOf id).isSome then 0 else 0x28
  | 0x20 =>
    firstFail [s.tableTest p id, match s.tableOf id with
      | some x => prop (Blob.u32 d 48 == (if Blob.u32 d 76 = 0 then Blob.u32 d 72 else Blob.u32 d 76) * x.dim * fmtBytes (Blob.u8 d 89))
      | none => 0]
  | 0x21 =>
    if op = 2 then 0 else
    firstFail [s.tableTest p id, match s.tableOf id with
      | some x => prop (!decide (op < 2) || decide (8 + x.dim * (if op = 0 then 4 else fmtBytes x.fmt) ≤ Blob.u32 d 84))
      | none => 0]
  | 0x22 =>
    let fl := Blob.u8 d 89
    let q := Blob.u32 d 108
    firstFail [s.tableTest p id, if bitN fl 3 then s.tableTest p q else 0, match s.tableOf id with
      | some x => prop ((if bitN fl 0 then Blob.u32 d 48 == Blob.u32 d 76 * x.dim * fmtBytes (Blob.u8 d 90) else true)
          && (if bitN fl 3 then
                (match s.tableOf q with
                 | some y => y.nRows == Blob.u32 d 104 && y.dim == x.dim && y.fmt != 0 && y.peers == 2 ^ s.gal.moduleId && (q != id || bitN fl 1)
                 | none => false)
              else Blob.u32 d 104 == x.dim))
      | none => 0]
  | 0x31 =>
    let num := Blob.u32 d 68
    match op with
    | 0 => s.modelTest p id [1, 2, 3]
    | 1 => if (s.indexOf id).isSome then 0 else 0x28
    | 2 => firstFail [s.modelTest p id [1], setTest (SMap.find s.objs.sets num) (idNum id) t p]
    | 3 => firstFail [s.modelTest p id [1], setTest (SMap.find s.objs.steers num) (idNum id) t p]
    | _ => (match s.grammarOf id with | some m => if bitN m.mask p then 0 else 0x23 | none => 0x28)
  | _ => 0

/-- Objects a request holds while it is in flight. -/
def holdsOf (d : Blob) : List Obj :=
  let id := Blob.u32 d 20
  let on := fun (c : Bool) (o : Obj) => if c then [o] else []
  let emb := on (!vectorQuery d) (.model (idNum (Blob.u32 d 100)))
  match Blob.u8 d 0 with
  | 0x01 => [.model (idNum id)]
  | 0x02 => .index (id % 8) :: emb
  | 0x15 => .index (id % 8) :: emb
  | 0x03 =>
    [.model (idNum id)] ++ (if useIndex d then .index (Blob.u32 d 180 % 8) :: emb ++ on (Blob.u16 d 112 != 0) (.model (idNum (Blob.u32 d 116))) else [])
      ++ on (Blob.u16 d 204 != 0x7FF) (.expertSet (Blob.u16 d 204)) ++ on (Blob.u8 d 206 != 0xFF) (.steeringSet (Blob.u8 d 206))
      ++ on (genFlag d 4) (.grammar (Blob.u32 d 216 % 256))
  | 0x04 => [.model (idNum id)]
  | 0x05 => [.model (idNum id)]
  | 0x10 | 0x11 | 0x12 | 0x13 => [.index (id % 8)]
  | 0x20 => [.table (id % 4096)]
  | 0x21 => if Blob.u8 d 64 = 2 || Blob.u8 d 64 = 3 then [] else [.table (id % 4096)]
  | 0x22 => .table (id % 4096) :: on (bitN (Blob.u8 d 89) 3) (.table (Blob.u32 d 108 % 4096))
  | _ => []

/-! ## The steps of a request (R30) -/

/-- The stages a descriptor's request runs, in order. Escalation, further decode steps and the check pass are added as they arise. -/
def planOf (d : Blob) : List Stage :=
  let text := if queryInput d then [] else [Stage.tokenise, Stage.embed]
  let refine := if bitN (Blob.u8 d 72) 0 then [Stage.refine] else []
  let search := text ++ [.probe, .scan, .select] ++ refine ++ [.merge]
  match Blob.u8 d 0 with
  | 0x01 => (if tokenInput d then [] else [.tokenise]) ++ [.embed]
  | 0x02 => search
  | 0x03 =>
    if useIndex d then (if queryInput d then [.tokenise] else []) ++ search ++ [.fetch] ++ (if Blob.u16 d 112 = 0 then [] else [.rerank]) ++ [.pack, .prefill]
    else (if tokenInput d then [] else [.tokenise]) ++ [.prefill]
  | 0x04 => [.tokenise]
  | 0x05 => [.detokenise]
  | 0x10 | 0x11 | 0x12 | 0x13 | 0x14 => [.index]
  | 0x15 => text ++ [.scan, .select, .merge]
  | 0x20 => [.gather]
  | 0x21 => if Blob.u8 d 64 < 2 then [.update] else []
  | 0x22 => (if bitN (Blob.u8 d 89) 0 then [.gather] else []) ++ [.gradient, .update]
  | 0x30 => [.load]
  | _ => []

/-! ## Checks 4 to 6 -/

/-- The deadline class (R127); RECALL_PROBE runs at class 3 (R245). -/
def State.classOf (s : State) (d : Blob) : Nat :=
  let dl := Blob.u64 d 8
  let w := s.reg (Reg.partDeadline (descPart d))
  let us := (dl - s.now) / 1000
  if dl = 0 || Blob.u8 d 0 = 0x15 then 3
  else if us < bitsW w 19 0 then 0 else if us < bitsW w 39 20 then 1 else if us < bitsW w 59 40 then 2 else 3

/-- Opcodes that skip checks 5 and 6 (R121, R354). -/
def skips56 (o : Nat) : Bool := [0x40, 0x41, 0x50, 0x51, 0x60].contains o
/-- Opcodes that skip check 3; the opcodes that name an object that does not yet exist pass it by check3 itself. -/
def skips3 (o : Nat) : Bool := [0x40, 0x41, 0x50, 0x51, 0x60, 0x14, 0x30].contains o

/-- Check 5 (R294): 0 passes, 1 waits, else the status. -/
def State.check5 (s : State) (d : Blob) : Nat :=
  let t := s.tenant (descTenant d)
  let need : Nat := if Blob.u8 d 0 = 3 then max 1 (Blob.u32 d 220) else 1
  if (need : Int) ≤ t.own + t.surplus then 0 else if bitW t.cfg 1 then 0x29 else 1

/-- Contexts of a Vestibule in use: open sessions and transient contexts (R17, R284). -/
def State.contextsUsed (s : State) (v : Nat) : Nat :=
  (s.sessions.filter fun e => e.1 / 16384 == v && e.2.isOpen).length
    + (s.reqs.filter fun e => e.1 / 16384 == v && e.2.peer.isNone && [1, 2, 3].contains e.2.opc && e.2.session.isNone && e.2.phase != .waiting).length

/-- The session a request names: its index where the handle is good (R354). -/
def State.sessionOf (s : State) (f : Nat) (d : Blob) : Option Nat :=
  let h := Blob.u32 d 16
  let i := h % 65536
  let x := SMap.at s.sessions i {}
  if x.isOpen && !x.closing && x.gen == h / 65536 % 256 && x.fn == f && x.tenant == descTenant d then some i else none

/-- Check 6 (R284): 0 passes with its session, 1 waits, else the status. -/
def State.check6 (s : State) (f vest : Nat) (d : Blob) : Nat × Option Nat :=
  if !([1, 2, 3].contains (Blob.u8 d 0)) then (0, none)
  else if Blob.u32 d 16 = 0 then (if s.contextsUsed vest < 16384 then (0, none) else (0x22, none))
  else match s.sessionOf f d with
    | none => (0x22, none)
    | some i => if Blob.u8 d 0 = 3 && (SMap.at s.sessions i {}).busy.isSome then (1, some i) else (0, some i)

/-- Job opcodes of an exclusive partition (R133). -/
def isJob (o : Nat) : Bool := [0x13, 0x14, 0x22].contains o

/-- Ends a request that admission refuses: result count and bytes 0 (R356). -/
def State.refuse (s : State) (slot status : Nat) : State :=
  (s.updReq slot fun r => { r with ending := some status, stopped := true, phase := .balustrade, stages := [], ext := [], epoch := 0 }).finish slot

/-- Makes checks 5 and 6 of a request; one that passes is queued, binding its session (R121, R284). The flag says whether it still waits. -/
def State.check56 (s : State) (slot : Nat) : State :=
  match s.req? slot with
  | none => s
  | some r =>
    let c5 := s.check5 r.desc
    if c5 = 1 then s.setReq slot { r with phase := .waiting }
    else if c5 != 0 then
      (s.updTenant r.tenant fun t => { t with refused := satAdd 32 t.refused 1 }).refuse slot c5
    else
      let c6 := s.check6 r.fn (slotVest slot) r.desc
      if c6.1 = 1 then s.setReq slot { r with phase := .waiting }
      else if c6.1 != 0 then s.refuse slot c6.1
      else
        let s := match c6.2 with
          | some i => if r.opc = 3 then { s with sessions := SMap.upd s.sessions i fun x => { x with busy := some slot } } else s
          | none => s
        s.setReq slot { r with phase := .ready, session := c6.2 }

/-- The descriptor at the front of a ring is one for a row: its opcode and sub-operation (offset, value, highest known), or an opcode or sub-operation that no row has. -/
def opMatch (d : Blob) (o : Nat) (sub : Option (Nat × Nat × Nat)) : Bool :=
  let known := opcodes.contains (Blob.u8 d 0)
  if !known then true
  else Blob.u8 d 0 == o && (match sub with | some (off, v, top) => Blob.u8 d off == v || decide (top < Blob.u8 d off) | none => true)

/-- What an opcode does at admission beyond its queueing: a change of the state for the slot. -/
abbrev AtAdmit := State → Nat → State

/-- The request that a descriptor read from ring n becomes, before its checks. -/
def State.newReq (s : State) (f n cq : Nat) (d : Blob) : Req :=
  { fn := f, ring := n, cq := cq, order := s.nextOrder, desc := d, admitAt := s.now, cls := s.classOf d, part := descPart d, phase := .waiting,
    brownout := s.power.warn.isSome, holdover := s.newel.servo != 2, handle := Blob.u32 d 16,
    pos := (s.ring f n).dev, stages := planOf d,
    flags := shl (b2n (s.rilqua (descPart d) d)) 12 + (if Blob.u8 d 0 = 3 && useIndex d && s.speculates (descPart d) d then 64 else 0) }

/-- Takes the front descriptor of a ring into an admission slot (R345, R349). -/
def State.entered (s : State) (f n slot : Nat) : State :=
  let d := s.nextDesc f n
  let cq := (s.ring f n).cqOf
  let s := s.takeDesc f n
  { s.setReq slot (s.newReq f n cq d) with nextOrder := s.nextOrder + 1 }

/-- The status of the first of checks 1 to 4 that fails, 0 when all pass (R121). -/
def State.admitFail (s : State) (f : Nat) (d : Blob) : Nat :=
  if !s.check1 f d then 0x21 else
  let c2 := s.check2 f d
  if c2 != 0 then c2 else
  let c3 := if skips3 (Blob.u8 d 0) then 0 else s.check3 f d
  if c3 != 0 then c3 else if Blob.u64 d 8 != 0 && Blob.u64 d 8 ≤ s.now then 0x24 else 0

/-- A request that has passed checks 1 to 4: it holds its objects, and its status block is written (R359). -/
def State.accepted (s : State) (slot : Nat) (d : Blob) : State :=
  (s.updReq slot fun r => { r with holds := holdsOf d }).statusBlock slot 1

/-- A job finds its exclusive partition taken, or jobs waiting before it (R133). -/
def State.jobBusy (s : State) (o p : Nat) : Bool :=
  isJob o && ((s.part p).owner.isSome || s.reqs.any fun e => e.2.phase == .jobWait && e.2.part == p)

/-- Reads the front descriptor of a ring and admits it (R121, R345, R349, R541). `act` runs for a request that has passed checks 1 to 4, after checks 5 and 6 where the opcode makes them. -/
def State.admitWith (s : State) (f n : Nat) (act : AtAdmit) (own : Bool) : State :=
  match s.freeSlotOf (fnPort f) with
  | none => s
  | some slot =>
    let d := s.nextDesc f n
    let s := s.entered f n slot
    let fail := s.admitFail f d
    -- a request refused here has no mode of its own to report, but SPEC_USED stands on every completion (R146)
    if fail != 0 then (s.updReq slot fun r => { r with flags := r.flags &&& 64 }).refuse slot fail else
    let s := s.accepted slot d
    if own then act s slot
    else if s.jobBusy (Blob.u8 d 0) (descPart d) then s.updReq slot fun r => { r with phase := .jobWait }
    else
      let s := if isJob (Blob.u8 d 0) then s.updPart (descPart d) fun x => { x with owner := some slot } else s
      act (s.check56 slot) slot

/-- Admission of a descriptor whose row names opcode `o`, and where it has one a sub-operation. -/
def State.descriptor (s : State) (t f n : Nat) (o : Nat) (sub : Option (Nat × Nat × Nat)) (act : AtAdmit) (own : Bool) : State :=
  let s := s.advance t
  if s.canRead f n && opMatch (s.nextDesc f n) o sub then s.admitWith f n act own else s

end Sys2Proof.Machine
end

