-- ==== Sys2Proof/Machine/Sync.lean ====
section
/-! DEFINITION. Sync counters, sessions, cancels, and the endings by deadline (05 R126, R134 to R138; 12 R354, R355). -/

namespace Sys2Proof.Machine

open Sys2Proof

/-! ## Sync counters -/

def syncIdx (h : Nat) : Nat := h % 32768
def State.sync (s : State) (i : Nat) : Sync := SMap.at s.syncs i {}
def State.setSync (s : State) (i : Nat) (x : Sync) : State := { s with syncs := SMap.put s.syncs i x }
/-- The counter a handle names for a request of partition p (R134). -/
def State.syncOf (s : State) (p h : Nat) : Option Sync :=
  let x := s.sync (syncIdx h)
  if x.live && x.gen == h / 65536 % 256 && x.part == p then some x else none
/-- Counters a partition holds (PART_SYNC_USE). -/
def State.syncUse (s : State) (p : Nat) : Nat := (s.syncs.filter fun e => e.2.live && e.2.part == p).length

def State.endWith (s : State) (slot status : Nat) (ext : Blob) : State :=
  (s.updReq slot fun r => { r with ending := some status, ext := ext, phase := .balustrade }).finish slot

def signalHandle (d : Blob) : Nat := Blob.u32 d 72

/-- Marks the waits pending on a destroyed counter with its last value; they complete at the next boundary (R136). -/
def State.orphanWaits (s : State) (h v : Nat) : State :=
  { s with reqs := SMap.mapVals s.reqs fun _ r =>
      if r.phase = .syncWait && signalHandle r.desc = h then { r with ending := some 0x27, ext := leBytes 8 v } else r }

/-- A signal takes effect: value, handle and saturation go to the completion (R136). -/
def State.signal (s : State) (slot : Nat) : State :=
  match s.req? slot with
  | none => s
  | some r =>
    let d := r.desc
    let v := Blob.u64 d 64
    let h := signalHandle d
    let ext := fun (val hd sat : Nat) => leBytes 8 val ++ leBytes 4 hd ++ leBytes 1 sat
    match Blob.u8 d 76 with
    | 1 =>
      let used := s.syncs.filter fun e => e.2.live
      if bitsW (s.reg (Reg.partSync r.part)) 15 0 ≤ s.syncUse r.part || 32768 ≤ used.length then s.endWith slot 0x27 []
      else match (List.range (used.length + 1)).find? fun i => !(s.sync i).live with
        | none => s.endWith slot 0x27 []
        | some i =>
          let s := s.setSync i { s.sync i with live := true, part := r.part, value := v }
          s.endWith slot 0 (ext v (i + shl (s.sync i).gen 16) 0)
    | op =>
      match s.syncOf r.part h with
      | none => s.endWith slot 0x27 []
      | some x =>
        if op = 0 then
          let v' := satAdd 64 x.value v
          (s.setSync (syncIdx h) { x with value := v' }).endWith slot 0 (ext v' h (b2n (decide (2 ^ 64 ≤ x.value + v))))
        else
          let s := (s.setSync (syncIdx h) { x with live := false, gen := (x.gen + 1) % 256 }).orphanWaits h x.value
          s.endWith slot 0 (ext x.value h 0)

/-- Earlier descriptors of the same submission ring that have not posted (R136). -/
def State.earlier (s : State) (r : Req) : Bool :=
  s.reqs.any fun e => e.2.fn == r.fn && e.2.ring == r.ring && e.2.peer.isNone && decide (e.2.order < r.order)

/-- Admission of a signal: at once, or after its ring (R136). A handle that names no counter ends it now (R134). -/
def State.admitSignal (s : State) (slot : Nat) : State :=
  match s.req? slot with
  | none => s
  | some r =>
    if Blob.u8 r.desc 76 != 1 && (s.syncOf r.part (signalHandle r.desc)).isNone then s.endWith slot 0x27 []
    else if bitN (Blob.u8 r.desc 77) 0 && s.earlier r then s.setReq slot { r with phase := .afterRing }
    else s.signal slot

def execSyncAdd (t fn ring : Nat) (s : State) : Res := .next (s.descriptor t fn ring 0x50 (some (76, 0, 2)) State.admitSignal true)
def execSyncCreate (t fn ring : Nat) (s : State) : Res := .next (s.descriptor t fn ring 0x50 (some (76, 1, 2)) State.admitSignal true)
def execSyncDestroy (t fn ring : Nat) (s : State) : Res := .next (s.descriptor t fn ring 0x50 (some (76, 2, 2)) State.admitSignal true)

/-- SYNC_AFTER_RING_EFFECT (R136). -/
def execSyncAfterRingEffect (t slot : Nat) (s : State) : Res :=
  let s := s.advance t
  match s.req? slot with
  | some r => .next (if s.running && r.phase = .afterRing && !s.earlier r then s.signal slot else s)
  | none => .next s

/-- Evaluates a wait: destroyed, satisfied, or timed out where `boundary` says so (R136, R137). -/
def State.evalWait (s : State) (slot : Nat) (boundary : Bool) : State :=
  match s.req? slot with
  | none => s
  | some r =>
    if r.phase != .syncWait then s
    else if r.ending.isSome then (if boundary then s.finish slot else s)
    else match s.syncOf r.part (signalHandle r.desc) with
      | none => if boundary then s.endWith slot 0x27 [] else s
      | some x =>
        let tm := Blob.u64 r.desc 80
        if Blob.u64 r.desc 64 ≤ x.value then s.endWith slot 0 (leBytes 8 x.value)
        else if boundary && tm != 0 && tm ≤ s.now then s.endWith slot 0x2A (leBytes 8 x.value)
        else s

/-- SYNC_WAIT (R137). -/
def execSyncWait (t fn ring : Nat) (s : State) : Res :=
  .next (s.descriptor t fn ring 0x51 none (fun s slot =>
    match s.req? slot with
    | none => s
    | some r =>
      if (s.syncOf r.part (signalHandle r.desc)).isNone then s.endWith slot 0x27 []
      else (s.setReq slot { r with phase := .syncWait }).evalWait slot false) true)

/-- The last boundary that has run. -/
def State.lastB (s : State) : Nat := s.newel.nextB - s.newel.len

/-- SYNC_WAIT_TIMEOUT: a non-zero timeout lies at or before the last boundary (R137). A wait on a destroyed counter completes at action 6 alone (R136). -/
def execSyncWaitTimeout (t slot : Nat) (s : State) : Res :=
  let s := s.advance t
  match s.req? slot with
  | some r =>
    let tm := Blob.u64 r.desc 80
    .next (if s.running && tm != 0 && tm ≤ s.lastB && r.ending.isNone && (s.syncOf r.part (signalHandle r.desc)).isSome then s.evalWait slot true else s)
  | none => .next s

/-! ## Endings -/

/-- Ends a request by a cancel, a deadline or a reset: one that has run no step ends at once; another stops at its next tile boundary and goes to the Balustrade at a boundary (R29, R126, R355). -/
def State.stopReq (s : State) (slot status : Nat) : State :=
  match s.req? slot with
  | none => s
  | some r =>
    -- a wait reports its counter's value whatever ends it (R137); where the counter was destroyed, its last value stands already (R136)
    let ext := match r.phase, r.ending, s.syncOf r.part (signalHandle r.desc) with
      | .syncWait, none, some x => leBytes 8 x.value
      | _, _, _ => r.ext
    let s := (s.endReq slot status).updReq slot fun q => { q with ext := ext }
    if r.unrun && r.peer.isNone then s.finish slot else s

/-- DEADLINE_EXPIRY (R126). -/
def State.deadlineOne (s : State) (slot b : Nat) : State :=
  match s.req? slot with
  | none => s
  | some r =>
    let dl := Blob.u64 r.desc 8
    if dl = 0 || b < dl || r.stopped then s else s.stopReq slot 0x24

def execDeadlineExpiry (t slot : Nat) (s : State) : Res :=
  let s := s.advance t
  .next (if s.running then s.deadlineOne slot s.lastB else s)

/-- Requests a CANCEL names (R355). -/
def State.cancelTargets (s : State) (r : Req) : List Nat :=
  let tag := Blob.u32 r.desc 64
  let sel := Blob.u8 r.desc 68
  SMap.keysOf s.reqs fun _ q => q.fn == r.fn && q.peer.isNone && q.tag == tag && (sel == 0xFF || q.ring == sel) && q.opc != 0x60 && q.phase != .epoch && !q.stopped

/-- Ends the targets of a CANCEL. A consolidation stops between batches (R208). -/
def State.cancelOne (s : State) (slot : Nat) : State :=
  match s.req? slot with
  | none => s
  | some r =>
    if r.opc = 0x13 && (r.cur.isSome || r.phase = .commit) && r.doubt = 0 then s.setReq slot { r with ending := some (r.ending.getD 0x30) }
    else s.stopReq slot 0x30

/-- CANCEL (R355). -/
def execCancel (t fn ring : Nat) (s : State) : Res :=
  .next (s.descriptor t fn ring 0x60 none (fun s slot =>
    match s.req? slot with
    | none => s
    | some r =>
      let ts := s.cancelTargets r
      let s := s.setReq slot { r with phase := .cancelling, count := ts.length, cancels := ts }
      let s := ts.foldl State.cancelOne s
      match s.req? slot with
      | some q => if q.cancels.isEmpty then (s.setReq slot { q with ending := some 0 }).finish slot else s
      | none => s) true)

/-- CANCEL_COMPLETE (R355). -/
def execCancelComplete (t slot : Nat) (s : State) : Res :=
  let s := s.advance t
  match s.req? slot with
  | some r => .next (if s.running && r.phase = .cancelling && r.cancels.isEmpty then (s.setReq slot { r with ending := some 0 }).finish slot else s)
  | none => .next s

/-! ## Sessions (R354) -/

/-- SESSION_OPEN: the lowest index of the Vestibule that is not open, generations 1 to 255. -/
def execSessionOpen (t fn ring : Nat) (s : State) : Res :=
  .next (s.descriptor t fn ring 0x40 none (fun s slot =>
    match s.req? slot with
    | none => s
    | some r =>
      let v := slotVest slot
      let used := s.sessions.filter fun e => e.1 / 16384 == v && e.2.isOpen
      if 16384 ≤ s.contextsUsed v then s.refuse slot 0x22
      else match (List.range (used.length + 1)).find? fun i => !(SMap.at s.sessions (v * 16384 + i) {}).isOpen with
        | none => s.refuse slot 0x22
        | some i =>
          let k := v * 16384 + i
          let x := SMap.at s.sessions k {}
          let g := x.gen % 255 + 1
          let s := { s with sessions := SMap.put s.sessions k { gen := g, isOpen := true, fn := r.fn, tenant := r.tenant } }
          (s.setReq slot { r with ending := some 0, handle := k + shl g 16, phase := .balustrade }).finish slot) true)

/-- Requests in flight of a session. -/
def State.sessionUsers (s : State) (i : Nat) : Bool := s.reqs.any fun e => e.2.session == some i

def State.closeSession (s : State) (i : Nat) : State :=
  { s with sessions := SMap.upd s.sessions i fun x => { x with isOpen := false, closing := false, busy := none } }

/-- SESSION_CLOSE. -/
def execSessionClose (t fn ring : Nat) (s : State) : Res :=
  .next (s.descriptor t fn ring 0x41 none (fun s slot =>
    match s.req? slot with
    | none => s
    | some r =>
      match s.sessionOf r.fn r.desc with
      | none => s.refuse slot 0x22
      | some i =>
        if s.sessionUsers i then { s.setReq slot { r with phase := .closing } with sessions := SMap.upd s.sessions i fun x => { x with closing := true } }
        else (s.closeSession i).endWith slot 0 []) true)

/-- SESSION_CLOSE_COMPLETE. -/
def execSessionCloseComplete (t slot : Nat) (s : State) : Res :=
  let s := s.advance t
  match s.req? slot with
  | some r =>
    let i := r.handle % 65536
    .next (if s.running && r.phase = .closing && !s.sessionUsers i then (s.closeSession i).endWith slot 0 [] else s)
  | none => .next s

end Sys2Proof.Machine
end

