-- ==== Sys2Proof/Machine/Vectors.lean ====
section
/-! DEFINITION. Vectors of an index: scaling, coarse vectors, codes, scores, keys and the room probe (07 R178 to R180, 08 R212 to R223, R236). Sums keep the native order in every mode (log entry 27). -/

namespace Sys2Proof.Machine

open Sys2Proof

/-- Scaling to unit L2 norm (R179). -/
def unitScale (xs : List F32) : List F32 :=
  let k := F.div F.one (F.sqrt (F.rowSumSq false xs))
  xs.map fun x => F.mul x k

/-- The sum of the element terms of a distance (L2) or a similarity (R218, R223, R236). -/
def termSum (metric : Nat) (a b : List F32) : F32 :=
  F.rowSum false (List.zipWith (fun x y => if metric = 0 then let d := F.sub x y; F.mul d d else F.mul x y) a b)

/-- The key of a score (R213). -/
def scoreKey (sim : Bool) (x : F32) : Nat :=
  if F.isNan x then 0xFFFFFFFF else
  let y := if sim then x ^^^ 0x80000000 else x
  let y := if F.isZero y then F.zero else y
  F.ordKey y

def bfAt (b : Blob) (off i : Nat) : F32 := F.ofBf16 (BitVec.ofNat 16 (Blob.u16 b (off + 2 * i)))

/-- The coarse vector P·x: BF16 operands, exact K-tile windows, folded in ascending order (R178). -/
def Index.coarseVec (x : Index) (v : List F32) : List F32 :=
  let b := v.map fun e => F.ofBf16 (F.toBf16 e)
  (List.range x.dimC).map fun i => Tile.bfDot ((List.range x.dimD).map fun j => bfAt x.block (x.off 0) (i * x.dimD + j)) b

def Index.centroid (x : Index) (r : Nat) : List F32 :=
  (List.range x.dimC).map fun i => F.ofE4m3 (BitVec.ofNat 8 (Blob.u8 x.block (x.off 1 + r * x.dimC + i)))
/-- The used neighbour slots of a room (R178). -/
def Index.neighbours (x : Index) (r : Nat) : List Nat :=
  ((List.range 32).map fun j => Blob.u x.block (x.off 2 + 96 * r + 3 * j) 3).filter (· != 0xFFFFFF)

/-- Coarse order of a room: key of its score, then its ID, in one number (R219). -/
def Index.roomOrder (x : Index) (coarse : List F32) (r : Nat) : Nat :=
  shl (scoreKey x.similar (termSum x.metric coarse (x.centroid r))) 32 + r

def insertSorted (c : Nat) : List Nat → List Nat
  | [] => [c]
  | a :: r => if c < a then c :: a :: r else a :: insertSorted c r

/-- The loop of R219; rooms stand with their order. -/
def probeLoop (x : Index) (ord : Nat → Nat) (w : Nat) : Nat → List Nat → List Nat → List Nat → List Nat
  | 0, _, _, list => list
  | _, [], _, list => list
  | n + 1, c :: front, seen, list =>
    if list.length = w && list.getLastD 0 < c then list else
    let list := (insertSorted c list).take w
    let new := ((x.neighbours (c % 2 ^ 32)).eraseDups).filter fun k => !seen.contains k
    probeLoop x ord w n (new.foldl (fun f k => insertSorted (ord k) f) front) (new ++ seen) list

/-- The ordered room list of a probe of width w. -/
def Index.probe (x : Index) (coarse : List F32) (w : Nat) : List Nat :=
  let o := x.roomOrder coarse
  (probeLoop x o w (x.nRooms + 1) [o x.entryRoom] [x.entryRoom] []).map (· % 2 ^ 32)

/-! ## Codes (R180) -/

/-- Codeword c of sub-space m in the codebook at `off`; d elements each. -/
def codeword (b : Blob) (off d m c : Nat) : List F32 := (List.range d).map fun e => bfAt b off ((m * 256 + c) * d + e)

/-- The nearest codeword; ties go to the lower index. -/
def nearest (b : Blob) (off d m : Nat) (sub : List F32) : Nat :=
  let ks := (List.range 256).map fun c => shl (scoreKey false (termSum 0 sub (codeword b off d m c))) 8 + c
  (ks.foldl min (2 ^ 40)) % 256

def encodeWith (b : Blob) (off n : Nat) (v : List F32) : Blob :=
  let d := v.length / n
  (List.range n).map fun m => BitVec.ofNat 8 (nearest b off d m ((v.drop (m * d)).take d))
/-- The reconstruction of a code. -/
def decodeWith (b : Blob) (off dim : Nat) (code : Blob) : List F32 :=
  let d := dim / code.length
  (List.range code.length).flatMap fun m => codeword b off d m (Blob.u8 code m)

def Index.pqCode (x : Index) (v : List F32) : Blob := encodeWith x.block (x.off 3) x.m v
def Index.refCode (x : Index) (v : List F32) : Blob :=
  if x.r = 0 then [] else encodeWith x.block (x.off 4) x.r (List.zipWith F.sub v (decodeWith x.block (x.off 3) x.dimD (x.pqCode v)))

/-! ## Scores -/

/-- t[m][c] (R223). -/
def Index.tableAt (x : Index) (q : List F32) (m c : Nat) : F32 :=
  let d := x.dimD / x.m
  termSum x.metric ((q.drop (m * d)).take d) (codeword x.block (x.off 3) d m c)
/-- The PQ score, in ascending sub-space order (R223). -/
def Index.pqScore (x : Index) (q : List F32) (code : Blob) : F32 :=
  match (List.range x.m).map fun m => x.tableAt q m (Blob.u8 code m) with
  | [] => F.zero
  | t :: r => r.foldl F.add t
/-- The refined score (R236). -/
def Index.refScore (x : Index) (q : List F32) (e : Entry) : F32 :=
  let w := decodeWith x.block (x.off 3) x.dimD e.pq
  let v := decodeWith x.block (x.off 4) x.dimD e.ref
  termSum x.metric q (List.zipWith F.add w v)

end Sys2Proof.Machine
end

