-- ==== Sys2Proof/Machine/Index.lean ====
section
/-! DEFINITION. Index updates, builds and consolidation: records, commits, epochs, new room versions and their reclaim (07 R184 to R208). -/

namespace Sys2Proof.Machine

open Sys2Proof

/-! ## The passage map (R185) -/

def Index.bucketOf (x : Index) (id : Nat) : Nat := (crc32c (leBytes 5 id)).toNat * x.buckets / 2 ^ 32
/-- Current entries of an ID. -/
def Index.mapFind (x : Index) (id : Nat) : List MapEnt :=
  ((SMap.at x.mapB (x.bucketOf id) []) ++ x.mapO).filter fun m => m.id == id
def Index.mapDrop (x : Index) (id : Nat) : Index :=
  let k := fun ms : List MapEnt => ms.filter fun m => m.id != id
  { x with mapB := SMap.upd x.mapB (x.bucketOf id) k, mapO := k x.mapO }
/-- Adds an entry to its bucket, or to the overflow area when the bucket is full; none when that is full too. -/
def Index.mapAdd (x : Index) (e : MapEnt) : Option Index :=
  let b := x.bucketOf e.id
  let ms := SMap.at x.mapB b []
  if ms.length < 8 then some { x with mapB := SMap.put x.mapB b (ms ++ [e]) }
  else if x.mapO.length < 1048576 then some { x with mapO := x.mapO ++ [e] }
  else none
/-- Points the entry of an ID at one location to another (R206). -/
def Index.mapMove (x : Index) (id old new : Nat) : Index :=
  let k := fun ms : List MapEnt => ms.map fun m => if m.id = id && m.loc = old then { m with loc := new } else m
  { x with mapB := SMap.upd x.mapB (x.bucketOf id) k, mapO := k x.mapO }

/-! ## Entries -/

/-- Changes the newest version of a room. -/
def Index.updTop (x : Index) (r : Nat) (g : RoomVer → RoomVer) : Index :=
  match x.vers r with
  | v :: vs => { x with rooms := SMap.put x.rooms r (g v :: vs) }
  | [] => x

def updAt (es : List Entry) (p : Nat) (g : Entry → Entry) : List Entry :=
  match es[p]? with
  | some e => es.set p (g e)
  | none => es

/-- Changes the entry at a location. -/
def Index.updEntry (x : Index) (loc : Nat) (g : Entry → Entry) : Index :=
  if !locAnnex loc then x.updTop (locRoom loc) fun v => { v with main := updAt v.main (locPos loc) g }
  else if locPos loc < 4096 then x.updTop (locRoom loc) fun v => { v with annex := updAt v.annex (locPos loc) g }
  else { x with spill := SMap.upd x.spill (locPos loc - 4096) g }

/-- Tombstones every current copy of an ID at an epoch and takes it out of the map (R197, R198). -/
def Index.bury (x : Index) (id e : Nat) : Index :=
  ((x.mapFind id).foldl (fun x m => x.updEntry m.loc fun y => { y with tomb := some e }) x).mapDrop id

/-- A room's Annex takes an entry; every 128th begins a block, at offset 0 where the allocation has no place left (log entry 63). -/
def Index.annexAdd (m : Member) (x : Index) (y : Entry) : Index :=
  let at_ := if (x.top y.room).annex.length % 128 = 0 then [(x.place m y.room (x.blockBytes true)).getD 0] else []
  x.updTop y.room fun v => { v with annex := v.annex ++ [y], annexAt := v.annexAt ++ at_ }

/-- Places a copy in its room's Annex, or in the lowest free spill slot; the flag says that it spilled (R187). -/
def Index.addCopy (m : Member) (x : Index) (second : Bool) (y : Entry) : Option (Index × Bool) :=
  let n := (x.top y.room).annex.length
  if n < 4096 then
    (x.mapAdd { id := y.id, ver := y.ver, loc := locOf y.room 1 n, second := second }).map fun x => (x.annexAdd m y, false)
  else match SMap.firstFree x.spill (min (x.spill.length + 1) 1048576) with
    | none => none
    | some k => (x.mapAdd { id := y.id, ver := y.ver, loc := locOf y.room 1 (4096 + k), second := second }).map fun x =>
        ({ x with spill := SMap.put x.spill k y }, true)

/-! ## Records (R196 to R199) -/

/-- A parsed insert record: the rooms of its copies and the entry, or none for a bad record (R197). -/
def Index.parseInsert (x : Index) (b : Blob) (stride : Nat) : Option (List Nat × Entry) :=
  let fl := Blob.u8 b 5
  let codes := bitN fl 1
  let twice := bitN fl 0
  let r1 := Blob.u32 b 12
  let r2 := Blob.u32 b 16
  let id := Blob.u b 0 5
  let proto : Entry := { id := id, ver := Blob.u16 b 6, attr := Blob.u32 b 8 }
  if id = 0xFFFFFFFFFF || 4 ≤ fl || !Blob.zeroIn b 20 32 || stride < insertSize x codes then none
  else if codes then
    if x.nRooms ≤ r1 || (if twice then decide (x.nRooms ≤ r2) || r1 == r2 else r2 != 0) then none
    else some (if twice then [r1, r2] else [r1], { proto with pq := Blob.slice b 32 x.m, ref := Blob.slice b (32 + x.m) x.r })
  else if r1 != 0 || r2 != 0 then none
  else
    let v := decodeElems x.fmt x.dimD (b.drop 32)
    if v.all F.isZero || v.any (fun e => F.isNan e || F.isInf e) then none
    else
      let v := if x.metric = 2 then unitScale v else v
      some ((x.probe (x.coarseVec v) x.beam).take (if twice then 2 else 1), { proto with pq := x.pqCode v, ref := x.refCode v })

/-- Writes the copies of a record and buries what they replace; a record that a limit stops applies nothing. INDEX_FULL is found before ANNEX_FULL (log entry 28). -/
def State.writeCopies (s : State) (i e : Nat) (proto : Entry) (copies : List (Nat × Bool)) : State × RecResult :=
  let x := s.index i
  let old := x.mapFind proto.id
  let n := copies.length
  let full := fun (k : Nat) => (s, { status := k : RecResult })
  if x.budget < x.slots + n || 2 ^ 33 < s.slotsUsed + n || 2 ^ 26 < s.tombsUsed + old.length then full 3 else
  let y := x.bury proto.id e
  let inB := 8 - (SMap.at y.mapB (y.bucketOf proto.id) []).length
  if 1048576 < y.mapO.length + (n - inB) then full 3 else
  let r := copies.foldl (fun (a : Option (Index × List Bool)) c =>
    a.bind fun z => (z.1.addCopy s.member c.2 { proto with room := c.1, ins := e }).map fun w => (w.1, z.2 ++ [w.2])) (some (y, []))
  match r with
  | none => full 4
  | some (z, sp) =>
    let flags := b2n (!old.isEmpty) + 2 * b2n (sp.getD 0 false) + 4 * b2n (decide (n = 2)) + 8 * b2n (sp.getD 1 false)
    (s.setIndex i z, { status := 0, flags := flags, room := (copies.headD (0xFFFFFFFF, false)).1 })

/-- One record of an update (R197, R198). -/
def State.recOne (s : State) (i opc stride e : Nat) (b : Blob) : State × RecResult :=
  let x := s.index i
  let id := Blob.u b 0 5
  let old := x.mapFind id
  match opc with
  | 0x11 =>
    if !Blob.zeroIn b 5 8 then (s, { status := 2 })
    else if old.isEmpty then (s, { status := 1 })
    else if 2 ^ 26 < s.tombsUsed + old.length then (s, { status := 3 })
    else (s.setIndex i (x.bury id e), { status := 0 })
  | 0x12 =>
    if !Blob.zeroIn b 5 8 then (s, { status := 2 })
    else match (old.head?).bind fun m => x.entryAt m.loc with
      | none => (s, { status := 1 })
      | some y =>
        let val := Blob.u32 b 8
        let mask := Blob.u32 b 12
        s.writeCopies i e { y with attr := (y.attr &&& (0xFFFFFFFF - mask)) ||| (val &&& mask), tomb := none } (old.map fun m => (locRoom m.loc, m.second))
  | _ =>
    match x.parseInsert b stride with
    | none => (s, { status := 2 })
    | some (rooms, y) => s.writeCopies i e y (((List.range rooms.length).zip rooms).map fun p => (p.2, p.1 == 1))

/-- A batch in array order; nothing applies after the record that stops it. -/
def runBatch (one : State → Blob → State × RecResult) : List Blob → State → State × List RecResult
  | [], s => (s, [])
  | b :: r, s =>
    let p := one s b
    if p.2.status = 3 || p.2.status = 4 then (s, p.2 :: r.map fun _ => { status := 5 })
    else let q := runBatch one r p.1; (q.1, p.2 :: q.2)

def RecResult.bytes (r : RecResult) : Blob := leBytes 1 r.status ++ leBytes 1 r.flags ++ leBytes 2 0 ++ leBytes 4 r.room

/-- Status of a batch, and bytes 36 to 63 of its completion (R200). -/
def batchEnd (rs : List RecResult) : Nat × Blob :=
  let c := fun (p : RecResult → Bool) => (rs.filter p).length
  let stop := (List.range rs.length).find? fun k => [3, 4].contains (rs.getD k {}).status
  let status := match stop with
    | some k => if (rs.getD k {}).status = 3 then 0x25 else 0x26
    | none => if rs.all fun r => r.status == 0 then 0 else 1
  (status, leBytes 4 (stop.getD 0xFFFFFFFF) ++ leBytes 4 (c fun r => r.status == 1) ++ leBytes 4 (c fun r => r.status == 2)
    ++ leBytes 4 (c fun r => bitN r.flags 1 || bitN r.flags 3) ++ leBytes 4 (c fun r => bitN r.flags 0) ++ zeros 8)

def applied (rs : List RecResult) : Nat := (rs.filter fun r => r.status == 0).length

/-! ## Commits (R190, R193) -/

/-- The open epoch. -/
def State.openEpoch (s : State) : Nat := (s.objs.epoch + 1) % 2 ^ 56

/-- The warning bits that fill levels set; new ones write a record (R210). -/
def State.idxWarn (s : State) : State :=
  let w := s.reg Reg.idxWarn
  let spill := (List.range 8).filter fun i => decide (bitsW w 6 0 * 1048576 ≤ 100 * (s.index i).spill.length) && (s.index i).state != 0
  let tomb := decide (bitsW w 14 8 * 2 ^ 26 ≤ 100 * s.tombsUsed)
  let bits := (spill.map fun i => 2 ^ i).foldl (· + ·) 0 + 256 * b2n tomb
  let fresh := bits &&& (0x1FF - (s.regN Reg.idxStatus &&& 0x1FF))
  if fresh = 0 then s
  else (s.setReg Reg.idxStatus (s.reg Reg.idxStatus ||| BitVec.ofNat 64 fresh)).emit { kind := 0x13, sev := 2, detail := fresh }

/-- A commit of this Tread: the epoch closes at the next boundary (R190). -/
def State.noteCommit (s : State) : State := (s.updObjs fun o => { o with commits := true }).idxWarn

/-- The end of a batch: results, counts and status; a batch that applies nothing is no commit (R200). `e` is its epoch. -/
def State.batchDone (s : State) (slot e : Nat) (rs : List RecResult) (commit : Bool) : State :=
  match s.req? slot with
  | none => s
  | some r =>
    let b := batchEnd rs
    let r := { r with ending := some b.1, ext := b.2, count := applied rs, bytes := 8 * rs.length,
                      writes := [(r.resAddr, rs.flatMap RecResult.bytes)] }
    if !commit || applied rs = 0 then s.setReq slot { r with epoch := 0 }
    else (s.setReq slot { r with epoch := e, phase := .epoch }).noteCommit

/-- An entry that a build has added becomes the next main entry of its room. -/
def Index.addMain (x : Index) (y : Entry) : Index :=
  let n := (x.top y.room).main.length
  let x := x.updTop y.room fun v => { v with main := v.main ++ [y] }
  let first := !(x.mapFind y.id).isEmpty
  (x.mapAdd { id := y.id, ver := y.ver, loc := locOf y.room 0 n, second := first }).getD x

/-- Gives every version without a place its place, room by room (R183). -/
def Index.placeRooms (m : Member) (x : Index) : Index :=
  x.rooms.foldl (fun x e => match e.2 with
    | v :: vs => { x with rooms := SMap.put x.rooms e.1 ({ v with at_ := (x.place m e.1 (x.verBytes v.main.length)).getD 0 } :: vs) }
    | [] => x) x

/-- FINISH: main segments in ADD order, and the map, at one epoch (R201). -/
def Index.finish (m : Member) (x : Index) (e : Nat) : Index :=
  let z := { x with built := e, added := [], rooms := [], mapB := [], mapO := [] }
  (x.added.foldl (fun z y => z.addMain { y with ins := e }) z).placeRooms m

/-- FINISH writes both halves of the coarse region of every Alcove die that the block names, source copies first (R178, R201). -/
def State.writeCoarse (s : State) (x : Index) : State :=
  ((List.range s.member.alcoves).map x.region).foldl (fun s k =>
    if k < 32 && bitW (s.reg (Reg.memPinRegion k)) 0 then
      let half := regionBytes (s.reg (Reg.memPinRegion k)) / 2
      (s.regionWrite k 0 x.coarseHalf).regionWrite k half x.coarseHalf
    else s) s

/-- The batch of an update on the index as it stands. -/
def State.runUpdate (s : State) (r : Req) : State × List RecResult :=
  let stride := Blob.u16 r.desc 76
  runBatch (fun s b => s.recOne (r.objId % 8) r.opc stride s.openEpoch b) (splitRecords r.xs.listData stride (Blob.u32 r.desc 72)) s

/-- A batch in which no record applies writes no commit record: it completes with its Balustrade step (R200). -/
def State.emptyBatch (s : State) (r : Req) : Option (List RecResult) :=
  if !([0x10, 0x11, 0x12].contains r.opc) then none else
  let rs := (s.runUpdate r).2
  if applied rs = 0 then some rs else none

/-- Applies the commit of an update that has passed its Balustrade. -/
def State.commitNow (s : State) (slot : Nat) : State :=
  match s.req? slot with
  | none => s
  | some r =>
    let i := r.objId % 8
    let e := s.openEpoch
    if r.opc = 0x14 then
      let x := s.index i
      let s := (s.setIndex i (x.finish s.member e)).writeCoarse x
      let r := { r with ending := some 0, epoch := e, count := x.nRooms, ext := leBytes 4 r.objId ++ zeros 4 ++ zeros 0 ++ leBytes 8 x.added.length,
                        phase := .epoch, progDone := x.nRooms, progTotal := x.nRooms }
      (s.setReq slot r).noteCommit
    else
      let p := s.runUpdate r
      let s := p.1.batchDone slot e p.2 true
      match s.req? slot with
      | some q => if q.phase = .epoch then s else s.finish slot
      | none => s

/-- Whether a request may commit before those that were deferred (R461, R462). -/
def State.commitTurn (s : State) (slot : Nat) (r : Req) : Bool :=
  s.reqs.all fun e => e.1 == slot || e.2.phase != .commit || e.2.xs.deferSeq == 0
    || (r.xs.deferSeq != 0 && decide (r.xs.deferSeq < e.2.xs.deferSeq))

/-- Marks a commit as deferred by the supply warning (R461, R464). -/
def State.defer (s : State) (slot : Nat) : State :=
  match s.power.warn, s.req? slot with
  | some w, some r =>
    if r.xs.deferSeq != 0 then s
    else { s.setReq slot { r with xs := { r.xs with deferSeq := w.deferred + 1 } } with
           power := { s.power with warn := some { w with deferred := w.deferred + 1 } } }
  | _, _ => s

/-- INDEX_COMMIT (R193): deferred while a supply warning stands (R461). -/
def execIndexCommit (t slot : Nat) (s : State) : Res :=
  let s := s.advance t
  match s.req? slot with
  | none => .next s
  | some r =>
    if !s.running || r.phase != .commit || r.opc = 0x13 then .next s
    else if s.power.warn.isSome then .next (s.defer slot)
    else .next (if s.commitTurn slot r then s.commitNow slot else s)

/-- Action 1 of the boundary: completions of the commits, then the epoch (R190). A build becomes READY (R201). -/
def State.epochClose (s : State) : State :=
  let es := SMap.keysOf s.reqs fun _ r => r.phase == .epoch
  let s := es.foldl (fun s k =>
    match s.req? k with
    | some r =>
      let s := if r.opc = 0x14 then s.setIndex (r.objId % 8) { s.index (r.objId % 8) with state := 2 } else s
      s.finish k
    | none => s) s
  if s.objs.commits then s.updObjs fun o => { o with epoch := (o.epoch + 1) % 2 ^ 56, commits := false } else s

/-! ## Builds (R201 to R203) -/

/-- The shape tests of R177, R178 and R211. -/
def shapeOk (m : Member) (x : Index) : Bool :=
  let div := fun k => k != 0 && x.dimD % k == 0
  decide (32 ≤ x.dimD) && decide (x.dimD ≤ 1024) && [8, 16, 32].contains x.m && [0, 16, 32, 64].contains x.r && div x.m && (x.r == 0 || div x.r)
    && decide (x.metric ≤ 2) && decide (x.fmt ≤ 2) && decide (16 ≤ x.dimC) && decide (x.dimC ≤ 256) && x.dimC % 16 == 0
    && decide (1 ≤ x.nRooms) && decide (x.nRooms ≤ 2097152) && decide (x.entryRoom < x.nRooms) && decide (8 ≤ x.beam) && decide (x.beam ≤ 256)
    && x.dieMask != 0 && decide (x.dieMask < 2 ^ m.halls) && decide (x.nRooms * (x.dimC + 96) ≤ 469762048)

/-- The graph of R178: a neighbour slot holds a room below the room count with [23:21] zero, or all ones. -/
def graphOk (x : Index) : Bool :=
  (List.range x.nRooms).all fun r => (List.range 32).all fun j =>
    let v := Blob.u x.block (x.off 2 + 96 * r + 3 * j) 3
    v == 0xFFFFFF || decide (v < x.nRooms)
/-- The parts of the block lie in it, behind its header (R202). -/
def partsOk (x : Index) : Bool :=
  let size := Blob.u64 x.block 104
  [(0, 2 * x.dimC * x.dimD), (1, x.nRooms * x.dimC), (2, 96 * x.nRooms), (3, 512 * x.dimD), (4, if x.r = 0 then 0 else 512 * x.dimD)].all fun e =>
    e.2 == 0 || (decide (256 ≤ x.off e.1) && decide (x.off e.1 + e.2 ≤ size))

/-- A named coarse region (R202): DOUBLE, content 3, in its Alcove die, two halves large, in a die that serves the die mask or an enabled partition. -/
def State.coarseRegionOk (s : State) (x : Index) (a : Nat) : Bool :=
  let k := x.region a
  let w := s.reg (Reg.memPinRegion k)
  k == 0xFF || (decide (k < 32) && bitW w 0 && bitsW w 2 1 == 1 && bitsW w 23 16 == 3 && bitsW w 5 4 == a
    && decide (2 * x.nRooms * (x.dimC + 96) ≤ (bitsW w 15 12 + 1) * 67108864)
    && ((setBitsOf 8 x.dieMask).any (fun h => alcoveOf h == a)
      || (List.range 16).any fun p => bitW (s.reg (Reg.partCtrl p)) 0 && (s.partDies p).any fun h => alcoveOf h == a))

/-- The error kind of BEGIN before its HBM is allocated, 0 when it passes (R203; log entry 29). -/
def State.beginErr (s : State) (id : Nat) (x : Index) : Nat :=
  let old := s.index (id % 8)
  let b := x.block
  let size := Blob.u64 b 104
  if old.state != 0 || old.gen != idGen id then 5
  else if Blob.u32 b 0 != 0x4C494458 || (crc32c (Blob.slice b 0 112 ++ Blob.slice b 256 (size - 256))).toNat != Blob.u32 b 112
    || !Blob.zeroIn b 22 24 || !Blob.zeroIn b 37 64 || !Blob.zeroIn b 116 256 then 1
  else if !shapeOk s.member x || !partsOk x || !graphOk x then 2
  else if !(List.range 4).all (fun a => s.coarseRegionOk x a) then 3
  else if 2 ^ 33 < s.slotsUsed + x.budget then 4
  else 0

/-- BEGIN (R201). -/
def State.buildBegin (s : State) (slot : Nat) (r : Req) : State :=
  let a := Blob.u64 r.desc 72
  let size := leNat (s.hostRead r.fn (a + 104) 8)
  let b := s.hostRead r.fn a (max 256 (min size (2 ^ 32)))
  let set := s.objSet r.part (2 ^ r.part)
  let x : Index := { state := 1, gen := idGen r.objId, block := b, set_ := set }
  let e := s.beginErr r.objId x
  let fail := fun (s : State) (e : Nat) => s.setReq slot { r with ending := some 0x21, ext := zeros 4 ++ leBytes 1 e }
  if e != 0 then fail s e else
  let needs := x.dieNeeds s.member
  let s := s.roomDies set needs
  match s.allocDies set needs with
  | none => fail s 4
  | some g => (s.setIndex (r.objId % 8) { x with gran := g }).setReq slot { r with ending := some 0, ext := leBytes 4 r.objId }

/-- Adds the copies of a build record; a later record of an ID replaces an earlier one (R201). -/
def State.buildOne (s : State) (i stride : Nat) (b : Blob) : State × RecResult :=
  let x := s.index i
  match x.parseInsert b stride with
  | none => (s, { status := 2 })
  | some (rooms, y) =>
    let old := x.mapFind y.id
    let z := { x.mapDrop y.id with added := x.added.filter fun e => e.id != y.id }
    let n := rooms.length
    let overrun := rooms.any fun k => decide (4194304 ≤ (z.added.filter fun e => e.room == k).length)
    if overrun || x.budget < z.slots + n || 2 ^ 33 < s.slotsUsed - (x.slots - z.slots) + n then (s, { status := 3 })
    else
      let w := ((List.range n).zip rooms).foldl (fun (a : Option Index) p =>
        a.bind fun z => (z.mapAdd { id := y.id, ver := y.ver, loc := locOf p.2 0 0, second := p.1 == 1 }).map fun z => { z with added := z.added ++ [{ y with room := p.2 }] }) (some z)
      match w with
      | none => (s, { status := 3 })
      | some z => (s.setIndex i z, { status := 0, room := rooms.headD 0xFFFFFFFF, flags := b2n (!old.isEmpty) + 4 * b2n (decide (n = 2)) })

/-- The work of an INDEX_BUILD phase at the end of its step (R201, R203). -/
def State.buildPhase (s : State) (slot : Nat) (r : Req) : State :=
  let i := r.objId % 8
  let x := s.index i
  let absent := x.state != 1 || x.gen != idGen r.objId
  match Blob.u8 r.desc 64 with
  | 0 => s.buildBegin slot r
  | op =>
    if absent then s.setReq slot { r with ending := some 0x28 }
    else if op = 1 then
      let stride := Blob.u16 r.desc 84
      let n := Blob.u32 r.desc 80
      let recs := splitRecords (s.hostRead r.fn (Blob.u64 r.desc 72) (stride * n)) stride n
      if shortStride x stride recs then s.setReq slot { r with ending := some 0x21 } else
      let p := runBatch (fun s b => s.buildOne i stride b) recs s
      (p.1.setReq slot { r with progDone := applied p.2, progTotal := n, sbBytes := 8 * n }).batchDone slot 0 p.2 false
    else if op = 2 then s
    else (s.setIndex i { gen := (x.gen + 1) % 256 }).setReq slot { r with ending := some 0, ext := leBytes 4 r.objId }

/-! ## Consolidation (R205 to R208) -/

/-- Annex, spill and tombstoned entries of a room together (R205). -/
def Index.backlog (x : Index) (r : Nat) : Nat :=
  let v := x.top r
  let sp := (x.spill.map Prod.snd).filter fun y => y.room == r && decide (v.base < y.ins)
  v.annex.length + sp.length + ((v.main ++ v.annex ++ sp).filter fun y => y.tomb.isSome).length

/-- The fold of a room at base epoch b: new main entries with their old locations, Annex entries carried, spill slots folded, entries folded from the spill, tombstoned entries dropped. -/
structure Fold where
  main    : List (Nat × Entry) := []
  carry   : List (Nat × Entry) := []
  freed   : List Nat := []
  spilled : Nat := 0
  dropped : Nat := 0
deriving DecidableEq, Repr, Inhabited

def Index.fold (x : Index) (r b : Nat) : Fold :=
  let v := x.top r
  let num := fun es : List Entry => (List.range es.length).zip es
  let mains := (num v.main).map fun p => (locOf r 0 p.1, p.2)
  let annex := (num v.annex).map fun p => (locOf r 1 p.1, p.2)
  let sp := (x.spill.filter fun p => p.2.room == r && decide (v.base < p.2.ins) && decide (p.2.ins ≤ b))
  let spl := sp.map fun p => (locOf r 1 (4096 + p.1), p.2)
  let vis := fun (m : Bool) (l : List (Nat × Entry)) => l.filter fun p => visible p.2 m b v
  let dead := fun (m : Bool) (l : List (Nat × Entry)) => (l.filter fun p => visible { p.2 with tomb := none } m b v && !visible p.2 m b v).length
  { main := vis true mains ++ vis false annex ++ vis false spl, carry := annex.filter fun p => decide (b < p.2.ins),
    freed := sp.map Prod.fst, spilled := (vis false spl).length, dropped := dead true mains + dead false annex + dead false spl }

/-- A carried tombstone: one after b is written at the new location, an earlier one is gone (R206). -/
def keepTomb (b : Nat) (y : Entry) : Entry := { y with tomb := y.tomb.filter fun t => decide (b < t) }

/-- Installs the new version of a room with its place and its map entries (R183, R206). -/
def Index.install (m : Member) (x : Index) (r b e : Nat) (f : Fold) : Index :=
  let at_ := (x.place m r (x.verBytes f.main.length)).getD 0
  let blocks := (List.range ((f.carry.length + 127) / 128)).foldl (fun (a : List (Nat × Nat)) _ =>
    let k := fitIn (dieSpans m (x.roomDie m r) x.gran) (x.taken ++ (at_, x.verBytes f.main.length) :: a) (x.blockBytes true)
    a ++ [(k.getD 0, x.blockBytes true)]) []
  let v : RoomVer := { at_ := at_, annexAt := blocks.map Prod.fst, base := b, sw := e, main := f.main.map fun p => { keepTomb b p.2 with ins := b }, annex := f.carry.map fun p => keepTomb b p.2 }
  let x := { x with rooms := SMap.put x.rooms r (v :: x.vers r), folded := x.folded ++ f.freed.map fun k => (k, e) }
  let move := fun (seg : Nat) (l : List (Nat × Entry)) (x : Index) =>
    ((List.range l.length).zip l).foldl (fun (x : Index) p => x.mapMove p.2.2.id p.2.1 (locOf r seg p.1)) x
  move 1 f.carry (move 0 f.main x)

/-- A room whose new main segment would pass 4,194,304 entries stays (R205). -/
def Fold.tooBig (f : Fold) : Bool := decide (4194304 < f.main.length)

/-- Slots that the new versions of a batch take. -/
def Index.batchNeed (x : Index) (b : Nat) (rooms : List Nat) : Nat :=
  (rooms.map fun r => let f := x.fold r b; if f.tooBig then 0 else f.main.length + f.carry.length).foldl (· + ·) 0
def State.slotsFit (s : State) (x : Index) (n : Nat) : Bool := decide (x.slots + n ≤ x.budget) && decide (s.slotsUsed + n ≤ 2 ^ 33)
/-- HBM for the new versions of a batch: each has a place on its room's die beside the others (R205). -/
def Index.hbmFit (m : Member) (x : Index) (b : Nat) (rooms : List Nat) : Bool :=
  (rooms.foldl (fun (a : Option Index) r => a.bind fun x =>
    let f := x.fold r b
    if f.tooBig then some x
    else (x.place m r (x.verBytes f.main.length)).map fun _ => x.install m r b b f) (some x)).isSome
/-- Slots and HBM of a batch's new versions (R205). -/
def State.batchFits (s : State) (x : Index) (b : Nat) (rooms : List Nat) : Bool :=
  s.slotsFit x (x.batchNeed b rooms) && x.hbmFit s.member b rooms
/-- Old room versions and folded spill slots await reclaim. -/
def Index.reclaimPending (x : Index) : Bool := !x.folded.isEmpty || x.rooms.any fun e => decide (1 < e.2.length)

/-- The last room of an INDEX_CONSOLIDATE, exclusive. -/
def consLast (x : Index) (d : Blob) : Nat :=
  let n := Blob.u32 d 68
  if n = 0 then x.nRooms else min x.nRooms (Blob.u32 d 64 + n)

/-- The counts of R208 in bytes 36 to 51, and the status block's rooms examined and switched. -/
def consReport (r : Req) : Req :=
  let w := r.xs
  { r with count := w.consDone, ended := w.consDone, progDone := w.consNext - Blob.u32 r.desc 64,
           ext := leBytes 4 w.consBelow ++ leBytes 4 w.consOver ++ leBytes 4 w.consSpill ++ leBytes 4 w.consTomb,
           xs := { w with sbExtra := leBytes 4 (w.consNext - Blob.u32 r.desc 64) ++ leBytes 4 w.consDone } }

/-- Takes up to 1,024 rooms in ascending ID for a batch; `k` bounds the rooms still to look at. -/
def pickRooms (x : Index) (th last : Nat) : Nat → Nat → List Nat → Nat → Nat × List Nat × Nat
  | 0, r, acc, below => (r, acc, below)
  | k + 1, r, acc, below =>
    if last ≤ r || 1024 ≤ acc.length then (r, acc, below)
    else if th ≤ x.backlog r then pickRooms x th last k (r + 1) (acc ++ [r]) below
    else pickRooms x th last k (r + 1) acc (below + 1)

/-- The release of a consolidation step: a batch is formed with its base epoch; the flag says that the step starts.
Without room it waits for reclaims, and with none pending the request stops (R205). -/
def State.consRelease (s : State) (slot : Nat) (r : Req) : State × Bool :=
  let i := r.objId % 8
  let x := s.index i
  let last := consLast x r.desc
  let b := s.objs.epoch
  let first := Blob.u32 r.desc 64
  let w := r.xs
  let from_ := max first w.consNext
  let p := if w.consBatch.isEmpty then pickRooms x (Blob.u32 r.desc 72) last (last - from_) from_ [] w.consBelow else (w.consNext, w.consBatch, w.consBelow)
  let r := consReport { r with progTotal := last - first, xs := { w with consNext := p.1, consBatch := p.2.1, consBelow := p.2.2, consBase := b } }
  if p.2.1.isEmpty then (s.setReq slot { r with stages := [], ending := some (r.ending.getD 0) }, false)
  else if s.batchFits x b p.2.1 then (s.setReq slot r, true)
  else if x.reclaimPending then ((s.setReq slot r).orReg Reg.idxStatus 9, false)
  else (s.setReq slot { r with stages := [], ending := some 0x25 }, false)

/-- Switches the rooms of a batch at epoch e. -/
def State.switchBatch (s : State) (slot e : Nat) (r : Req) : State :=
  let i := r.objId % 8
  let b := r.xs.consBase
  let p := r.xs.consBatch.foldl (fun (a : Index × ReqWork) k =>
    let f := a.1.fold k b
    if f.tooBig then (a.1, { a.2 with consOver := a.2.consOver + 1 })
    else (a.1.install s.member k b e f,
      { a.2 with consDone := a.2.consDone + 1, consSpill := a.2.consSpill + f.spilled, consTomb := a.2.consTomb + f.dropped })) (s.index i, r.xs)
  let any := decide (r.xs.consDone < p.2.consDone)
  let more := decide (p.2.consNext < consLast p.1 r.desc) && r.ending.isNone
  let r := consReport { r with xs := { p.2 with consBatch := [] }, phase := .ready, doneAt := s.now, epoch := if any then e else r.epoch,
                               stages := if more then [.index] else [] }
  let s := (s.setIndex i p.1).setReq slot r
  if any then s.noteCommit else s

/-- CONSOLIDATION_SWITCH (R206): a batch that is written and not doubted; deferred like a commit by a supply warning (R461). -/
def execConsolidationSwitch (t slot : Nat) (s : State) : Res :=
  let s := s.advance t
  match s.req? slot with
  | none => .next s
  | some r =>
    if !s.running || r.phase != .commit || r.opc != 0x13 then .next s
    else if s.power.warn.isSome then .next (s.defer slot)
    else
      let x := s.index (r.objId % 8)
      if !s.commitTurn slot r then .next s
      else if s.batchFits x r.xs.consBase r.xs.consBatch then .next (s.switchBatch slot s.openEpoch { r with xs := { r.xs with deferSeq := 0 } })
      else if x.reclaimPending then .next (s.orReg Reg.idxStatus 9)
      else .next (s.setReq slot { r with phase := .ready, stages := [], ending := some 0x25 })

/-- ROOM_VERSION_RECLAIM (R207): old versions whose successor's switch epoch has completed and lies at or below every snapshot held. -/
def execRoomVersionReclaim (t index room : Nat) (s : State) : Res :=
  let s := s.advance t
  let x := s.index (index % 8)
  let ok := fun e => decide (e ≤ s.objs.epoch) && s.snapshots.all fun k => decide (e ≤ k)
  let rec keep : List RoomVer → List RoomVer
    | v :: w :: r => if ok v.sw then [v] else v :: keep (w :: r)
    | vs => vs
  let gone := x.folded.filter fun p => ok p.2 && (match SMap.find x.spill p.1 with | some y => y.room == room | none => true)
  .next (if s.running && decide (index < 8) && x.state != 0 then
    s.setIndex index { x with rooms := SMap.upd x.rooms room keep, folded := x.folded.filter (fun p => !gone.contains p),
                              spill := gone.foldl (fun m p => SMap.del m p.1) x.spill } else s)

/-! ## Descriptors -/

def execIndexInsert (t fn ring : Nat) (s : State) : Res := .next (s.descriptor t fn ring 0x10 none (fun s _ => s) false)
def execIndexDelete (t fn ring : Nat) (s : State) : Res := .next (s.descriptor t fn ring 0x11 none (fun s _ => s) false)
def execIndexSetAttr (t fn ring : Nat) (s : State) : Res := .next (s.descriptor t fn ring 0x12 none (fun s _ => s) false)
def execIndexConsolidate (t fn ring : Nat) (s : State) : Res := .next (s.descriptor t fn ring 0x13 none (fun s _ => s) false)
def execIndexBuildBegin (t fn ring : Nat) (s : State) : Res := .next (s.descriptor t fn ring 0x14 (some (64, 0, 3)) (fun s _ => s) false)
def execIndexBuildAdd (t fn ring : Nat) (s : State) : Res := .next (s.descriptor t fn ring 0x14 (some (64, 1, 3)) (fun s _ => s) false)
def execIndexBuildFinish (t fn ring : Nat) (s : State) : Res := .next (s.descriptor t fn ring 0x14 (some (64, 2, 3)) (fun s _ => s) false)
def execIndexBuildAbort (t fn ring : Nat) (s : State) : Res := .next (s.descriptor t fn ring 0x14 (some (64, 3, 3)) (fun s _ => s) false)

/-- The end of an [index] step (R197, R201, R205). -/
def State.indexDone (s : State) (slot : Nat) : State :=
  match s.req? slot with
  | none => s
  | some r =>
    if r.doubt != 0 then s
    else if r.opc = 0x13 then s.setReq slot { r with phase := .commit }
    else if r.opc = 0x14 then s.buildPhase slot r
    else s.setReq slot { r with xs := { r.xs with listData := s.hostRead r.fn (Blob.u64 r.desc 64) (Blob.u32 r.desc 72 * Blob.u16 r.desc 76) } }

/-- A request that commits after its Balustrade pass (R193). -/
def Req.commits (r : Req) : Bool :=
  r.ending.isNone && r.doubt == 0 && !r.peerLost && ([0x10, 0x11, 0x12].contains r.opc || (r.opc == 0x14 && Blob.u8 r.desc 64 == 2))

end Sys2Proof.Machine
end

