-- ==== Sys2Proof/Machine/Search.lean ====
section
/-! DEFINITION. Search: probe, scan tasks, the select unit, reruns, escalation, refine, merge, results, recall probes, and the collective with peers (08_search, 14 R397 and R398). -/

namespace Sys2Proof.Machine

open Sys2Proof

/-! ## The parameter block (R216) -/

def spK (d : Blob) : Nat := Blob.u16 d 64
def spRefine (r : Req) : Bool := bitN (Blob.u8 r.desc 72) 0 && r.opc != 0x15
/-- C, taken as K when REFINE is clear (R216, R244). -/
def spC (r : Req) : Nat := let c := Blob.u16 r.desc 66; if !spRefine r || c = 0 then spK r.desc else c
def spProbe (d : Blob) : Nat := Blob.u16 d 68
/-- The width W of the room list (R219). -/
def spWidth (d : Blob) : Nat := let m := Blob.u16 d 70; if m = 0 then spProbe d else m
/-- The selection size of a task run (R225, R244). -/
def spKt (r : Req) : Nat := min 64 (spC r)
/-- The index ID of a search. -/
def searchIndex (d : Blob) : Nat := if Blob.u8 d 0 = 3 then Blob.u32 d 180 else Blob.u32 d 20
def Req.isRecall (r : Req) : Bool := r.opc == 0x15
def State.ixOf (s : State) (r : Req) : Index := s.index (searchIndex r.desc % 8)

/-- The filter of R222. -/
def passes (d : Blob) (a : Nat) : Bool :=
  let f := (a >>> Blob.u8 d 84) % 2 ^ Blob.u8 d 85
  (!bitN (Blob.u8 d 72) 1 || (a &&& Blob.u32 d 76) == Blob.u32 d 80)
    && (!bitN (Blob.u8 d 72) 2 || (decide (Blob.u32 d 88 ≤ f) && decide (f ≤ Blob.u32 d 92)))

/-! ## Probe (R218, R219) -/

/-- The query vector: as embedded or as given, scaled under cosine (R218). -/
def queryVector (x : Index) (q : List F32) : List F32 := if x.metric = 2 then unitScale q else q

/-- The release of a probe step, or of the scan of a RECALL_PROBE: snapshot, spill height and sub-requests (R191, R220, R244, R397). -/
def State.fixSnapshot (s : State) (slot : Nat) (r : Req) : State :=
  let x := s.ixOf r
  let top := (x.spill.map fun e => e.1 + 1).foldl max 0
  let ps := if r.isRecall || r.peer.isSome then [] else s.peersOf r.desc
  let w := { r.xs with snapshot := some s.objs.epoch, spillTop := top, peers := ps.map fun m => (m, {}) }
  let s := s.setReq slot { r with xs := w, epoch := s.objs.epoch, needs := ps }
  let block := Blob.slice r.desc 64 48
  ps.foldl (fun s m => s.send (.gal m 0 (.subRequest slot r.tenant r.part r.deadline block (searchIndex r.desc % 8) r.xs.query (bitN r.flags 12)))) s

/-- The query as the steps read it: the embedding, or the input of a VECTOR_QUERY (R218). -/
def State.rawQuery (s : State) (r : Req) : List F32 :=
  if r.peer.isNone && vectorQuery r.desc then decodeElems (Blob.u8 r.desc 73) (s.ixOf r).dimD (s.gather r.fn r.desc) else r.xs.query

def State.probeDone (s : State) (slot : Nat) (r : Req) : State :=
  let x := s.ixOf r
  let q := queryVector x r.xs.query
  s.setReq slot { r with xs := { r.xs with rooms := x.probe (x.coarseVec q) (spWidth r.desc) } }

/-! ## Scan tasks (R220, R221) -/

def Index.snapVer (x : Index) (room snap : Nat) : RoomVer := x.verAt room snap

/-- Main tasks and the Annex task of a room. -/
def roomTasks (x : Index) (snap room : Nat) : List ScanRun :=
  let n := (x.verAt room snap).main.length
  ((List.range ((n + 4095) / 4096)).map fun j => { room := room, seg := 0, piece := j : ScanRun }) ++ [{ room := room, seg := 1 }]
def spillTasks (h : Nat) : List ScanRun := (List.range ((h + 4095) / 4096)).map fun j => { seg := 2, piece := j }

/-- Entries of a task in ascending position: location, entry, whether main, version of the room. -/
def Index.taskEntries (x : Index) (snap : Nat) (k : ScanRun) : List (Nat × Entry × Bool × RoomVer) :=
  let num := fun (es : List Entry) (from_ : Nat) => ((List.range es.length).zip es).map fun p => (p.1 + from_, p.2)
  match k.seg with
  | 0 =>
    let v := x.verAt k.room snap
    (num ((v.main.drop (4096 * k.piece)).take 4096) (4096 * k.piece)).map fun p => (locOf k.room 0 p.1, p.2, true, v)
  | 1 =>
    let v := x.verAt k.room snap
    (num v.annex 0).map fun p => (locOf k.room 1 p.1, p.2, false, v)
  | _ =>
    (x.spill.filter fun e => e.1 / 4096 == k.piece).map fun e => (locOf e.2.room 1 (4096 + e.1), e.2, false, x.verAt e.2.room snap)

/-- The entries of a task that its snapshot sees (R221). -/
def State.taskSeen (s : State) (r : Req) (k : ScanRun) : List (Nat × Entry × Bool × RoomVer) :=
  let snap := r.xs.snapshot.getD 0
  ((s.ixOf r).taskEntries snap k).filter fun e => visible e.2.1 e.2.2.1 snap e.2.2.2

/-- The candidates that a task's run hands to the select unit: what it sees and the filter passes (R221 to R223, R244). -/
def State.taskCands (s : State) (r : Req) (k : ScanRun) : List Cand :=
  let x := s.ixOf r
  let q := queryVector x r.xs.query
  ((s.taskSeen r k).filter fun e => passes r.desc e.2.1.attr).map fun e =>
    let sc := if r.isRecall && x.r != 0 then x.refScore q e.2.1 else x.pqScore q e.2.1.pq
    let sc := if F.isNan sc then F.qnan else sc
    { key := scoreKey x.similar sc, order := orderKey s.gal.moduleId e.1, id := e.2.1.id, ver := e.2.1.ver, score := sc, attr := e.2.1.attr : Cand }

/-! ## The select unit (R225 to R228) -/

/-- The order of R215 as one number. -/
def candOrd (c : Cand) : Nat := shl c.key 48 + c.order

def candInsert (c : Cand) : List Cand → List Cand
  | [] => [c]
  | a :: r => if candOrd c < candOrd a then c :: a :: r else a :: candInsert c r
def candSort (l : List Cand) : List Cand := l.foldr candInsert []

/-- The unit's stores and counts. -/
structure Select where
  bstar  : Nat := 255
  hist   : List Nat := List.replicate 256 0
  sure   : List Cand := []
  bstore : List Cand := []
  drops  : Nat := 0
deriving DecidableEq, Repr, Inhabited

def bucketOf (f sh key : Nat) : Nat := if key < f then 0 else min 255 ((key - f) >>> sh)

/-- The boundary moves to better buckets while the buckets below hold kt entries (R227). -/
def selectShrink (f sh kt : Nat) : Nat → Select → Select
  | 0, u => u
  | n + 1, u =>
    if u.bstar = 0 || ((u.hist.take u.bstar).foldl (· + ·) 0) < kt then u
    else
      let b := u.bstar - 1
      selectShrink f sh kt n { u with bstar := b, bstore := u.sure.filter (fun c => bucketOf f sh c.key == b), drops := 0,
                                      sure := u.sure.filter fun c => bucketOf f sh c.key != b }

/-- One entry (R227). -/
def selectAccept (f sh kt : Nat) (u : Select) (c : Cand) : Select :=
  let b := bucketOf f sh c.key
  if u.bstar < b then u else
  let u := { u with hist := u.hist.set b (u.hist.getD b 0 + 1) }
  let u := if b < u.bstar then { u with sure := u.sure ++ [c] }
    else if u.bstore.length < 512 then { u with bstore := u.bstore ++ [c] }
    else { u with drops := u.drops + 1 }
  selectShrink f sh kt 256 u

/-- The calibration of R226: F and S from the first 512 admitted entries. -/
def calibrate (kt : Nat) (cs : List Cand) : Nat × Nat :=
  let keys := (candSort (cs.take 512)).map (·.key)
  let f := keys.headD 0
  let kc := keys.getD (min kt (min cs.length 512) - 1) f
  (f, ((List.range 25).find? fun s => decide ((kc - f) >>> s ≤ 127)).getD 24)

/-- One run: what the unit emits, and the drops that make it approximate (R228). -/
def selectRun (kt : Nat) (cs : List Cand) : List Cand × Nat :=
  if cs.isEmpty then ([], 0) else
  let c := calibrate kt cs
  let u := cs.foldl (selectAccept c.1 c.2 kt) {}
  ((candSort (u.sure ++ u.bstore)).take kt, u.drops)

/-- The exact mode of R245: runs repeated until nothing is lost emit the best kt. -/
def selectExact (kt : Nat) (cs : List Cand) : List Cand × Nat := ((candSort cs).take kt, 0)

/-- What a task run gives (R225 to R229): the task after it, the entries scored (those it sees, whether or not the filter passes them: DEDUCED, log entry 67), accepted by the select unit, dropped. -/
structure TaskRun where
  run      : ScanRun := {}
  scored   : Nat := 0
  accepted : Nat := 0
  drops    : Nat := 0
deriving DecidableEq, Repr, Inhabited

/-- One task run (R225). -/
def State.runTask (s : State) (r : Req) (k : ScanRun) : TaskRun :=
  let cs := s.taskCands r k
  let adm := match k.out.getLast? with
    | some l => cs.filter fun c => decide (candOrd l < candOrd c)
    | none => cs
  let e := if r.isRecall then selectExact (spKt r) adm else selectRun (spKt r) adm
  { run := { k with rounds := k.rounds + 1, lastN := e.1.length, out := k.out ++ e.1 }, scored := (s.taskSeen r k).length, accepted := adm.length, drops := e.2 }

/-- Two runs of one task. -/
def ScanRun.same (a b : ScanRun) : Bool := a.room == b.room && a.seg == b.seg && a.piece == b.piece

/-- The release of a scan step: the tasks of the round; a first round takes NPROBE rooms and the spill (R220). -/
def State.scanRelease (s : State) (slot : Nat) (r : Req) : State :=
  let x := s.ixOf r
  -- a rerun of tasks under R231 is no new scan round
  let w := if r.xs.scanNow.any fun k => k.rounds != 0 then r.xs else { r.xs with tScan := s.now }
  let snap := w.snapshot.getD 0
  if !w.scanNow.isEmpty then s.setReq slot { r with xs := w } else
  let rooms := if r.isRecall then List.range x.nRooms else w.rooms.take (spProbe r.desc)
  let ts := rooms.flatMap (roomTasks x snap) ++ spillTasks w.spillTop
  s.setReq slot { r with xs := { w with scanNow := ts, probed := rooms.length } }

/-- The end of a scan step: every task's run (R220 to R228). -/
def State.scanDone (s : State) (slot : Nat) (r : Req) : State :=
  let rs := r.xs.scanNow.map fun k => s.runTask r k
  let w := r.xs
  let drops := (rs.map (·.drops)).foldl (· + ·) 0
  let runs := w.runs.map fun k => match (rs.map (·.run)).find? (ScanRun.same k) with | some n => n | none => k
  let fresh := (rs.map (·.run)).filter fun n => !w.runs.any (ScanRun.same n)
  let scored := (rs.map (·.scored)).foldl (· + ·) 0
  let w := { w with runs := runs ++ fresh, scanNow := [], scored := w.scored + scored, drops := w.drops + drops, approx := w.approx || drops != 0 }
  let prog := if r.isRecall then w.probed else r.progDone
  s.setReq slot { r with progDone := prog, progTotal := (if r.isRecall then w.probed else r.progTotal), xs := w }

/-! ## The select step (R230 to R234) -/

/-- Merges lists in the order of R215, keeping the first copy of each passage; the duplicates are counted (R230). -/
def dedup (l : List Cand) : List Cand × Nat :=
  let r := l.foldl (fun (a : List Cand × Nat) c => if a.1.any (fun e => e.id == c.id) then (a.1, a.2 + 1) else (c :: a.1, a.2)) ([], 0)
  (r.1.reverse, r.2)
def poolOf (runs : List ScanRun) : List Cand × Nat := dedup (candSort (runs.flatMap (·.out)))

/-- Whether a task reruns (R231). -/
def rerunsOf (refine : Bool) (l kt : Nat) (pool : List Cand) (k : ScanRun) : Bool :=
  k.lastN == kt && (match pool[l - 1]?, k.out.getLast? with
    | some t, some e => if refine then decide (candOrd e ≤ candOrd t) else decide (e.key ≤ t.key)
    | none, _ => true
    | _, none => false)

/-- The cut of R232: the pool, and whether it lost ties to the limit of 8,192. -/
def cutPool (refine : Bool) (c k : Nat) (pool : List Cand) : List Cand × Bool :=
  if refine then (pool.take c, false) else
  let p := match pool[k - 1]? with
    | some t => pool.take k ++ (pool.drop k).filter fun e : Cand => e.key == t.key
    | none => pool
  (p.take 8192, decide (8192 < p.length))

/-- The next scan round of an escalation: rooms N + 1 to min(2N, W, length) (R233). -/
def nextRooms (w : ReqWork) (width : Nat) : List Nat := (w.rooms.take (min (2 * w.probed) width)).drop w.probed

/-- The deadline test of R234. The round would be released at the next boundary, or one Tread later where the step ends at the boundary's own time (R29). -/
def State.escalates (s : State) (r : Req) : Bool :=
  let tsel := s.now
  let tnext := if s.now < s.newel.nextB then s.newel.nextB else s.newel.nextB + s.newel.len
  r.deadline = 0 || decide (tnext + 2 * (tsel - r.xs.tScan) + Blob.u32 r.desc 96 * 1000 ≤ r.deadline)

/-- The end of a select step: further rounds, escalation, or the cut (R230 to R234, R244). -/
def State.selectDone (s : State) (slot : Nat) (r : Req) : State :=
  let w := r.xs
  let p := poolOf w.runs
  let refine := spRefine r
  let kt := spKt r
  let k := spK r.desc
  let again := w.runs.filter (rerunsOf refine (spC r) kt p.1)
  let go := again.filter fun x => decide (x.rounds < 64)
  let w := { w with dups := p.2, approx := w.approx || (go.length != again.length && !r.isRecall) }
  if !go.isEmpty then s.setReq slot { r with stages := [.scan, .select] ++ r.stages, xs := { w with scanNow := go } } else
  let rooms := nextRooms w (spWidth r.desc)
  let short := decide (p.1.length < k) && !r.isRecall
  if short && !rooms.isEmpty && s.escalates r then
    let ts := rooms.flatMap (roomTasks (s.ixOf r) (w.snapshot.getD 0))
    s.setReq slot { r with stages := [.scan, .select] ++ r.stages, flags := r.flags ||| 16,
                           xs := { w with scanNow := ts, probed := w.probed + rooms.length, escs := w.escs + 1 } }
  else
    let ending := if short then (if rooms.isEmpty then 1 else 2) else if w.escs = 0 then 0 else 3
    let c := cutPool refine (spC r) k p.1
    s.setReq slot { r with xs := { w with pool := c.1, approx := w.approx || (c.2 && !r.isRecall), escEnd := ending } }

/-! ## Refine and merge (R236 to R241) -/

/-- The entry of an order key under a snapshot. -/
def Index.entryOf (x : Index) (snap order : Nat) : Option Entry :=
  let room := bitsN order 42 22
  let pos := bitsN order 21 0
  let v := x.verAt room snap
  if !bitN order 43 then v.main[pos]? else if pos < 4096 then v.annex[pos]? else SMap.find x.spill (pos - 4096)

def State.refineDone (s : State) (slot : Nat) (r : Req) : State :=
  let x := s.ixOf r
  let q := queryVector x r.xs.query
  let pool := r.xs.pool.map fun c => match x.entryOf (r.xs.snapshot.getD 0) c.order with
    | some e =>
      let sc := x.refScore q e
      let sc := if F.isNan sc then F.qnan else sc
      { c with score := sc, key := scoreKey x.similar sc }
    | none => c
  s.setReq slot { r with xs := { r.xs with pool := candSort pool } }

/-- A result entry (R240). -/
def candEntry (c : Cand) : Blob :=
  let annex := bitN c.order 43
  leBytes 5 c.id ++ leBytes 2 c.ver ++ leBytes 1 (c.order >>> 44 + shl (b2n annex) 4 + shl (b2n (annex && decide (4096 ≤ bitsN c.order 21 0))) 5)
    ++ leBytes 4 c.score.toNat ++ leBytes 4 c.attr
/-- The sentinel of R239. -/
def sentinel (similar : Bool) : Blob := leBytes 5 0xFFFFFFFFFF ++ zeros 3 ++ leBytes 4 (if similar then 0xFF800000 else 0x7F800000) ++ zeros 4

/-- Pools of the module and its peers merged under R237: the list, the duplicates removed. -/
def mergedPools (w : ReqWork) : List Cand × Nat :=
  dedup (candSort (w.pool ++ w.peers.flatMap fun p => p.2.pool.getD []))
def peerCount (w : ReqWork) (i : Nat) : Nat := (w.peers.map fun p => p.2.counts.getD i 0).foldl (· + ·) 0

/-- The end of a merge step: the first K, flags, and for a search its result (R237 to R242). -/
def State.mergeDone (s : State) (slot : Nat) (r : Req) : State :=
  let w := r.xs
  let k := spK r.desc
  let m := mergedPools w
  let list := m.1.take k
  let ties := match m.1[k - 1]? with | some t => ((m.1.drop k).filter fun e => e.key == t.key).length | none => 0
  let dups := w.dups + m.2 + peerCount w 0
  let approx := w.approx || peerCount w 3 != 0
  let f := b2n (decide (list.length < k)) + 2 * b2n approx + 4 * b2n (decide (0 < ties)) + 8 * b2n (dups != 0) + 16 * b2n (peerCount w 4 != 0)
  let sat := fun n => min n 0xFFFFFFFF
  let ext := leBytes 2 w.escs ++ leBytes 1 w.escEnd ++ leBytes 1 0 ++ leBytes 4 (sat ties) ++ leBytes 4 (sat m.1.length) ++ leBytes 4 (sat dups)
    ++ leBytes 4 (sat (w.scored + peerCount w 2)) ++ leBytes 4 w.probed ++ leBytes 4 (sat (w.drops + peerCount w 1))
  let r := { r with flags := r.flags ||| f, xs := { w with merged := list, ties := ties } }
  if r.opc = 3 then s.setReq slot r else
  let bytes := list.flatMap candEntry ++ (List.replicate (k - list.length) (sentinel (s.ixOf r).similar)).flatMap id
  s.setReq slot { r with ending := some 0, ext := ext, count := list.length, bytes := 16 * k, writes := [(r.resAddr, bytes)] }

/-- The merge step waits for every peer's pool (R237, R397). -/
def mergeReady (r : Req) : Bool := r.xs.peers.all fun p => p.2.pool.isSome

/-- RETRIEVE (R216, R217). -/
def execRetrieve (t fn ring : Nat) (s : State) : Res := .next (s.descriptor t fn ring 0x02 none (fun s _ => s) false)
/-- RECALL_PROBE (R244). -/
def execRecallProbe (t fn ring : Nat) (s : State) : Res := .next (s.descriptor t fn ring 0x15 none (fun s _ => s) false)

/-! ## Peers (R397, R398) -/

/-- Sub-requests stand in slots from 65,536 upward. -/
def State.peerSlot (s : State) : Nat :=
  let used := SMap.keysOf s.reqs fun k _ => decide (65536 ≤ k)
  65536 + ((List.range (used.length + 1)).find? fun i => !used.contains (65536 + i)).getD 0

/-- A sub-request's descriptor: an opcode of RETRIEVE with the search parameter block. -/
def subDesc (m : SubReq) : Blob :=
  leBytes 1 2 ++ leBytes 1 (4 * b2n m.compat) ++ leBytes 2 (m.tenant % 4096 + shl m.part 12) ++ leBytes 4 m.tag ++ leBytes 8 m.deadline ++ zeros 4
    ++ leBytes 4 m.index ++ zeros 40 ++ Blob.slice m.block 0 48 ++ zeros 144

/-- SUB_REQUEST (R397): it waits for the next boundary. A sub-request wakes a Dormant module (R473). -/
def execSubRequest (t peer : Nat) (msg : SubReq) (s : State) : Res :=
  let s := s.advance t
  if !s.running || (s.peer peer).state != 2 || 16 ≤ msg.part || msg.query.isEmpty then .next s else
  let s := (s.updPeer peer fun x => { x with lastFlit := s.now }).wakeDormant
  let refine := if bitN (Blob.u8 msg.block 8) 0 then [Stage.refine] else []
  let r : Req := { fn := s.ownerPort, order := s.nextOrder, desc := subDesc msg, admitAt := s.now, part := msg.part, phase := .waiting,
                   cls := s.classOf (subDesc msg), peer := some (peer, msg.tag), flags := shl (b2n msg.compat) 12,
                   stages := [.probe, .scan, .select] ++ refine, holds := [.index (msg.index % 8)], xs := { query := msg.query } }
  .next { s.setReq s.peerSlot r with nextOrder := s.nextOrder + 1 }

/-- Admission of a sub-request at a boundary: refused where the index is not READY or the partition does not accept it (R398). -/
def State.admitSub (s : State) (slot : Nat) (r : Req) : State :=
  let x := s.ixOf r
  let dark := (s.partDies r.part).any fun h => x.region (alcoveOf h) == 0xFF
  let ok := x.state == 2 && !dark && bitW (s.reg (Reg.galPart r.part)) 8 && bitW (s.reg (Reg.partCtrl r.part)) 0 && r.xs.query.length == x.dimD
  match r.peer with
  | none => s
  | some (m, tag) =>
    if ok then s.setReq slot { r with phase := .ready, doneAt := s.now }
    else (s.send (.gal m 1 (.subStatus tag true 0))).freeSlot slot

/-- The end of a sub-request: its pool and counts, or its cause bits (R397, R434). -/
def State.finishSub (s : State) (slot : Nat) : State :=
  match s.req? slot with
  | none => s
  | some r =>
    match r.peer with
    | none => s
    | some (m, tag) =>
      let w := r.xs
      let s := if r.doubt != 0 then s.send (.gal m 1 (.subStatus tag false r.doubt))
        else if r.ending.isSome then s
        else s.send (.gal m 2 (.pool tag w.pool [w.dups, w.drops, w.scored, b2n w.approx, w.escs]))
      s.freeSlot slot

/-- Takes a peer off a request's dependencies when nothing more is awaited from it (R400). -/
def Req.settle (r : Req) (peer : Nat) : Req := { r with needs := r.needs.filter (· != peer) }

/-- A message of a peer that fails its end-to-end check (R391): the request is doubted, the port counted, a record written. -/
def State.galCrc (s : State) (slot port peer : Nat) : State :=
  let record := s.flt.seq
  let base : Rec := { kind := 0x0C, sev := 1, site := 8 + port / 3, unit := port, detail := port + shl peer 4 }
  let s := (s.updGalPort port fun g => { g with e2e := satAdd 16 g.e2e 1 })
  match s.req? slot with
  | some r => (s.emit (base.ofReq r (s.curStepId slot))).doubt slot 64 (s.curStepId slot) record
  | none => s.emit base

/-- Cause bits that a peer reports (R434). -/
def State.peerDoubt (s : State) (slot causes : Nat) : State :=
  if causes = 0 then s else s.doubt slot (causes ||| 1024) (s.curStepId slot) (s.flt.seq)

/-- SUB_REQUEST_POOL (R237, R391, R434). -/
def execSubRequestPool (t peer slot : Nat) (pool : List Cand) (causes : Nat) (crcOk : Bool) (counts : List Nat) (s : State) : Res :=
  let s := s.advance t
  match s.req? slot with
  | none => .next s
  | some r =>
    if !s.running || (s.peer peer).state != 2 || !r.xs.peers.any (fun p => p.1 == peer && p.2.pool.isNone) then .next s else
    let s := s.updPeer peer fun x => { x with lastFlit := s.now }
    if !crcOk then .next (s.galCrc slot (s.peer peer).port peer)
    else
      let s := s.setReq slot ({ r with xs := { r.xs with peers := SMap.put r.xs.peers peer { pool := some pool, counts := counts } } }.settle peer)
      .next (s.peerDoubt slot causes)

end Sys2Proof.Machine
end

