-- ==== Sys2Proof/Machine/Arcade.lean ====
section
/-! DEFINITION. The text steps of requests on the Arcade engine: tokenise and detokenise (06 R150 to R167, 09 R248, 10 R283). -/

namespace Sys2Proof.Machine

open Sys2Proof

/-- The resident model of an ID, whatever its kind; a request holds what it names. -/
def State.held? (s : State) (id : Nat) : Model := SMap.at s.objs.models (idNum id) {}

/-- The vocabulary that the question of a request uses: that of the embedding model, or of the model in the header (R164, R248, R353). -/
def questionModel (d : Blob) : Nat :=
  if Blob.u8 d 0 = 2 || Blob.u8 d 0 = 0x15 || (Blob.u8 d 0 = 3 && useIndex d) then Blob.u32 d 100 else Blob.u32 d 20

/-- Bytes 36 to 63 of an INPUT_INVALID completion (R167): offset, segment, kind. -/
def errExt (e : Nat × Nat × Nat) (replaced : Nat) : Blob :=
  leBytes 4 e.1 ++ leBytes 1 e.2.1 ++ leBytes 1 e.2.2 ++ zeros 2 ++ leBytes 4 replaced

/-- Counts replacements in the block of a Vestibule (R173). -/
def State.countReplaced (s : State) (slot n : Nat) : State :=
  if n = 0 then s else s.satField (Reg.txtReplaced (slotVest slot)) 31 0 n

/-- Ends a request at its next boundary with a status and bytes 36 to 63. -/
def Req.endAs (r : Req) (status : Nat) (ext : Blob) : Req := { r with ending := some status, ext := ext, stages := [] }

/-- A prompt of more than CONTEXT − 1 tokens ends the request with end detail 4; PREFIX_HIT follows from its length (R269, R283). -/
def State.formPrompt (s : State) (slot : Nat) (r : Req) (prompt : List Nat) : State :=
  let m := s.held? r.objId
  let noPrefix := useIndex r.desc && bitN (Blob.u8 r.desc 129) 3
  let f := if !noPrefix && 64 ≤ prompt.length then 128 else 0
  let r := { r with flags := r.flags ||| f, xs := { r.xs with gen := { r.xs.gen with prompt := prompt } } }
  let ext := leBytes 4 prompt.length ++ leBytes 4 r.xs.merged.length ++ leBytes 2 r.xs.escs ++ leBytes 1 r.xs.escEnd ++ leBytes 1 4
  s.setReq slot (if imgContext m.image - 1 < prompt.length then r.endAs 0x21 ext else r)

/-- The prompt without an index: BOS where asked, then the tokens (R283). -/
def State.plainPrompt (s : State) (r : Req) (tokens : List Nat) : List Nat :=
  (if genFlag r.desc 2 then [vocBos (s.held? r.objId).vocab] else []) ++ tokens

/-- The token words of an INPUT_TOKENS or DETOKENIZE input. -/
def State.inputWords (s : State) (r : Req) : List Nat :=
  let b := s.gather r.fn r.desc
  (List.range (b.length / 4)).map fun i => Blob.u32 b (4 * i)

/-- A request whose ending is fixed before it runs a step does not wait for a Tread boundary (R29). -/
def State.finishUnrun (s : State) (slot : Nat) : State :=
  match s.req? slot with
  | some r => if r.ending.isSome && r.phase == .ready && r.relAt == 0 then (s.setReq slot { r with phase := .balustrade }).finish slot else s
  | none => s

/-- Token input at admission (R283, R353): a bad word ends the request with INPUT_INVALID, error kind 3. -/
def State.admitTokens (s : State) (slot : Nat) : State :=
  match s.req? slot with
  | none => s
  | some r =>
    if !tokenInput r.desc then s else
    let ws := s.inputWords r
    let v := (s.held? r.objId).vocab
    match (List.range ws.length).find? fun i => let w := ws.getD i 0; w / 2 ^ 20 != 0 || decide (vocSize v ≤ w) with
    | some i => s.endWith slot 0x20 (errExt (4 * i, segmentOf (s.segLens r.fn r.desc) (4 * i) 0, 3) 0)
    | none =>
      if r.opc = 3 then s.formPrompt slot r (s.plainPrompt r ws)
      else s.setReq slot { r with xs := { r.xs with question := ws } }

/-- The result of TOKENIZE (R164, R167): whole tokens that fit, offsets, counts. -/
def State.tokenizeDone (s : State) (slot : Nat) (r : Req) (v : Blob) (o : TextOut) : State :=
  let op := Blob.u8 r.desc 64
  let ts := (if bitN op 0 then [(vocBos v, 0xFFFFFFFF)] else []) ++ o.tokens ++ (if bitN op 1 then [(vocEos v, 0xFFFFFFFF)] else [])
  let room := r.resLen / 4
  let room := if bitN op 2 then min room (Blob.u32 r.desc 80 / 4) else room
  let out := ts.take room
  let offs := if bitN op 2 then [(Blob.u64 r.desc 72, out.flatMap fun t => leBytes 4 t.2)] else []
  let ext := zeros 8 ++ leBytes 4 o.replaced ++ leBytes 4 ts.length ++ leBytes 4 o.normLen
  let f := if o.replaced = 0 then 0 else 512
  s.setReq slot { r with ending := some (if out.length < ts.length then 1 else 0), ext := ext, flags := r.flags ||| f, count := out.length,
                         bytes := 4 * out.length, writes := (r.resAddr, out.flatMap fun t => leBytes 4 t.1) :: offs }

/-- A tokenise step: the question, and for a GENERATE with an index the system and instruction texts (R150, R248, R283). -/
def State.tokeniseDone (s : State) (slot : Nat) (r : Req) : State :=
  let d := r.desc
  let rej := isReject d
  let qm := (s.held? (questionModel d)).vocab
  let gm := (s.held? r.objId).vocab
  let seg := fun off => segmentOf (s.segLens r.fn d) off 0
  let withIndex := decide (r.opc = 3) && useIndex d
  let input := if queryInput d then [] else s.gather r.fn d
  let q := textPipe qm (s.normOf qm) rej seg input
  let g := if withIndex && vocCrc gm != vocCrc qm then textPipe gm (s.normOf gm) rej seg input else q
  let sysT := if withIndex then textPipe gm (s.normOf gm) rej (fun _ => 16) (s.hostRead r.fn (Blob.u64 d 136) (Blob.u32 d 144)) else {}
  let insT := if withIndex then textPipe gm (s.normOf gm) rej (fun _ => 17) (s.hostRead r.fn (Blob.u64 d 152) (Blob.u32 d 148)) else {}
  let replaced := (if queryInput d then 0 else q.replaced) + sysT.replaced + insT.replaced
  let s := s.countReplaced slot replaced
  let err := ((if queryInput d then [] else [q.err, g.err]) ++ [sysT.err, insT.err]).findSome? id
  match err with
  -- the replacements made before the expansion limit ended the request are counted and reported (R155, R167)
  | some e => s.setReq slot ({ r with flags := r.flags ||| (if replaced = 0 then 0 else 512) }.endAs 0x20 (errExt e replaced))
  | none =>
    if r.opc = 4 then s.tokenizeDone slot r qm q else
    let toks := fun o : TextOut => o.tokens.map Prod.fst
    let f := if replaced = 0 then 0 else 512
    let none_ := queryInput d
    let r := { r with flags := r.flags ||| f,
                      xs := { r.xs with question := (if none_ then [] else toks q), genQ := (if none_ then [] else toks g), system := toks sysT, instr := toks insT, replaced := replaced } }
    if r.opc = 3 && !withIndex then s.formPrompt slot r (s.plainPrompt r (toks q)) else s.setReq slot r

/-- DETOKENIZE (R165, R167). -/
def State.detokeniseDone (s : State) (slot : Nat) (r : Req) : State :=
  let v := (s.held? r.objId).vocab
  let ws := s.inputWords r
  let o := detokenise v (bitN (Blob.u8 r.desc 64) 0) (isReject r.desc) r.resLen ws
  match o.err with
  | some (w, k) => s.setReq slot (r.endAs 0x20 (errExt (4 * w, segmentOf (s.segLens r.fn r.desc) (4 * w) 0, k) 0))
  | none =>
    let s := s.countReplaced slot o.replaced
    let ext := zeros 8 ++ leBytes 4 o.replaced ++ leBytes 4 o.total
    let f := if o.replaced = 0 then 0 else 512
    s.setReq slot { r with ending := some (if o.consumed < ws.length then 1 else 0), ext := ext, flags := r.flags ||| f, count := o.consumed,
                           bytes := o.bytes.length, writes := [(r.resAddr, o.bytes)] }

/-- The end of an embed step: the query vector, or the result of EMBED (R218, R353). -/
def State.embedDone (s : State) (slot : Nat) (r : Req) : State :=
  let id := if r.opc = 1 then r.objId else Blob.u32 r.desc 100
  let crc := imgCrc (s.held? id).image
  let out := (List.range (Config.outDim crc).toNat).map (Config.embedElem crc (bitN r.flags 12) r.xs.question)
  if r.opc = 1 then
    let y := if bitN (Blob.u8 r.desc 65) 0 then unitScale out else out
    let b := encodeElems (Blob.u8 r.desc 64) y
    s.setReq slot { r with ending := some 0, count := 1, bytes := b.length, writes := [(r.resAddr, b)] }
  else s.setReq slot { r with xs := { r.xs with query := out } }

/-- EMBED (R353). -/
def execEmbed (t fn ring : Nat) (s : State) : Res := .next (s.descriptor t fn ring 0x01 none State.admitTokens false)
/-- TOKENIZE (R164). -/
def execTokenize (t fn ring : Nat) (s : State) : Res := .next (s.descriptor t fn ring 0x04 none (fun s _ => s) false)
/-- DETOKENIZE (R165). -/
def execDetokenize (t fn ring : Nat) (s : State) : Res := .next (s.descriptor t fn ring 0x05 none (fun s _ => s) false)

end Sys2Proof.Machine
end

