-- ==== Sys2Proof/Machine/Attend.lean ====
section
/-! DEFINITION. Which rows a prompt has and what each attends to, keys and values of rows, and the pruning of a pair (09 R255, R256, R266, R270, R271, 10 R288). -/

namespace Sys2Proof.Machine

open Sys2Proof

/-! ## Rows (R266, R270, R271) -/

/-- A row of the forward pass: token, position, prompt place, what it attends to (row, position of use), and, of a canonical row, the packed passage and the offset in it. -/
structure Row where
  token : Nat := 0
  pos   : Nat := 0
  at_   : Nat := 0
  sees  : List (Nat × Nat) := []
  canon : Option (Nat × Nat) := none
deriving DecidableEq, Repr, Inhabited

/-- Rows computed so far, and the row that is the attended form of each prompt place. -/
structure Rows where
  rows  : List Row := []
  forms : List Nat := []
deriving DecidableEq, Repr, Inhabited

/-- A row in its context: it attends to the attended form of every earlier place, at actual positions. -/
def Rows.here (x : Rows) (token : Nat) : Row :=
  let q := x.forms.length
  { token := token, pos := q, at_ := q, sees := (List.range q).map fun i => (x.forms.getD i 0, i) }
def Rows.add (x : Rows) (r : Row) : Rows := { x with rows := x.rows ++ [r] }
/-- The row last added is the attended form of the next place. -/
def Rows.form (x : Rows) : Rows := { x with forms := x.forms ++ [x.rows.length - 1] }

/-- The canonical row of offset j of packed passage k: it attends to the anchor and to the earlier canonical rows of its passage, at canonical positions (R270). -/
def Rows.canonical (x : Rows) (anchor k j token : Nat) : Row :=
  let own := (List.range x.rows.length).filterMap fun i =>
    match (x.rows.getD i {}).canon with | some (k', j') => if k' = k then some (i, anchor + j') else none | none => none
  { token := token, pos := anchor + j, at_ := x.forms.length, canon := some (k, j),
    sees := ((List.range anchor).map fun i => (x.forms.getD i 0, i)) ++ own }

/-- Rows of one prompt place. In a packed passage under the block-sparse mask the first 16 tokens have a canonical row and a bridge row, whose in-context form later rows attend to; the others a canonical row alone. -/
def Rows.place (packed : List Packed) (anchor : Nat) (x : Rows) (token : Nat) : Rows :=
  let q := x.forms.length
  match (List.range packed.length).findSome? fun k =>
      let p := packed.getD k {}
      if p.at_ ≤ q && q < p.at_ + p.kept then some (k, q - p.at_) else none with
  | none => (x.add (x.here token)).form
  | some (k, j) =>
    let y := x.add (x.canonical anchor k j token)
    if j < 16 then (y.add (x.here token)).form else y.form

/-- The rows of a prompt: under the block-sparse mask where packed passages are given, else causal (R270). -/
def promptRows (packed : List Packed) (anchor : Nat) (prompt : List Nat) : Rows := prompt.foldl (Rows.place packed anchor) {}

/-! ## Keys and values (R72, R271, R288) -/

/-- What the forward pass of a generator depends on beside the rows: image CRC, variant number, bytes of a row's keys and values, SFU revision, mode. -/
structure Net where
  image  : Nat := 0
  var    : Nat := 0
  bytes  : Nat := 0
  rev    : Nat := 0
  rilqua : Bool := false
deriving DecidableEq, Repr, Inhabited

/-- What a row attends to at a position of use: the rotation of that position (R72), and the keys and values that are held. -/
def Net.use (x : Net) (pos : Nat) (kv : Blob) : List (F32 × F32) × Blob :=
  ((Config.rotaryFreqs x.image).map (F.rotary x.rev x.rilqua (F.ofNat pos)), kv)
/-- Keys and values of a row, as long as R286 gives them. -/
def Net.kv (x : Net) (token pos : Nat) (seen : List (List (F32 × F32) × Blob)) : Blob := Blob.slice (Config.rowKv x.image x.var token pos seen) 0 x.bytes
def Net.seen (x : Net) (kvs : List Blob) (r : Row) : List (List (F32 × F32) × Blob) := r.sees.map fun e => x.use e.2 (kvs.getD e.1 [])
/-- Attended forms of all places before one, at actual positions. -/
def Net.before (x : Net) (forms : List Blob) (q : Nat) : List (List (F32 × F32) × Blob) := (List.range q).map fun i => x.use i (forms.getD i [])

/-- Keys and values of rows in order; `given` supplies those of prefix blocks and cached passages (R266, R272). -/
def Net.run (x : Net) (given : Row → Option Blob) (rows : List Row) : List Blob :=
  rows.foldl (fun kvs r => kvs ++ [(given r).getD (x.kv r.token r.pos (x.seen kvs r))]) []

/-! ## Experts (R287) -/

/-- Selected experts: the best TOPK router logits by the key of R213 taken as a similarity, then the lower index; in ascending index. -/
def topExperts (topk : Nat) (logits : List F32) : List Nat :=
  let zs := (List.range logits.length).map fun i => (shl (scoreKey true (logits.getD i 0)) 16 + i, i)
  let best := zs.filter fun z => decide ((zs.filter fun y => decide (y.1 < z.1)).length < topk)
  best.map Prod.snd
/-- Gate weights of the selected experts (R75, R287). -/
def gateWeights (rev : Nat) (rilqua : Bool) (topk : Nat) (logits : List F32) : List (Nat × F32) :=
  let es := topExperts topk logits
  List.zip es (F.softmax rev rilqua F.one (fun _ => false) (es.map fun i => logits.getD i 0))
/-- One element of a layer's output: shared experts with weight 1, then the selected ones with their gates, each added by fma. -/
def expertSum (shared : List F32) (selected : List (F32 × F32)) : F32 :=
  (shared.map (fun o => (F.one, o)) ++ selected).foldl (fun acc e => F.fma e.1 e.2 acc) F.zero

/-- A steered element after the residual addition (R290): scale and bias as E4M3. -/
def steer (scale bias : Byte) (h : F32) : F32 := F.fma h (F.ofE4m3 scale) (F.ofE4m3 bias)

/-! ## Pairs of the cross-encoder (R255, R256) -/

/-- The pair of a passage: prefix, question tokens, separator, the passage tokens that fit, suffix. A pair never exceeds 512 tokens. `span` is the place and number of its passage tokens. -/
structure Pair where
  toks : List Nat := []
  from_ : Nat := 0
  n    : Nat := 0
deriving DecidableEq, Repr, Inhabited

def makePair (g : PairRuns) (question passage : List Nat) : Pair :=
  let q := question.take 256
  let room := 512 - g.pfx.length - q.length - g.sep.length - g.sfx.length
  let p := passage.take room
  { toks := (g.pfx ++ q ++ g.sep ++ p ++ g.sfx).take 512, from_ := (g.pfx ++ q ++ g.sep).length, n := p.length }

/-- A token's importance: the attention probabilities to it over heads, then query rows, reduced as one row (R68, R256). -/
def importance (rilqua : Bool) (image : Nat) (g : PairRuns) (pair : List Nat) (kept : List (List Nat)) (alive : List Nat) (j : Nat) : F32 :=
  F.rowSum rilqua ((List.range g.heads).flatMap fun h => alive.map fun row => Config.pairProb image rilqua pair kept h row j)

/-- Places that go on after a layer with keep count n: all but the passage tokens that are not among the n most important, ties to the lower position. -/
def pruned (imp : Nat → F32) (x : Pair) (alive : List Nat) (n : Nat) : List Nat :=
  let inP := fun i => decide (x.from_ ≤ i) && decide (i < x.from_ + x.n)
  let key := fun i => shl (scoreKey true (imp i)) 10 + i
  let ps := alive.filter inP
  if ps.length ≤ n then alive
  else alive.filter fun i => !inP i || decide ((ps.filter fun j => decide (key j < key i)).length < n)

/-- The places kept after each layer. -/
def pairKept (rilqua : Bool) (image : Nat) (g : PairRuns) (x : Pair) : List (List Nat) :=
  g.keep.foldl (fun kept n =>
    let alive := kept.getLastD (List.range x.toks.length)
    kept ++ [pruned (importance rilqua image g x.toks kept alive) x alive n]) []

/-- The score of a pair: a function of the pair, the model and the mode alone (R53, R256, R257). -/
def pairScore (rilqua : Bool) (image : Nat) (g : PairRuns) (x : Pair) : F32 :=
  Config.pairScore image rilqua x.toks (pairKept rilqua image g x)

end Sys2Proof.Machine
end

