-- ==== Sys2Proof/Machine/Prompt.lean ====
section
/-! DEFINITION. Passage stores, fetch, rerank, packing, the context list, the prefix table and the partition caches (09_rerank_and_prompt_packing). -/

namespace Sys2Proof.Machine

open Sys2Proof

/-! ## The rerank and packing block (R247) -/

def rrIn (d : Blob) : Nat := Blob.u16 d 112
def rrOut (d : Blob) : Nat := Blob.u16 d 114
def packFlag (d : Blob) (i : Nat) : Bool := useIndex d && bitN (Blob.u8 d 129) i
def Req.generator (s : State) (r : Req) : Model := s.held? r.objId

/-! ## Passage stores (R249 to R252) -/

/-- What a lookup gives: a read that it still needs, no available passage, or its tokens. -/
inductive Fetched where
  | need (addr len : Nat)
  | none_
  | tokens (ts : List Nat)
deriving DecidableEq, Repr, Inhabited

/-- Reads of the store: T4 of the submitting function, or what a peer has sent (R249). -/
def State.storeRead (s : State) (r : Req) (addr len : Nat) : Option Blob :=
  if Blob.u8 r.xs.store 8 = 0 then some (s.hostRead r.fn addr len)
  else (r.xs.t3Got.find? fun e => e.1 == addr && e.2.length == len).map Prod.snd

/-- The entries of a bucket from j: an empty entry ends the search (R250). -/
def bucketScan (b : Blob) (id : Nat) : Nat → Nat → Option (Option Blob)
  | 0, _ => none
  | n + 1, j =>
    let e := Blob.slice b (16 * j) 16
    if Blob.u16 e 7 = 0 then some none
    else if Blob.u e 0 5 = id then some (some e)
    else bucketScan b id n (j + 1)

/-- The directory entry of a passage: a needed read, or the entry where there is one (R250). -/
def dirLookup (rd : Nat → Nat → Option Blob) (base buckets id : Nat) : Nat → Nat → Except (Nat × Nat) (Option Blob)
  | 0, _ => .ok none
  | n + 1, b =>
    match rd (base + 64 * b) 64 with
    | none => .error (base + 64 * b, 64)
    | some line =>
      match bucketScan line id 4 0 with
      | some r => .ok r
      | none => dirLookup rd base buckets id n ((b + 1) % buckets)

def dirHash (id : Nat) : Nat := shl (crc32c (leBytes 5 id)).toNat 32 + (crc32cFrom 0xFFFFFFFF#32 (leBytes 5 id)).toNat

/-- Fetches one candidate (R250, R252, R253); v is the vocabulary size, `hot` what the hot-passage cache holds of the passage. -/
def fetchOne (rd : Nat → Nat → Option Blob) (hot : Option (List Nat)) (store : Blob) (v : Nat) (c : Cand) : Fetched :=
  let known := fun ts => if ts.any fun t => decide (v ≤ t) then Fetched.none_ else .tokens ts
  match hot with
  | some ts => known ts
  | none =>
    let buckets := Blob.u64 store 24
    match dirLookup rd (Blob.u64 store 16) buckets c.id 8 (dirHash c.id * buckets / 2 ^ 64) with
    | .error (a, n) => .need a n
    | .ok none => .none_
    | .ok (some e) =>
      let n := Blob.u16 e 7
      let off := 4 * Blob.u e 10 6
      if Blob.u16 e 5 != c.ver || 4096 < n || Blob.u8 e 9 != 0 || Blob.u64 store 40 < off + 4 * n then .none_
      else match rd (Blob.u64 store 32 + off) (4 * n) with
        | none => .need (Blob.u64 store 32 + off) (4 * n)
        | some b => known ((List.range n).map fun i => Blob.u32 b (4 * i))

/-! ### The partition caches (R253, R254, R265, R272) -/

def State.modelKv (s : State) (id : Nat) : Nat := (s.held? id).kvBytes
/-- Bytes of the context granules of a partition (R254). -/
def State.contextBytes (s : State) (p : Nat) : Nat := s.contextGranules p * granule

/-- The key of a cached passage: store tag, passage ID and version. -/
def passKey (store : Blob) (c : Cand) : Blob := leBytes 4 (Blob.u32 store 4) ++ leBytes 5 c.id ++ leBytes 2 c.ver

/-- Looks an entry up, and refreshes it. -/
def State.cacheGet (s : State) (p : Nat) (kv : Bool) (key : Blob) : Option CacheEnt :=
  s.objs.caches.find? fun c => c.part == p && c.kv == kv && c.key == key
def State.cacheHit (s : State) (p : Nat) (kv : Bool) (key : Blob) : Bool := (s.cacheGet p kv key).isSome
def State.cacheTouch (s : State) (p : Nat) (kv : Bool) (key : Blob) : State :=
  s.updObjs fun o => { o with caches := o.caches.map fun c => if c.part = p ∧ c.kv = kv ∧ c.key = key then { c with used := s.now } else c }

/-- The hot-passage cache gives up its own least recently used entries that no released step reads, at its limit of one eighth (R254). -/
def State.trimHot (p size : Nat) : Nat → State → State
  | 0, s => s
  | n + 1, s =>
    let hot := s.objs.caches.filter fun c => c.part == p && !c.kv
    if (hot.map (·.size)).foldl (· + ·) 0 + size ≤ s.contextBytes p / 8 then s
    else match oldestOf (·.used) (hot.filter fun c => !s.cacheInUse c) with
      | some c => State.trimHot p size n (s.updObjs fun o => { o with caches := o.caches.erase c })
      | none => s

/-- Makes room for an entry of a partition in its context granules, and places it there (R254). -/
def State.cacheRoom (s : State) (p size : Nat) : State × Option Nat :=
  if s.contextBytes p < size then (s, none) else
  let s := s.evictFor p fun q => (q.cachePlace p size).isSome
  (s, s.cachePlace p size)

/-- Inserts an entry where room can be made; one that stands already is refreshed (R253, R272, R273). -/
def State.cacheInsert (s : State) (e : CacheEnt) : State :=
  if s.cacheHit e.part e.kv e.key then s.cacheTouch e.part e.kv e.key
  else
    let s := if e.kv then s else State.trimHot e.part e.size s.objs.caches.length s
    let held := ((s.objs.caches.filter fun c => c.part == e.part && !c.kv).map (·.size)).foldl (· + ·) 0
    if !e.kv && decide (s.contextBytes e.part / 8 < held + e.size) then s else
    match s.cacheRoom e.part e.size with
    | (s, none) => s
    | (s, some a) => s.updObjs fun o => { o with caches := o.caches ++ [{ e with at_ := a }] }

/-! ### The fetch step (R252, R253) -/

/-- The candidates that fetch takes (R252). -/
def fetchList (r : Req) : List Cand := r.xs.merged.take (if rrIn r.desc = 0 then rrOut r.desc else rrIn r.desc)
def State.fetchAll (s : State) (r : Req) : List (Cand × Fetched) :=
  let v := vocSize (r.generator s).vocab
  (fetchList r).map fun c => (c, fetchOne (s.storeRead r) ((s.cacheGet r.part false (passKey r.xs.store c)).map (·.tokens)) r.xs.store v c)

/-- Sends the T3 reads that lookups need and that were not sent (R252, R399). -/
def State.sendNeeds (s : State) (slot : Nat) (r : Req) (found : List (Cand × Fetched)) : State :=
  let peer := Blob.u8 r.xs.store 9
  let needs := (found.filterMap fun e => match e.2 with | .need a n => some (a, n) | _ => none).eraseDups
  let new := needs.filter fun e => !r.xs.t3Sent.contains e
  let s := s.setReq slot { r with xs := { r.xs with t3Sent := r.xs.t3Sent ++ new } }
  new.foldl (fun s e => s.send (.gal peer 0 (.t3Read e.1 e.2 slot))) s
def State.sendReads (s : State) (slot : Nat) (r : Req) : State := s.sendNeeds slot r (s.fetchAll r)

/-- The release of fetch: it reads the cached passages, which stay until it ends (R253); with a T3 store its other reads go out; a peer that is not present ends the request (R252). -/
def State.fetchRelease (s : State) (slot : Nat) (r : Req) : State :=
  let keys := ((fetchList r).map fun c => passKey r.xs.store c).filter fun k => s.cacheHit r.part false k
  let s := keys.foldl (fun s k => s.cacheTouch r.part false k) s
  let r := { r with xs := { r.xs with useKeys := keys.map fun k => (false, k) } }
  if Blob.u8 r.xs.store 8 = 0 then s.setReq slot r
  else
    let p := Blob.u8 r.xs.store 9
    if (s.peer p).state != 2 then (s.setReq slot r).peerEnd slot s.flt.seq
    else s.sendReads slot { r with needs := p :: r.needs.filter (· != p) }

/-- Whether every read of a fetch step has been answered. -/
def State.fetchComplete (s : State) (r : Req) : Bool :=
  (s.fetchAll r).all fun e => match e.2 with | .need _ _ => false | _ => true

/-! ## Model word and keys (R263, R264, R272) -/

/-- The model word (R263): generator ID, then the variant word. -/
def variantWord (r : Req) : Nat :=
  let d := r.desc
  let steer := Blob.u8 d 206
  Blob.u16 d 204 % 2048 + (if steer = 0xFF then 0 else shl steer 11 + 2 ^ 17) + shl (b2n (packFlag d 2)) 30 + shl (b2n (bitN r.flags 12)) 31
def modelWord (r : Req) : Nat := r.objId + shl (variantWord r) 32
def tokenBlob (ts : List Nat) : Blob := ts.flatMap (leBytes 4)

/-- Keys of the full blocks of a prompt in order (R264). -/
def prefixKeys (word : Nat) (prompt : List Nat) : List (Nat × List Nat) :=
  let blocks := (List.range (prompt.length / 64)).map fun i => (prompt.drop (64 * i)).take 64
  (blocks.foldl (fun (a : Blob × List (Nat × List Nat)) b =>
    let k := (sm3 (a.1 ++ leBytes 8 word ++ tokenBlob b)).take 12
    (k, a.2 ++ [(beNat k, b)])) (zeros 12, [])).2
/-- The anchor key of the passage KV cache (R272). -/
def anchorKey (word : Nat) (anchor : List Nat) : Blob := (sm3 (leBytes 8 word ++ tokenBlob anchor)).take 12

def kvKey (r : Req) (c : Cand) : Blob :=
  leBytes 8 (modelWord r) ++ anchorKey (modelWord r) (r.xs.gen.prompt.take r.xs.anchor) ++ passKey r.xs.store c

/-- What the logits depend on beside the rows: the variant with its set and steering images, and the mode (R53, R288). -/
def State.logitVariant (s : State) (r : Req) : Nat :=
  let crc := fun (x : Option Model) => match x with | some m => imgCrc m.image | none => 0
  let set := crc (SMap.find s.objs.sets (Blob.u16 r.desc 204))
  let steer := crc (SMap.find s.objs.steers (Blob.u8 r.desc 206))
  (set * 2 ^ 32 + steer) * 2 ^ 32 + variantWord r
def State.net (s : State) (r : Req) : Net :=
  let m := r.generator s
  { image := imgCrc m.image, var := s.logitVariant r, bytes := m.kvBytes, rev := bitsN s.fuses.behaviour 23 16, rilqua := bitN r.flags 12 }

/-! ## Fetch and rerank (R252 to R257) -/

/-- The end of fetch: the available passages with their retrieval positions; a fetch fills the hot-passage cache. -/
def State.fetchDone (s : State) (slot : Nat) (r : Req) : State :=
  let all := s.fetchAll r
  let ps := ((List.range all.length).zip all).filterMap fun e => match e.2.2 with
    | .tokens ts => some { pos := e.1, cand := e.2.1, tokens := ts : Passage }
    | _ => none
  let s := if r.doubt != 0 then s else ps.foldl (fun s q => s.cacheInsert
    { part := r.part, kv := false, key := passKey r.xs.store q.cand, size := 4 * q.tokens.length, used := s.now, tokens := q.tokens }) s
  let stages := if ps.isEmpty then r.stages.filter (· != .rerank) else r.stages
  let tier := Blob.u8 r.xs.store 8
  let r := if tier = 1 then r.settle (Blob.u8 r.xs.store 9) else r
  s.setReq slot { r with stages := stages, xs := { r.xs with passages := ps, missing := all.length - ps.length, t3Got := [], t3Sent := [] } }

/-- The rerank model of a request, and the pair of a passage (R255). -/
def State.pairRuns (s : State) (r : Req) : PairRuns := Config.pairRuns (imgSection (s.held? (Blob.u32 r.desc 116)).image 8)
def State.pairOf (s : State) (r : Req) (tokens : List Nat) : Pair := makePair (s.pairRuns r) r.xs.genQ tokens

/-- Pairs that no speculative task has scored (R143). -/
def unscored (r : Req) : List Passage := r.xs.passages.filter fun q => !r.xs.specDone.contains (q.cand.id, q.cand.ver)
/-- Tokens of every pair of the final list (R292; log entry 32). -/
def State.rerankCharge (s : State) (r : Req) : Nat := (r.xs.passages.map fun q => (s.pairOf r q.tokens).toks.length).foldl (· + ·) 0

/-- Rerank order: key of the score as a similarity, then retrieval position (R257). -/
def passOrd (q : Passage) : Nat := shl (scoreKey true q.score) 16 + q.pos
def passInsert (q : Passage) : List Passage → List Passage
  | [] => [q]
  | a :: r => if passOrd q < passOrd a then q :: a :: r else a :: passInsert q r

def State.rerankDone (s : State) (slot : Nat) (r : Req) : State :=
  let crc := imgCrc (s.held? (Blob.u32 r.desc 116)).image
  let ps := r.xs.passages.map fun q => { q with score := pairScore (bitN r.flags 12) crc (s.pairRuns r) (s.pairOf r q.tokens) }
  s.setReq slot { r with xs := { r.xs with passages := ps, pairs := ps.length, chosen := (ps.foldr passInsert []).take (rrOut r.desc) } }

/-! ## Packing (R259 to R262) -/

def tmplPool (b : Blob) (off n : Nat) : List Nat :=
  let base := 64 + 8 * Blob.u8 b 5
  (List.range n).map fun i => Blob.u32 b (base + 4 * (off + i))
/-- OPEN, CLOSE, SEP and CUT runs. -/
def tmplRun (b : Blob) (i : Nat) : List Nat := tmplPool b (Blob.u16 b (16 + 4 * i)) (Blob.u16 b (18 + 4 * i))
/-- Elements: kind and tokens, PASSAGES empty. -/
def tmplElems (r : Req) (b : Blob) : List (Nat × List Nat) :=
  (List.range (Blob.u8 b 5)).map fun i =>
    let o := 64 + 8 * i
    match Blob.u8 b o with
    | 1 => (1, tmplPool b (Blob.u16 b (o + 4)) (Blob.u16 b (o + 2)))
    | 2 => (2, r.xs.system)
    | 4 => (4, r.xs.genQ)
    | 5 => (5, r.xs.instr)
    | k => (k, [])

/-- The passages taken, in rerank order: rank, passage, tokens kept, cut (R261). -/
def packLoop (b : Blob) (cutOk : Bool) (room : Nat) : Nat → Nat → List Passage → List Packed
  | _, _, [] => []
  | n, used, q :: rest =>
    let sep := if n = 0 then 0 else (tmplRun b 2).length
    let edge := sep + (tmplRun b 0).length + (tmplRun b 1).length
    let len := q.tokens.length
    if used + edge + len ≤ room then { p := q, rank := n, kept := len } :: packLoop b cutOk room (n + 1) (used + edge + len) rest
    else
      let overrun := used + edge + (tmplRun b 3).length
      let m := room - overrun
      if cutOk && decide (overrun ≤ room) && decide (Blob.u16 b 6 ≤ m) && decide (1 ≤ m) then [{ p := q, rank := n, kept := m, cut := true }] else []

/-- The order of SOURCE_ORDER: passage ID, module ID. -/
def sourceOrd (k : Packed) : Nat := shl k.p.cand.id 4 + k.p.cand.order >>> 44
def packInsert (k : Packed) : List Packed → List Packed
  | [] => [k]
  | a :: r => if sourceOrd k < sourceOrd a then k :: a :: r else a :: packInsert k r

/-- The passages' tokens from a prompt position on, with the position of each (R260). -/
def layPassages (b : Blob) : Nat → Bool → List Packed → List Nat × List Packed
  | _, _, [] => ([], [])
  | pos, first, k :: rest =>
    let pre := (if first then [] else tmplRun b 2) ++ tmplRun b 0
    let post := (if k.cut then tmplRun b 3 else []) ++ tmplRun b 1
    let body := pre ++ k.p.tokens.take k.kept ++ post
    let r := layPassages b (pos + body.length) false rest
    (body ++ r.1, { k with at_ := pos + pre.length } :: r.2)

/-- An entry of the context list (R262). -/
def ctxEntry (q : Passage) (rank state kept at_ : Nat) : Blob :=
  leBytes 5 q.cand.id ++ leBytes 2 q.cand.ver ++ leBytes 1 (q.cand.order >>> 44) ++ leBytes 2 q.pos ++ leBytes 1 rank ++ leBytes 1 state
    ++ leBytes 4 q.score.toNat ++ leBytes 4 q.cand.score.toNat ++ leBytes 2 kept ++ zeros 2 ++ leBytes 4 at_ ++ zeros 4

def ctxList (r : Req) (promptLen : Nat) (cut : Bool) : Blob :=
  let w := r.xs
  let es := (w.packed.map fun k => ctxEntry k.p k.rank (b2n k.cut) k.kept k.at_)
    ++ w.dropped.map fun k => ctxEntry k.2 k.1 2 0 0xFFFFFFFF
  leBytes 2 es.length ++ leBytes 2 w.chosen.length ++ leBytes 2 w.missing ++ leBytes 2 w.dropped.length ++ leBytes 4 promptLen ++ leBytes 4 w.anchor
    ++ leBytes 2 w.pairs ++ leBytes 1 (b2n cut + 2 * b2n (packFlag r.desc 2) + 4 * b2n w.overrun) ++ zeros 13 ++ es.flatMap id

/-- Writes the context list once the pack step has passed its check (R262, R437). -/
def State.putContext (s : State) (r : Req) (promptLen : Nat) (cut : Bool) : State :=
  let a := Blob.u64 r.desc 160
  if a = 0 || r.doubt != 0 || r.suppress then s else s.hostWrite r.fn a (ctxList r promptLen cut) true

/-- The end of pack: prompt, context list, flags (R260 to R262, R269). -/
def State.packDone (s : State) (slot : Nat) (r : Req) : State :=
  let d := r.desc
  let b := ((r.generator s).template (Blob.u8 d 128)).getD []
  let chosen := if rrIn d = 0 then r.xs.passages.take (rrOut d) else r.xs.chosen
  let es := tmplElems r b
  let before := (es.takeWhile fun e => e.1 != 3).flatMap Prod.snd
  let after := ((es.dropWhile fun e => e.1 != 3).drop 1).flatMap Prod.snd
  let fixed := before.length + after.length
  let num := fun (l : List Passage) from_ => ((List.range l.length).zip l).map fun e => (e.1 + from_, e.2)
  let w := { r.xs with chosen := chosen, anchor := before.length }
  if Blob.u32 d 132 < fixed then
    let r := { r with xs := { w with overrun := true, dropped := num chosen 0 } }
    let ext := leBytes 4 fixed ++ leBytes 4 w.merged.length ++ leBytes 2 w.escs ++ leBytes 1 w.escEnd
    (s.putContext r fixed false).setReq slot (({ r with flags := r.flags ||| (if chosen.isEmpty then 0 else 32) }).endAs 0x21 ext)
  else
    let taken := packLoop b (packFlag d 1) (Blob.u32 d 132 - fixed) 0 0 chosen
    let dropped := num (chosen.drop taken.length) taken.length
    let cut := taken.any (·.cut)
    let ordered := if packFlag d 0 then taken.foldr packInsert [] else taken
    let laid := layPassages b before.length true ordered
    let prompt := before ++ laid.1 ++ after
    let f := (if cut || !dropped.isEmpty then 32 else 0) + (if packFlag d 2 && !ordered.isEmpty then 256 else 0)
    let r := { r with flags := r.flags ||| f, xs := { w with packed := laid.2, dropped := dropped } }
    (s.putContext r prompt.length cut).formPrompt slot r prompt

/-! ## The prefix table (R263 to R269) -/

/-- AGE (R265). -/
def State.ageNow (s : State) : Nat := (s.newel.treads >>> 6) % 2 ^ 19
/-- Whether an entry matches a block by key, partition and parent (R266). -/
def prefMatch (p key parent : Nat) (e : PrefEnt) : Bool := e.key == key && e.part == p && e.parent == parent
def parentOf (ks : List (Nat × List Nat)) (i : Nat) : Nat := if i = 0 then 0 else (ks.getD (i - 1) (0, [])).1

/-- The entry that a block hits: its bucket's line lies in the region of the table (R265, R266). -/
def State.prefHit (s : State) (p : Nat) (ks : List (Nat × List Nat)) (i : Nat) : Option PrefEnt :=
  let k := ks.getD i (0, [])
  if (s.prefRegions k.1).isEmpty then none else s.objs.prefs.find? fun e => prefMatch p k.1 (parentOf ks i) e && e.tokens == k.2

/-- The leading blocks that hit, and whether the first that does not is a collision (R266). -/
def State.prefHits (s : State) (p : Nat) (ks : List (Nat × List Nat)) : Nat × Bool :=
  let n := ((List.range ks.length).takeWhile fun i => (s.prefHit p ks i).isSome).length
  (n, decide (n < ks.length) && let k := ks.getD n (0, []); !(s.prefRegions k.1).isEmpty && s.objs.prefs.any fun e => prefMatch p k.1 (parentOf ks n) e)

/-- An entry's distance from the present recency stamp. -/
def State.ageOf (s : State) (e : PrefEnt) : Nat := (s.ageNow + 2 ^ 19 - e.age) % 2 ^ 19
def State.oldest (s : State) (es : List PrefEnt) : Option PrefEnt :=
  es.foldl (fun b e => match b with | some x => if s.ageOf x < s.ageOf e then some e else b | none => some e) none

/-- Inserts a block with the keys and values of its places (R267): a bucket without room, or a partition without context space, leaves it out and counts the skip. -/
def State.prefInsert (s : State) (ks : List (Nat × List Nat)) (p word : Nat) (rows : List Blob) (i : Nat) : State :=
  let k := ks.getD i (0, [])
  let skip := s.cntPart p 3 1
  if (s.prefRegions k.1).isEmpty then skip else
  if (s.prefHit p ks i).isSome then s else
  let bucket := s.bucketOf k.1
  let free := fun e : PrefEnt => !e.pinned && !s.prefInUse e
  let enabled := ((List.range 16).filter fun q => bitW (s.reg (Reg.partCtrl q)) 0).length
  let share := 2097152 * s.member.alcoves / max 1 enabled
  let rich := fun q => decide (share < (s.objs.prefs.filter fun e => e.part == q).length)
  let victim := match s.oldest (bucket.filter fun e => e.part == p && free e) with
    | some e => some e
    | none => s.oldest (bucket.filter fun e => free e && rich e.part)
  let slot := ((List.range 4).find? fun n => bucket.all fun e => e.slot != n) <|> victim.map (·.slot)
  match slot with
  | none => skip
  | some n =>
    let s := if bucket.length < 4 then s else match victim with | some v => s.prefDrop (· == v) | none => s
    let size := (rows.map List.length).foldl (· + ·) 0 + 4 * k.2.length
    match s.cacheRoom p size with
    | (s, none) => s.cntPart p 3 1
    | (s, some a) =>
      let ent : PrefEnt := { key := k.1, parent := parentOf ks i, part := p, age := s.ageNow, tokens := k.2, word := word, order := s.now, slot := n, at_ := a, size := size, rows := rows }
      ((s.updObjs fun o => { o with prefs := o.prefs ++ [ent] }).prefLine k.1).cntPart p 2 1

/-- Pins or unpins the entries of the anchor's blocks; a partition holds at most 65,536 pinned entries (R268). -/
def State.pinBlock (s : State) (ks : List (Nat × List Nat)) (p i : Nat) (pin : Bool) : State :=
  let k := ks.getD i (0, [])
  let is := fun e : PrefEnt => prefMatch p k.1 (parentOf ks i) e && e.tokens == k.2
  let pinned := (s.objs.prefs.filter fun e => e.part == p && e.pinned).length
  if !s.objs.prefs.any is then s
  else if pin && !s.objs.prefs.any (fun e => is e && e.pinned) && 65536 ≤ pinned then s.cntPart p 4 1
  else s.prefsChange is fun e => some { e with pinned := pin }

/-! ## Rows of prefill (R266, R270, R272, R287) -/

def bridge (n : Nat) : Nat := min 16 n
/-- Rows of a packed passage when a prefix hit covers the first h positions. -/
def passageRows (h : Nat) (kvHit : Bool) (k : Packed) : Nat :=
  let covered := min k.kept (h - k.at_)
  if k.kept ≤ covered then 0
  else
    let canon := if kvHit then 0 else k.kept - covered + min 16 covered
    canon + (bridge k.kept - min (bridge k.kept) covered)

def prefillRows (sparse : Bool) (h promptLen : Nat) (packed : List Packed) (kvHit : Packed → Bool) : Nat :=
  let rows := if !sparse then promptLen - h
    else
      let inP := (packed.map fun k => k.kept - min k.kept (h - k.at_)).foldl (· + ·) 0
      promptLen - h - inP + (packed.map fun k => passageRows h (kvHit k) k).foldl (· + ·) 0
  max 1 rows

/-- What prefill reuses: prefix blocks hit, whether the next collides, and its rows. -/
def State.prefillPlan (s : State) (r : Req) : Nat × Bool × Nat :=
  let g := r.xs.gen
  let ks := if packFlag r.desc 3 then [] else prefixKeys (modelWord r) g.prompt
  let hits := s.prefHits r.part ks
  let rows := prefillRows (packFlag r.desc 2) (64 * hits.1) g.prompt.length r.xs.packed fun k => s.cacheHit r.part true (kvKey r k.p.cand)
  (hits.1, hits.2, rows)

/-- The prefix blocks and cached passages that a prefill reuses; they stay until its step ends (R253, R266, R272). -/
def State.prefillMarks (s : State) (r : Req) : Req :=
  let ks := prefixKeys (modelWord r) r.xs.gen.prompt
  let keys := if !packFlag r.desc 2 then [] else (r.xs.packed.map fun k => kvKey r k.p.cand).filter fun k => s.cacheHit r.part true k
  { r with xs := { r.xs with usePref := (ks.take (s.prefillPlan r).1).map Prod.fst, useKeys := keys.map fun k => (true, k) } }

/-- Counts and refreshes what a prefill reuses (R266, R267, R272). -/
def State.prefillReuse (s : State) (r : Req) (plan : Nat × Bool × Nat) : State :=
  let p := r.part
  let s := if plan.1 = 0 then s else
    (s.prefsChange (fun e => decide (e.part = p) && r.xs.usePref.contains e.key) fun e => some { e with age := s.ageNow, order := s.now }).cntPart p 0 plan.1
  let s := if plan.2.1 then s.cntPart p 1 1 else s
  r.xs.useKeys.foldl (fun s k => (s.cacheTouch p true k.2).cntPart p 5 1) s

/-- The rows of a request's prompt under its mask (R270). -/
def Req.promptRows (r : Req) : Rows := Sys2Proof.Machine.promptRows (if packFlag r.desc 2 then r.xs.packed else []) r.xs.anchor r.xs.gen.prompt

/-- Keys and values that a prefill takes and does not compute: those of the prefix blocks it hit at its release, in the attended form of their places, and those of the passages it hit (R266, R270, R272, R287). -/
def State.prefillGiven (s : State) (r : Req) (row : Row) : Option Blob :=
  let ks := prefixKeys (modelWord r) r.xs.gen.prompt
  let block := row.at_ / 64
  let prefix_ := if block < r.xs.usePref.length then (s.prefHit r.part ks block).bind fun e => e.rows[row.at_ % 64]? else none
  match row.canon with
  | none => prefix_
  | some (k, j) =>
    let key := kvKey r (r.xs.packed.getD k {}).p.cand
    let cached := if r.xs.useKeys.contains (true, key) then (s.cacheGet r.part true key).bind fun e => e.rows[j]? else none
    cached <|> (if j < 16 then none else prefix_)

/-- Keys and values of all rows of a prompt. -/
def State.prefillKv (s : State) (r : Req) : List Blob := (s.net r).run (s.prefillGiven r) r.promptRows.rows
/-- What the last row of a prompt attends to; `forms` are the attended forms of the prompt's places. -/
def State.lastSeen (s : State) (r : Req) (forms : List Blob) : List (List (F32 × F32) × Blob) :=
  let x := r.promptRows
  let last := x.rows.getD (x.forms.getLastD 0) {}
  if last.canon.isNone then (s.net r).before forms (r.xs.gen.prompt.length - 1) else (s.net r).seen ((s.net r).run (fun _ => none) x.rows) last

/-- The end of an undoubted prefill: the keys and values of the prompt's places go to its reservation, blocks and passages are inserted, and pins change (R267, R268, R272, R286). -/
def State.prefillInsert (s : State) (slot : Nat) (r : Req) : State :=
  if r.doubt != 0 then s else
  let p := r.part
  let word := modelWord r
  let x := r.promptRows
  let kvs := s.prefillKv r
  let forms := x.forms.map fun i => kvs.getD i []
  let s := s.setReq slot { r with xs := { r.xs with gen := { r.xs.gen with kvRows := forms } } }
  let ks := if packFlag r.desc 3 then [] else prefixKeys word r.xs.gen.prompt
  let s := (List.range ks.length).foldl (fun s i => s.prefInsert ks p word ((forms.drop (64 * i)).take 64) i) s
  let inAnchor := (List.range ks.length).filter fun i => decide (64 * (i + 1) ≤ r.xs.anchor)
  let s := if packFlag r.desc 4 then inAnchor.foldl (fun s i => s.pinBlock ks p i true) s
    else if packFlag r.desc 5 then inAnchor.foldl (fun s i => s.pinBlock ks p i false) s else s
  if !packFlag r.desc 2 then s else
  ((List.range r.xs.packed.length).filter fun k => !(r.xs.packed.getD k {}).cut).foldl (fun s k =>
    let q := r.xs.packed.getD k {}
    let rows := ((List.range x.rows.length).filter fun i => match (x.rows.getD i {}).canon with | some (k', _) => k' == k | none => false).map fun i => kvs.getD i []
    s.cacheInsert { part := p, kv := true, key := kvKey r q.p.cand, model := r.objId, size := q.kept * s.modelKv r.objId, used := s.now, rows := rows }) s

end Sys2Proof.Machine
end

