-- ==== Sys2Proof/Machine/Generate.lean ====
section
/-! DEFINITION. Generation: logits, sampling, grammar automata, drafts, hand-over, stream records, endings and the completion (10 R285 to R308, 06 R168 to R172). -/

namespace Sys2Proof.Machine

open Sys2Proof

/-! ## Parameters (R281) -/

def gMax (d : Blob) : Nat := Blob.u32 d 176
def gMode (d : Blob) : Nat := Blob.u8 d 185
def gDraft (d : Blob) : Nat := Blob.u8 d 187
def gSeed (d : Blob) : Blob := Blob.slice d 196 8

/-! ## Grammar automata (R300 to R303) -/

def gramSec (m : Model) : Blob := imgSection m.image 10
def gramStart (b : Blob) : Nat := Blob.u32 b 12
def gramState (b : Blob) (q : Nat) : Blob := Blob.slice b (Blob.u32 b 20 + 16 * q) 16
def gramAccepting (b : Blob) (q : Nat) : Bool := bitN (Blob.u32 (gramState b q) 0) 20
/-- A token's bit in the mask of a state (R301). -/
def gramAllowed (b : Blob) (q t : Nat) : Bool :=
  let mask := Blob.u32 (gramState b q) 0 % 2 ^ 20
  let o := Blob.u32 b 28 + Blob.u32 b (Blob.u32 b 24 + 8 * mask)
  let chunks := (Blob.u32 b 4 + 1023) / 1024
  let code := fun c => Blob.u8 b (o + c / 4) >>> (2 * (c % 4)) % 4
  let c := t / 1024
  match code c with
  | 1 => decide (t < Blob.u32 b 4)
  | 2 =>
    let before := ((List.range c).filter fun i => code i == 2).length
    let base := o + (chunks + 15) / 16 * 4 + 128 * before
    bitN (Blob.u8 b (base + t % 1024 / 8)) (t % 8)
  | _ => false
/-- The transition of a token: action, next state, return state. -/
def gramTrans (b : Blob) (q t : Nat) : Option (Nat × Nat × Nat) :=
  let st := gramState b q
  ((List.range (Blob.u32 st 8)).map fun i => Blob.slice b (Blob.u32 b 32 + 16 * (Blob.u32 st 4 + i)) 16).findSome? fun e =>
    if Blob.u32 e 0 % 2 ^ 20 ≤ t && t ≤ Blob.u32 e 4 % 2 ^ 20 then some (bitsN (Blob.u32 e 0) 21 20, Blob.u32 e 8, Blob.u32 e 12) else none

/-- Grammar state and stack. -/
abbrev GPos := Nat × List Nat

/-- The mask of R303: POP needs a stack; EOS is added in an accepting state. -/
def gramMask (b : Blob) (eos : Option Nat) (g : GPos) (t : Nat) : Bool :=
  (gramAllowed b g.1 t && !(g.2.isEmpty && (match gramTrans b g.1 t with | some (2, _, _) => true | _ => false)))
    || (gramAccepting b g.1 && eos == some t)
/-- Taking a token (R302); none is a PUSH at depth 64. -/
def gramTake (b : Blob) (g : GPos) (t : Nat) : Option GPos :=
  match gramTrans b g.1 t with
  | some (0, n, _) => some (n, g.2)
  | some (1, n, ret) => if 64 ≤ g.2.length then none else some (n, ret :: g.2)
  | some (2, _, _) => match g.2 with | q :: st => some (q, st) | [] => some g
  | _ => some g

/-! ## Sampling (R295 to R297) -/

/-- What a request samples with: prompt, keys and values of the places before, what the prompt's last row attends to, vocabulary size, grammar. -/
structure Sampler where
  desc  : Blob := []
  seq   : List Nat := []
  net   : Net := {}
  kv    : List Blob := []
  last  : List (List (F32 × F32) × Blob) := []
  voc   : Nat := 0
  eos   : Option Nat := none
  gram  : Option Blob := none
deriving DecidableEq, Repr, Inhabited

/-- EOS where it may be sampled. -/
def Sampler.eosOf (x : Sampler) : Option Nat := if genFlag x.desc 3 then none else x.eos
/-- Whether a token passes the mask of R295. -/
def Sampler.allowed (x : Sampler) (g : GPos) (t : Nat) : Bool :=
  !(genFlag x.desc 3 && x.eos == some t) && (match x.gram with | some b => gramMask b x.eosOf g t | none => true)

/-- The draw of generated token n (R297). -/
def Sampler.draw (x : Sampler) (n : Nat) : F32 := F.round false (beNat ((sm3 (gSeed x.desc ++ leBytes 4 n ++ zeros 4)).take 3)) (-24)

/-- Best first: key as a similarity, then lower ID. -/
def tokOrd (z : Nat × F32) : Nat := shl (scoreKey true z.2) 20 + z.1
def bestInsert (k : Nat) (z : Nat × F32) (l : List (Nat × F32)) : List (Nat × F32) :=
  (l.takeWhile (fun a => decide (tokOrd a < tokOrd z)) ++ [z] ++ l.dropWhile fun a => decide (tokOrd a < tokOrd z)).take k
def bestOf (k : Nat) (zs : List (Nat × F32)) : List (Nat × F32) := zs.foldl (fun l z => bestInsert k z l) []

/-- Running sums. -/
def prefixSums : F32 → List F32 → List F32
  | _, [] => []
  | c, p :: r => let c' := F.add c p; c' :: prefixSums c' r

/-- What the row of the last token attends to, after the tokens emitted so far. -/
def Sampler.seen (x : Sampler) (out : List Nat) : List (List (F32 × F32) × Blob) :=
  if out.isEmpty then x.last else x.net.before x.kv (x.seq.length + out.length - 1)
/-- The row of the last token is computed: its keys and values join those held (R286, R288). -/
def Sampler.noted (x : Sampler) (out : List Nat) : Sampler :=
  let q := x.seq.length + out.length - 1
  if q < x.kv.length then x else { x with kv := x.kv ++ [x.net.kv ((x.seq ++ out).getLastD 0) q (x.seen out)] }
/-- The logit of a token (R288). -/
def Sampler.logit (x : Sampler) (out : List Nat) (t : Nat) : F32 :=
  Config.rowLogit x.net.image x.net.var ((x.seq ++ out).getLastD 0) (x.seq.length + out.length - 1) (x.seen out) t

/-- Samples generated token n after the tokens emitted so far; none is NO_TOKEN. -/
def Sampler.sample (x : Sampler) (g : GPos) (out : List Nat) : Option Nat :=
  let zs := (List.range x.voc).map fun t =>
    let z := x.logit out t
    (t, if !x.allowed g t || F.isNan z then F.ninf else z)
  if zs.all fun z => z.2 == F.ninf then none
  else if gMode x.desc = 0 then (bestOf 1 zs).head?.map Prod.fst
  else
    let r := F.div F.one (f32At x.desc 188)
    let ws := zs.map fun z => (z.1, F.mul z.2 r)
    let list := match gMode x.desc with
      | 1 => ws
      | 2 => bestOf (Blob.u8 x.desc 186) ws
      | _ => bestOf 1024 ws
    let ps := F.softmax x.net.rev x.net.rilqua F.one (fun _ => false) (list.map Prod.snd)
    let n := if gMode x.desc = 3 then
        (match (List.range ps.length).find? fun i => !F.lt ((prefixSums F.zero ps).getD i 0) (f32At x.desc 192) with | some i => i + 1 | none => ps.length)
      else ps.length
    let cum := prefixSums F.zero (ps.take n)
    let th := F.mul (x.draw out.length) (cum.getLastD 0)
    let pick := ((List.range n).find? fun i => F.lt th (cum.getD i 0)).getD (n - 1)
    (list[pick]?).map Prod.fst

/-- What a step yields: tokens, grammar position, keys and values held, and the ending with its end detail. -/
structure StepOut where
  toks   : List Nat := []
  g      : GPos := (0, [])
  kv     : List Blob := []
  ending : Option (Nat × Nat) := none
deriving DecidableEq, Repr, Inhabited

/-- Whether no token may follow in a state. -/
def Sampler.maskEmpty (x : Sampler) (g : GPos) : Bool := (List.range x.voc).all fun t => !x.allowed g t

/-- Samples along a draft: one token for each position until one differs or ends generation (R299, R303, R307). `limit` is how many tokens may still be emitted. -/
def Sampler.run (x : Sampler) (limit : Nat) : List (Option Nat) → List Nat → GPos → StepOut
  | [], _, g => { g := g, kv := x.kv }
  | want :: rest, out, g =>
    let x := x.noted out
    let here : StepOut := { g := g, kv := x.kv }
    match x.sample g out with
    | none =>
      match x.gram with
      | some b => { here with ending := some (if gramAccepting b g.1 then (0x03, 0) else (0x10, 0)) }
      | none => { here with ending := some (0x01, 1) }
    | some t =>
      let eos := x.eosOf == some t
      let next := match x.gram with | some b => if eos then some g else gramTake b g t | none => some g
      match next with
      | none => { here with ending := some (0x11, 0) }
      | some g' =>
        let final := match x.gram with | some b => gramAccepting b g'.1 && x.maskEmpty g' | none => false
        let took := { here with toks := [t], g := g' }
        if eos then { took with ending := some (0x05, 0) }
        else if final then { took with ending := some (0x03, 0) }
        else if limit ≤ 1 then { took with ending := some (0x04, 0) }
        else if want = some t then
          let o := Sampler.run x (limit - 1) rest (out ++ [t]) g'
          { o with toks := t :: o.toks }
        else took

def State.sampler (s : State) (r : Req) : Sampler :=
  let m := r.generator s
  let v := m.vocab
  { desc := r.desc, seq := r.xs.gen.prompt, net := s.net r, kv := r.xs.gen.kvRows, last := s.lastSeen r r.xs.gen.kvRows, voc := vocSize v,
    eos := if vocEos v = vocNone then none else some (vocEos v),
    gram := if genFlag r.desc 4 then (SMap.find s.objs.grammars (Blob.u32 r.desc 216 % 256)).map gramSec else none }

/-- Tokens that may still be emitted: MAX_TOKENS and the context (R307). -/
def State.tokensLeft (s : State) (r : Req) : Nat :=
  let g := r.xs.gen
  min (gMax r.desc - g.out.length) (imgContext (r.generator s).image - g.prompt.length - g.out.length)

/-! ## Copy-drafts (R298) -/

/-- The tokens that follow the first occurrence of three tokens. -/
def followers (pat : List Nat) : List Nat → Option (List Nat)
  | [] => none
  | x :: r => if (x :: r).take 3 = pat then some ((x :: r).drop 3) else followers pat r

/-- Cuts a draft before its first token that the automaton does not allow. -/
def draftAllowed (x : Sampler) : GPos → List Nat → List Nat
  | _, [] => []
  | g, t :: r =>
    if !x.allowed g t then [] else
    match x.gram with
    | some b => (match gramTake b g t with | some g' => t :: draftAllowed x g' r | none => [])
    | none => t :: draftAllowed x g r

def State.draftOf (s : State) (r : Req) : List Nat :=
  let g := r.xs.gen
  let seq := g.prompt ++ g.out
  if !bitN r.flags 6 || gDraft r.desc = 0 || runsLen (s.part r.part).scratch ≤ s.scratchHeld r.part || r.xs.packed.isEmpty || seq.length < 3 then [] else
  let pat := seq.drop (seq.length - 3)
  match r.xs.packed.findSome? fun k => followers pat (k.p.tokens.take k.kept) with
  | some l =>
    let x := s.sampler r
    let d := l.take (gDraft r.desc)
    if x.gram.isSome then draftAllowed x (g.gState, g.gStack) d else d
  | none => []

/-! ## Releases and reservations (R286, R292) -/

/-- Granules of the key and value reservation (R286). -/
def State.kvGranules (s : State) (r : Req) : Nat :=
  let m := r.generator s
  let n := min (r.xs.gen.prompt.length + gMax r.desc + gDraft r.desc) (imgContext m.image)
  (n * m.kvBytes + granule - 1) / granule

/-- The release of prefill: reuse, reservation, rows (R266, R286, R287). What it reuses is not evicted for its own reservation. The flag says whether the reservation stands. -/
def State.prefillRelease (s : State) (slot : Nat) (r : Req) : State × Bool :=
  let plan := s.prefillPlan r
  let marked := s.prefillMarks r
  let s := (s.setReq slot marked).room r.part (s.kvGranules r)
  match s.alloc r.part (s.kvGranules r) with
  | none => (s.setReq slot r, false)
  | some g =>
    let start : GPos := match (s.sampler r).gram with | some b => (gramStart b, []) | none => (0, [])
    let gen := { r.xs.gen with kvGran := g, rows := plan.2.2, gState := start.1, gStack := start.2 }
    ((s.setReq slot { marked with xs := { marked.xs with gen := gen } }).prefillReuse marked plan, true)

/-- The release of a decode step takes its draft (R298, R299). -/
def State.decodeRelease (s : State) (slot : Nat) (r : Req) : State :=
  s.setReq slot { r with xs := { r.xs with gen := { r.xs.gen with draft := s.draftOf r } } }

/-! ## Hand-over and release (R168, R304 to R306) -/

/-- TEXT records of up to 48 bytes (R306). -/
def textRecords (r : Req) (n : Nat) (b : Blob) : List Blob :=
  let cs := F.chunks 48 b
  ((List.range cs.length).zip cs).map fun c =>
    leBytes 4 r.tag ++ leBytes 1 1 ++ leBytes 1 0 ++ leBytes 2 c.2.length ++ leBytes 4 (r.stream.seq + c.1) ++ leBytes 4 n ++ Blob.slice c.2 0 48

/-- Whole characters that fit into a room. -/
def fitText (room : Nat) (b : Blob) : Blob × Bool :=
  let f := fitChars room (unitOut (utf8Decode (blobPos b)))
  (f.1, f.2.isSome)

/-- Releases bytes for generated token number n: stream records, or the result buffer; the flag says that the buffer filled. -/
def State.release (s : State) (slot n : Nat) (b : Blob) : State × Bool :=
  match s.req? slot with
  | none => (s, false)
  | some r =>
    if b.isEmpty then (s, false)
    else if r.streamRing.isSome then
      let s := s.setReq slot { r with stream := { r.stream with released := r.stream.released + b.length }, sbBytes := r.sbBytes + b.length }
      (s.streamPut slot (textRecords r n b), false)
    else
      let f := fitText (r.resLen - r.sbBytes) b
      let s := if r.suppress then s else s.hostWrite r.fn (r.resAddr + r.sbBytes) f.1 true
      (s.setReq slot { r with stream := { r.stream with released := r.stream.released + f.1.length }, sbBytes := r.sbBytes + f.1.length }, f.2)

/-- Bytes 36 to 63 of the completion (R308). -/
def genExt (r : Req) : Blob :=
  let g := r.xs.gen
  leBytes 4 g.prompt.length ++ leBytes 4 r.xs.merged.length ++ leBytes 2 r.xs.escs ++ leBytes 1 r.xs.escEnd ++ leBytes 1 g.detail
    ++ leBytes 4 g.replaced ++ leBytes 4 (min r.xs.ties 0xFFFFFFFF) ++ leBytes 2 (if genFlag r.desc 4 then g.gStack.length else 0) ++ zeros 2
    ++ leBytes 4 (if genFlag r.desc 4 then g.gState % 2 ^ 20 else 0)

/-- The fields that every ending reports: tokens, completion bytes (R126, R308). -/
def Req.genNote (r : Req) : Req :=
  let g := r.xs.gen
  { r with ended := g.handed, count := g.handed, bytes := r.sbBytes, ext := genExt r, epoch := if useIndex r.desc then r.epoch else g.handed,
           stream := { r.stream with handed := g.handed } }

/-- Hands the next token to the Arcade engine (R168, R304); the flag says that it ended generation there. -/
def State.handOne (s : State) (slot : Nat) : State × Bool :=
  match s.req? slot with
  | none => (s, true)
  | some r =>
    let g := r.xs.gen
    match g.out[g.handed]? with
    | none => (s, false)
    | some t =>
      let tb := tokenBytes (r.generator s).vocab t
      let h := holdToken r.xs.stops r.xs.inclStop { partial_ := g.partial_, held := g.held } (if tb.2 then [] else tb.1)
      let g := { g with handed := g.handed + 1, partial_ := h.1.partial_, held := h.1.held, replaced := g.replaced + h.2.1 }
      let r := { r with xs := { r.xs with gen := g } }
      let p := ((s.setReq slot r).countReplaced slot h.2.1).release slot g.handed h.2.2.1
      let s := p.1
      match s.req? slot with
      | none => (s, true)
      | some r =>
        let g := r.xs.gen
        let cut := fun (st detail : Nat) => { g with out := g.out.take g.handed, stepNew := [], ending := some st, detail := detail }
        if h.2.2.2 then
          ((s.setReq slot { r with xs := { r.xs with gen := { cut 0x02 0 with textEnd := true } } }).satField (Reg.txtStops (slotVest slot)) 31 0 1, true)
        else if p.2 then
          let last := g.handed == g.out.length && (g.ending == some 0x05 || g.ending == some 0x03)
          if last then (s, true) else (s.setReq slot { r with xs := { r.xs with gen := cut 0x04 5 } }, true)
        else (s, false)

/-- Hands over up to n tokens, stopping where generation ends. -/
def State.handOver : Nat → Nat → State → State × Bool
  | 0, _, s => (s, false)
  | n + 1, slot, s =>
    let p := s.handOne slot
    if p.2 then p else State.handOver n slot p.1

/-- The end of generation: what is held is released, and the completion's fields stand (R172, R307, R308). -/
def State.genFinish (s : State) (slot : Nat) : State :=
  match s.req? slot with
  | none => s
  | some r =>
    let g := r.xs.gen
    let e := if g.textEnd then ([], 0) else holdEnd { partial_ := g.partial_, held := g.held }
    let r := { r with xs := { r.xs with gen := { g with replaced := g.replaced + e.2, held := [], partial_ := [] } } }
    let s := (((s.setReq slot r).countReplaced slot e.2).release slot g.handed e.1).1
    s.updReq slot fun r => { r.genNote with ending := some (r.ending.getD (r.xs.gen.ending.getD 0)), stages := [] }

/-- The end of a prefill or decode step (R285, R299, R304, R307). -/
def State.genStepDone (s : State) (slot : Nat) (r : Req) : State :=
  if r.doubt != 0 then s else
  -- the step has read back the keys and values of the tokens before it: they are handed over
  let p := State.handOver r.xs.gen.stepNew.length slot s
  match p.1.req? slot with
  | none => p.1
  | some r =>
    let s := p.1.setReq slot r.genNote
    let r := r.genNote
    if p.2 then s.genFinish slot else
    let g := r.xs.gen
    let x := s.sampler r
    let o := x.run (s.tokensLeft r) (g.draft.map some ++ [none]) g.out (g.gState, g.gStack)
    let accepted := min g.draft.length (o.toks.length - 1)
    -- the granule of the draft rows is freed at the next boundary (R144)
    let s := if g.draft.isEmpty then s else
      ((s.cntPart r.part 6 accepted).cntPart r.part 7 (g.draft.length - accepted)).updPart r.part fun x => { x with freeing := x.freeing + 1 }
    let g := { g with out := g.out ++ o.toks, stepNew := o.toks, draft := [], kvRows := o.kv, gState := o.g.1, gStack := o.g.2,
                      ending := o.ending.map Prod.fst, detail := (o.ending.map Prod.snd).getD 0 }
    let r := { r with xs := { r.xs with gen := g } }
    match o.ending with
    | none => s.setReq slot { r with stages := [.decode] }
    | some _ =>
      if o.toks.isEmpty then (s.setReq slot r).genFinish slot
      else s.setReq slot { r with cur := some .checkPass, phase := .running, stages := [] }

/-- CHECK_PASS_HANDOVER (R304): the last tokens are handed over, unless the request is doubted. -/
def execCheckPassHandover (t slot : Nat) (s : State) : Res :=
  let s := s.advance t
  match s.req? slot with
  | none => .next s
  | some r =>
    if !s.running || r.cur != some .checkPass || !s.procRuns (slotVest slot) then .next s else
    let s := s.setReq slot { r with cur := none, phase := .ready, doneAt := s.now }
    if r.doubt != 0 then .next s
    else .next ((State.handOver r.xs.gen.stepNew.length slot s).1.genFinish slot)

/-- What admission takes from the host's memory: stop strings and the store descriptor (R170, R249); SPEC_USED (R146). -/
def State.admitGenerate (s : State) (slot : Nat) : State :=
  match s.req? slot with
  | none => s
  | some r =>
    let st := (s.stopsOf r.fn r.desc).getD ([], false)
    let store := if useIndex r.desc then s.hostRead r.fn (Blob.u64 r.desc 120) 64 else []
    let s := ((s.setReq slot { r with xs := { r.xs with stops := st.1, inclStop := st.2, store := store } }).admitTokens slot).updReq slot
      fun r => if r.ending.isNone then r.genNote else r
    s.finishUnrun slot

/-- GENERATE (R281 to R284). -/
def execGenerate (t fn ring : Nat) (s : State) : Res := .next (s.descriptor t fn ring 0x03 none State.admitGenerate false)

end Sys2Proof.Machine
end

