-- ==== Sys2Proof/Machine/Models.lean ====
section
/-! DEFINITION. MODEL_LOAD and MODEL_UNLOAD, and the release of what an unload names (10 R275 to R280, 06 R160, 09 R259, 07 R204). -/

namespace Sys2Proof.Machine

open Sys2Proof

/-! ## The checks of MODEL_LOAD (R278) -/

def allZero (b : Blob) (lo hi : Nat) : Bool := Blob.zeroIn b lo hi
def between (lo x hi : Nat) : Bool := decide (lo ≤ x) && decide (x ≤ hi)
/-- CRC-32C of bytes 0–59 and of all bytes from 64 on. -/
def headCrc (b : Blob) : Nat := (crc32c (Blob.slice b 0 60 ++ b.drop 64)).toNat

/-- Check 1: the header (R277). -/
def headerOk (b : Blob) (d : Blob) : Bool :=
  let k := imgKind b
  let e := imgExperts b
  let topk := Blob.u8 b 10
  let tuned := decide (4 ≤ k)
  Blob.u32 b 0 == 0x4C4D444C && between 1 k 6 && Blob.u64 b 32 == Blob.u64 d 72 && headCrc b == imgCrc b
    && Blob.u8 b 5 == 0 && allZero b 44 60 && (if k = 6 then imgLayers b == 0 else between 1 (imgLayers b) 256)
    && (if k = 4 then between 1 e 16 && decide (topk ≤ 8) else decide (e ≤ 256) && (if e = 0 then topk == 0 else between 1 topk 8))
    && decide (Blob.u8 b 11 ≤ 4) && between 256 (imgDim b) 16384 && imgDim b % 32 == 0 && between 512 (imgContext b) 131072
    && (tuned || Blob.u32 b 24 == 0) && decide (Blob.u8 b 28 ≤ 1) && between 1 (Blob.u8 b 29) 64 && between 64 (Blob.u16 b 30) 256 && Blob.u16 b 30 % 32 == 0
    && (if k = 4 || k = 5 then Blob.u32 b 40 / 4096 == 0 else true) && (tuned || Blob.u32 d 84 == 0)

/-- Sections a kind requires (log entry 26). -/
def needSections (b : Blob) : List Nat :=
  match imgKind b with
  | 1 => [0, 4, 7] ++ (if imgExperts b = 0 then [] else [5, 6])
  | 2 => [0, 4, 7]
  | 3 => [0, 4, 7, 8]
  | 4 => [5, 6]
  | 5 => [9]
  | _ => [10]

/-- Check 2: sections. -/
def sectionsOk (b : Blob) : Bool :=
  (List.range 12).all (fun i => let e := imgSec b i; e.2 == 0 || decide (e.1 + e.2 ≤ Blob.u64 b 32)) && (imgSec b 11).2 == 0
    && (needSections b).all fun i => (imgSec b i).2 != 0

/-- Check 4: listed micro-programs and walker programs are committed with the listed CRC (R86, R111). -/
def State.listsOk (s : State) (b : Blob) : Bool :=
  (imgList b 2).all (fun e => match SMap.find s.units.mp.done e.1 with | some p => p.digest == e.2 | none => false)
    && (imgList b 3).all fun e =>
      match s.walker e.1 with | some p => p.walkDigest == e.2 | none => false

/-- Check 3: the 2:4 metadata of every tile (R40). -/
def tilesOk (b : Blob) : Bool := (Config.imageTiles b).all fun t => t.kind.ok && t.kind.groupsOk (Blob.slice b t.off t.kind.imageBytes)

/-- Check 5: the vocabulary (R160). -/
def State.vocabOk (s : State) (b : Blob) : Bool :=
  let v := imgSection b 0
  let size := vocSize v
  let id := fun x => x == vocNone || decide (x < size)
  let others := s.vocabularies.filter (· != v)
  let norm := s.normOf v
  Blob.u32 v 0 == 0x4C564F43 && Blob.u32 v 4 < 2 ^ 21 && between 257 size 1048576 && decide (v.length ≤ 67108864) && decide (vocByteBase v + 256 ≤ size)
    && id (vocBos v) && id (vocEos v) && decide (vocModes v < 128) && decide (bitsN (vocModes v) 6 5 ≤ 1) && allZero v 21 24
    && decide (Blob.u32 v 28 ≤ 4194304) && allZero v 48 60 && headCrc v == vocCrc v && vocCrc v == imgVocabCrc b
    && (vocNoNorm v || (!norm.isEmpty && Blob.u32 norm 8 == Blob.u32 v 24))
    && decide (others.length < 8)
    && (List.range s.member.alcoves).all fun a => decide ((others.map List.length).foldl (· + ·) 0 + v.length ≤ s.trieRoom a)

/-- A template image (R259). -/
def templateOk (t : Blob) : Bool :=
  let n := Blob.u8 t 5
  let pool := Blob.u32 t 12
  let run := fun i => decide (Blob.u16 t (18 + 4 * i) ≤ 64) && decide (Blob.u16 t (16 + 4 * i) + Blob.u16 t (18 + 4 * i) ≤ pool)
  let el := (List.range n).map fun i => Blob.slice t (64 + 8 * i) 8
  let count := fun k => (el.filter fun e => Blob.u8 e 0 == k).length
  Blob.u32 t 0 == 0x4C54504C && between 1 n 32 && between 1 (Blob.u16 t 6) 4096 && decide (pool ≤ 8192) && (List.range 4).all run
    && allZero t 32 60 && headCrc t == Blob.u32 t 60
    && el.all (fun e => Blob.u8 e 1 == 0 && between 1 (Blob.u8 e 0) 5 && allZero e 6 8
        && (if Blob.u8 e 0 = 1 then between 1 (Blob.u16 e 2) 4096 && decide (Blob.u16 e 4 + Blob.u16 e 2 ≤ pool) else true))
    && decide (count 2 ≤ 1) && count 3 == 1 && count 4 == 1 && decide (count 5 ≤ 1)

/-- Check 6: templates fill their section, pass their tests, have different numbers, and no number is that of a different resident template (R259). -/
def State.templatesOk (s : State) (b : Blob) : Bool :=
  let sec := imgSection b 1
  let ts := splitTemplates 257 sec
  let nos := ts.map templateNo
  let resident := s.objs.models.flatMap fun e => if e.2.kind = 1 then e.2.templates else []
  (ts.map templateSize).foldl (· + ·) 0 == sec.length && ts.all templateOk && nos.eraseDups.length == nos.length
    && ts.all fun t => resident.all fun u => templateNo u != templateNo t || u == t

/-! ### Grammar automata (R300, R301) -/

def gramHeaderOk (b : Blob) (voc : Nat) : Bool :=
  let size := Blob.u32 b 56
  Blob.u32 b 0 == 0x4C47524D && Blob.u32 b 4 == voc && between 1 (Blob.u32 b 8) 1048576 && decide (Blob.u32 b 12 < Blob.u32 b 8)
    && between 1 (Blob.u32 b 16) 1048576 && decide (Blob.u32 b 36 ≤ 2 ^ 24) && allZero b 40 56 && size == b.length && decide (size ≤ 268435456)
    && headCrc b == Blob.u32 b 60
    && decide (Blob.u32 b 20 + 16 * Blob.u32 b 8 ≤ size) && decide (Blob.u32 b 24 + 8 * Blob.u32 b 16 ≤ size)
    && decide (Blob.u32 b 28 ≤ size) && decide (Blob.u32 b 32 + 16 * Blob.u32 b 36 ≤ size)

/-- A mask of the directory: its chunk codes are 0 to 2 and its chunks lie within SIZE. -/
def gramMaskOk (b : Blob) (m : Nat) : Bool :=
  let o := Blob.u32 b 28 + Blob.u32 b (Blob.u32 b 24 + 8 * m)
  let chunks := (Blob.u32 b 4 + 1023) / 1024
  let codes := (List.range chunks).map fun c => Blob.u8 b (o + c / 4) >>> (2 * (c % 4)) % 4
  Blob.u32 b (Blob.u32 b 24 + 8 * m + 4) == 0 && codes.all (fun c => c != 3)
    && decide (o + (chunks + 15) / 16 * 4 + 128 * (codes.filter fun c => c == 2).length ≤ Blob.u32 b 56)

/-- The transition records of a state. -/
def gramEdges (b : Blob) (q : Nat) : List Blob :=
  let st := gramState b q
  (List.range (Blob.u32 st 8)).map fun i => Blob.slice b (Blob.u32 b 32 + 16 * (Blob.u32 st 4 + i)) 16
def edgeFirst (e : Blob) : Nat := Blob.u32 e 0 % 2 ^ 20
def edgeLast (e : Blob) : Nat := Blob.u32 e 4 % 2 ^ 20
def edgesSorted : List Blob → Bool
  | a :: c :: r => decide (edgeLast a < edgeFirst c) && edgesSorted (c :: r)
  | _ => true

def gramStateOk (b : Blob) (eos : Nat) (q : Nat) : Bool :=
  let st := gramState b q
  let n := Blob.u32 b 8
  let voc := Blob.u32 b 4
  let es := gramEdges b q
  decide (Blob.u32 st 0 < 2 ^ 21) && Blob.u32 st 12 == 0 && decide (Blob.u32 st 0 % 2 ^ 20 < Blob.u32 b 16)
    && decide (Blob.u32 st 4 + Blob.u32 st 8 ≤ Blob.u32 b 36)
    && es.all (fun e => let a := bitsN (Blob.u32 e 0) 21 20
        a != 3 && decide (edgeFirst e ≤ edgeLast e) && decide (edgeLast e < voc) && (a == 2 || decide (Blob.u32 e 8 < n)) && (a != 1 || decide (Blob.u32 e 12 < n)))
    && edgesSorted es
    && (List.range voc).all (fun t => gramAllowed b q t == es.any fun e => between (edgeFirst e) t (edgeLast e))
    && (eos == vocNone || !gramAllowed b q eos)

/-- Check 10: the grammar section against the vocabulary of its base. -/
def grammarOk (b : Blob) (voc : Blob) : Bool :=
  gramHeaderOk b (vocSize voc) && (List.range (Blob.u32 b 16)).all (gramMaskOk b) && (List.range (Blob.u32 b 8)).all (gramStateOk b (vocEos voc))

/-! ### The order of the checks -/

/-- Resident objects of a kind, with the limit of their numbers (R275). -/
def Objs.ofKind (o : Objs) (k : Nat) : SMap Model × Nat :=
  match k with
  | 4 => (o.sets, 1024) | 5 => (o.steers, 64) | 6 => (o.grammars, 256) | _ => (o.models, 64)

/-- Check 9: the base generator of kinds 4 to 6; LAYERS of a grammar is zero by R277, so it is not compared (DEDUCED, log entry 26). -/
def State.baseOk (s : State) (b : Blob) (baseId mask : Nat) : Bool :=
  match s.modelOf baseId [1] with
  | none => false
  | some m =>
    Blob.u32 b 24 == imgCrc m.image && imgVocabCrc b == imgVocabCrc m.image && m.mask ||| mask == m.mask
      && (imgKind b == 6 || imgLayers b == imgLayers m.image) && imgDim b == imgDim m.image

/-- Granules of an image (R276). -/
def imageGranules (b : Blob) : Nat := (b.length + granule - 1) / granule

/-- The first failed check of R278, 0 when all pass. -/
def State.loadErr (s : State) (b d : Blob) (p : Nat) : Nat :=
  let k := imgKind b
  let mask := Blob.u16 d 80
  let tab := s.objs.ofKind k
  let base := s.modelOf (Blob.u32 d 84) [1]
  if !headerOk b d then 1
  else if !sectionsOk b then 2
  else if !tilesOk b then 3
  else if !s.listsOk b then 4
  else if k ≤ 3 && !s.vocabOk b then 5
  else if k = 1 && !s.templatesOk b then 6
  else if (SMap.firstFree tab.1 tab.2).isNone then 7
  else if let set := s.objSet p mask; ((s.room set (imageGranules b)).alloc set (imageGranules b)).isNone then 8
  else if 4 ≤ k && !s.baseOk b (Blob.u32 d 84) mask then 9
  else if k = 6 && !grammarOk (imgSection b 10) (match base with | some m => m.vocab | none => []) then 10
  else 0

/-! ### Schedules (R113, R280) -/

/-- Numbers of the tiles that pass, in the order of the image. -/
def tilesOf (ts : List TileRec) (is : TileRec → Bool) : List (Nat × TileRec) := ((List.range ts.length).zip ts).filter fun e => is e.2

/-- The stair schedule in a partition (R113): the dense tiles layer by layer, over the partition's landings in turn (log entry 66). -/
def stairOf (b : Blob) (ts : List TileRec) (lands : List Nat) : List StairTile :=
  if lands.isEmpty then [] else
  (List.range (imgLayers b)).flatMap fun l =>
    let own := tilesOf ts fun t => t.layer == l && t.expert.isNone
    ((List.range own.length).zip own).map fun e => { layer := l, tile := e.2.1, land := lands.getD (e.1 % lands.length) 0 }

/-- Experts of a layer: routed and shared ones, or the private ones of a set. -/
def expertsOf (b : Blob) : Nat := imgExperts b + if imgKind b = 4 then 0 else Blob.u8 b 11

/-- The expert placement in a partition (R280): experts take Wings round-robin in the order (layer, expert), each layer going on where the one before ended; an expert's N-tiles lie on the
eight landings of its Wing in ascending slot order. -/
def homesOf (b : Blob) (ts : List TileRec) (wings : List Nat) : List HomeTile :=
  if wings.isEmpty then [] else
  (tilesOf ts fun t => t.expert.isSome).map fun e =>
    let x := e.2.expert.getD 0
    { layer := e.2.layer, expert := x, tile := e.1, land := 8 * wings.getD ((e.2.layer * expertsOf b + x) % wings.length) 0 + e.2.ntile % 8 }

/-- Hall firmware's schedules for every partition of the mask (R278). -/
def State.schedules (s : State) (b : Blob) (m : Model) : Model :=
  let ts := Config.imageTiles b
  let ps := setBitsOf 16 m.mask
  { m with stair := ps.map (fun p => (p, stairOf b ts (s.partLands p))), homes := ps.map fun p => (p, homesOf b ts (setBitsOf 48 (s.regN (Reg.partWings p)))) }

/-- Places an object at the lowest free number of its kind; answers its identifier (R275, R276). A new vocabulary goes to the tries of the Arcade engines (R100). -/
def State.placeObject (s : State) (b d : Blob) (p : Nat) : State × Nat :=
  let k := imgKind b
  let mask := Blob.u16 d 80
  let tab := s.objs.ofKind k
  let n := (SMap.firstFree tab.1 tab.2).getD 0
  let gen := if k ≤ 3 then SMap.at s.objs.modelGen n 0 else if k = 6 then SMap.at s.objs.gramGen n 0 else 0
  let set := s.objSet p mask
  let s := s.room set (imageGranules b)
  let m := s.schedules b { kind := k, image := b, gen := gen, mask := mask, base := if 4 ≤ k then idNum (Blob.u32 d 84) else 0, set_ := set,
                           gran := (s.alloc set (imageGranules b)).getD [] }
  let s := s.updObjs fun o =>
    match k with
    | 4 => { o with sets := SMap.put o.sets n m }
    | 5 => { o with steers := SMap.put o.steers n m }
    | 6 => { o with grammars := SMap.put o.grammars n m }
    | _ => { o with models := SMap.put o.models n m }
  (if k ≤ 3 then s.staticWrite 1 else s, if k = 4 || k = 5 then n else n + shl gen 8)

/-- The end of the [load] step of MODEL_LOAD (R278). -/
def State.loadDone (s : State) (slot : Nat) (r : Req) : State :=
  if r.doubt != 0 then s else
  let d := r.desc
  let b := s.hostRead r.fn (Blob.u64 d 64) (Blob.u64 d 72)
  let e := s.loadErr b d r.part
  if e != 0 then s.setReq slot { r with ending := some 0x21, ext := zeros 4 ++ leBytes 1 e }
  else
    let x := s.placeObject b d r.part
    x.1.setReq slot { r with ending := some 0, count := 1, ext := leBytes 4 x.2 }

/-- MODEL_LOAD (R276). -/
def execModelLoad (t fn ring : Nat) (s : State) : Res := .next (s.descriptor t fn ring 0x30 none (fun s _ => s) false)

/-! ## Unloads (R204, R279) -/

/-- The object that a MODEL_UNLOAD names. -/
def unloadTarget (d : Blob) : Obj :=
  let id := Blob.u32 d 20
  match Blob.u8 d 64 with
  | 0 => .model (idNum id)
  | 1 => .index (id % 8)
  | 2 => .expertSet (Blob.u32 d 68)
  | 3 => .steeringSet (Blob.u32 d 68)
  | _ => .grammar (id % 256)

/-- Objects that requests in flight are unloading. -/
def State.unloads (s : State) : List Obj := (s.reqs.filter fun e => e.2.phase == .unloading && e.2.opc == 0x31).map fun e => unloadTarget e.2.desc

/-- Marks every object that an unload in flight names; an unload that ended early leaves its object usable (log entry 33). -/
def State.markUnloads (s : State) : State :=
  let us := s.unloads
  let mark := fun (f : Nat → Obj) (m : SMap Model) => SMap.mapVals m fun n x => { x with unloading := us.contains (f n) }
  s.updObjs fun o =>
    { o with models := mark .model o.models, sets := mark .expertSet o.sets, steers := mark .steeringSet o.steers, grammars := mark .grammar o.grammars,
             indexes := SMap.mapVals o.indexes fun n x => if x.state = 2 || x.state = 3 then { x with state := if us.contains (.index n) then 3 else 2 } else x }

/-- A MODEL_UNLOAD that has passed its checks waits for the requests that hold its object (R279). -/
def State.beginUnload (s : State) (slot : Nat) : State :=
  match s.req? slot with
  | none => s
  | some r =>
    if r.opc != 0x31 || r.phase != .ready || r.doubt != 0 || r.ending.isSome then s
    -- the object may have gone while the request waited at check 5
    else if s.check3 r.fn r.desc != 0 then s.refuse slot (s.check3 r.fn r.desc)
    else (s.setReq slot { r with phase := .unloading }).markUnloads

def execModelUnload (t fn ring : Nat) (s : State) : Res := .next (s.descriptor t fn ring 0x31 (some (64, 0, 4)) State.beginUnload false)
def execIndexUnload (t fn ring : Nat) (s : State) : Res := .next (s.descriptor t fn ring 0x31 (some (64, 1, 4)) State.beginUnload false)
def execExpertSetUnload (t fn ring : Nat) (s : State) : Res := .next (s.descriptor t fn ring 0x31 (some (64, 2, 4)) State.beginUnload false)
def execSteeringSetUnload (t fn ring : Nat) (s : State) : Res := .next (s.descriptor t fn ring 0x31 (some (64, 3, 4)) State.beginUnload false)
def execGrammarUnload (t fn ring : Nat) (s : State) : Res := .next (s.descriptor t fn ring 0x31 (some (64, 4, 4)) State.beginUnload false)

def bump (g : SMap Nat) (n : Nat) : SMap Nat := SMap.put g n ((SMap.at g n 0 + 1) % 256)

/-- Frees an object; a generator takes what is based on it, and its cache entries (R204, R273, R279). -/
def Objs.release (o : Objs) : Obj → Objs
  | .model n =>
    match SMap.find o.models n with
    | none => o
    | some m =>
      let id := n + shl m.gen 8
      let gone := SMap.keysOf o.grammars fun _ g => g.base == n
      let keep := fun (x : SMap Model) => x.filter fun e => e.2.base != n
      let o := { o with models := SMap.del o.models n, modelGen := bump o.modelGen n }
      if m.kind != 1 then o else
      { o with sets := keep o.sets, steers := keep o.steers, grammars := keep o.grammars, gramGen := gone.foldl bump o.gramGen,
               caches := o.caches.filter fun c => !c.kv || c.model != id }
  | .expertSet n => { o with sets := SMap.del o.sets n }
  | .steeringSet n => { o with steers := SMap.del o.steers n }
  | .grammar n => if (SMap.find o.grammars n).isNone then o else { o with grammars := SMap.del o.grammars n, gramGen := bump o.gramGen n }
  | .index n => { o with indexes := SMap.put o.indexes n { gen := ((SMap.at o.indexes n {}).gen + 1) % 256 } }
  | .table _ => o

/-- What leaves with an object beside it: a generator's prefix entries, pinned or not, and a vocabulary that no model holds any more (R100, R273). -/
def State.releaseObj (s : State) (x : Obj) : State :=
  let q := s.updObjs fun o => o.release x
  match x with
  | .model n =>
    (match SMap.find s.objs.models n with
    | some m => (q.prefDrop fun e => m.kind == 1 && e.word % 2 ^ 32 == n + shl m.gen 8).staticWrite 1
    | none => q)
  | _ => q

/-- OBJECT_RELEASE of a MODEL_UNLOAD: every request that holds the object has posted (R204, R279). -/
def State.releaseUnload (s : State) (slot : Nat) (r : Req) : State :=
  let x := unloadTarget r.desc
  if s.held x then s
  else (((s.releaseObj x).setReq slot { r with ending := some 0 }).finish slot).markUnloads

end Sys2Proof.Machine
end

