-- ==== Sys2Proof/Machine/Tables.lean ====
section
/-! DEFINITION. Embedding tables: creation, gathers, hot rows and replicas, updates, deterministic staging, TABLE_STEP (11_embedding_tables). -/

namespace Sys2Proof.Machine

open Sys2Proof

/-! ## Shape and placement (R312 to R315) -/

def tabNum (id : Nat) : Nat := id % 4096
/-- The table a request's field names; a request in flight holds it. -/
def State.tabAt (s : State) (id : Nat) : Table := (s.table (tabNum id)).getD {}
/-- Bytes of a row without padding. -/
def Table.rowLen (t : Table) : Nat := t.dim * fmtBytes t.fmt
/-- Rows of a table that a module holds (R314). -/
def Table.rowsHeld (t : Table) (m : Nat) : Nat :=
  let ms := setBitsOf 16 t.peers
  let q := (ms.findIdx? (· == m)).getD ms.length
  let st := 2 ^ t.stripe
  let n := (t.nRows + st - 1) / st
  if ms.length ≤ q then 0 else
  let mine := (n + ms.length - 1 - q) / ms.length
  mine * st - (if (n - 1) % ms.length = q then n * st - t.nRows else 0)
/-- The test of one named replica region (R313): a valid DOUBLE region of content 5 in its Alcove die, which serves a die of DIE_MASK (log entry 34). -/
def State.replicaRegionOk (s : State) (t : Table) (a : Nat) : Bool :=
  let k := t.region a
  let w := s.reg (Reg.memPinRegion k)
  k == 0xFF || (decide (k < 32) && bitW w 0 && bitsW w 2 1 == 1 && bitsW w 23 16 == 5 && bitsW w 5 4 == a && (setBitsOf 8 t.dieMask).any fun h => alcoveOf h == a)

/-- The error kind of CREATE, 0 when it passes (R313). -/
def State.createErr (s : State) (id p : Nat) (t : Table) : Nat :=
  let b := t.rec_
  let own := s.gal.moduleId
  let named := (List.range 4).filter fun a => t.region a != 0xFF
  if Blob.u32 b 0 != 0x4C54424C || (crc32c (Blob.slice b 0 60)).toNat != t.crc || Blob.u8 b 7 != 0 || !Blob.zeroIn b 22 24 || !Blob.zeroIn b 36 60
    || !(between 8 t.dim 1024 && t.dim % 8 == 0) || 2 < t.fmt || !between 1 t.nRows 4294967296 || !between 6 t.stripe 20
    || t.dieMask = 0 || 2 ^ s.member.halls ≤ t.dieMask || !bitN t.peers own || 1048576 < t.hotMax then 1
  else if (s.table (tabNum id)).isSome || SMap.at s.objs.tableGen (tabNum id) 0 != id / 4096 % 256 then 2
  else if !named.all (fun a => s.replicaRegionOk t a) then 3
  else if named.any (fun a => decide ((bitsW (s.reg (Reg.memPinRegion (t.region a))) 15 12 + 1) * 67108864 < 2 * t.hotMax * t.rowStride)) then 4
  else if let set := s.objSet p t.parts; ((s.roomDies set (t.dieNeeds s.member own)).allocDies set (t.dieNeeds s.member own)).isNone then 5
  else 0

/-- CREATE, DESTROY and INFO, and the start of an unload, once the checks are passed (R313, R323, R326). -/
def State.beginControl (s : State) (slot : Nat) : State :=
  match s.req? slot with
  | none => s
  | some r =>
    let op := Blob.u8 r.desc 64
    if r.opc = 0x31 then s.beginUnload slot
    else if r.opc != 0x21 || op < 2 || r.phase != .ready || r.doubt != 0 || r.ending.isSome then s
    else if op = 2 then
      let b := s.hostRead r.fn (Blob.u64 r.desc 72) 64
      let t : Table := { rec_ := b, gen := r.objId / 4096 % 256 }
      let e := s.createErr r.objId r.part t
      if e != 0 then s.endWith slot 0x21 (zeros 4 ++ leBytes 1 e)
      else
        let set := s.objSet r.part t.parts
        let needs := t.dieNeeds s.member s.gal.moduleId
        let s := s.roomDies set needs
        let t := { t with set_ := set, gran := (s.allocDies set needs).getD [] }
        (s.updObjs fun o => { o with tables := SMap.put o.tables (tabNum r.objId) t }).endWith slot 0 []
    -- the table may have gone while the request waited at check 5
    else if s.check3 r.fn r.desc != 0 then s.refuse slot (s.check3 r.fn r.desc)
    else if op = 3 then (s.setReq slot { r with phase := .unloading }).updTable (tabNum r.objId) fun t => { t with destroying := true }
    else
      let t := s.tabAt r.objId
      let held := t.rowsHeld s.gal.moduleId
      (s.setReq slot { r with writes := [(r.resAddr, t.rec_ ++ leBytes 8 held ++ leBytes 8 (held * t.rowStride))], bytes := 80, ending := some 0,
                              phase := .balustrade }).finish slot

/-- A DESTROY that ended before the release of its table leaves it usable (log entry 33). -/
def State.markDestroys (s : State) : State :=
  let named := (s.reqs.filter fun e => e.2.phase == .unloading && e.2.opc == 0x21).map fun e => tabNum e.2.objId
  s.updObjs fun o => { o with tables := SMap.mapVals o.tables fun n t => { t with destroying := named.contains n } }

/-- OBJECT_RELEASE (R204, R279, R313). -/
def execObjectRelease (t slot : Nat) (s : State) : Res :=
  let s := s.advance t
  match s.req? slot with
  | none => .next s
  | some r =>
    if !s.running || r.phase != .unloading then .next s
    else if r.opc = 0x31 then .next (s.releaseUnload slot r)
    else
      let n := tabNum r.objId
      if s.held (.table n) then .next s
      else .next ((s.updObjs fun o =>
        { o with tables := SMap.del o.tables n, tableGen := bump o.tableGen n,
                 hotCnt := SMap.mapVals o.hotCnt fun _ es => es.filter fun e => e.table != n }).endWith slot 0 [])

/-! ## Gathers (R316 to R319) -/

/-- The index list and the bags of TABLE_GATHER and TABLE_STEP: positions of each bag with their rows. -/
def State.indexList (s : State) (r : Req) : List Nat :=
  let b := s.hostRead r.fn (Blob.u64 r.desc 64) (4 * Blob.u32 r.desc 72)
  (List.range (Blob.u32 r.desc 72)).map fun i => Blob.u32 b (4 * i)
def State.bagList (s : State) (r : Req) : List (List (Nat × Nat)) :=
  let ix := s.indexList r
  let n := Blob.u32 r.desc 76
  let off := (List.range n).map fun b => leNat (s.hostRead r.fn (Blob.u64 r.desc 80 + 4 * b) 4)
  let pos := (List.range ix.length).zip ix
  (List.range n).map fun b => (pos.take (off.getD (b + 1) ix.length)).drop (off.getD b 0)

/-- How a read of a peer's row names it: rows are addressed by table number and row and not through exports (R399), so these values stand above
every 64-bit T3 address; they carry the CRC of the create record, by which modules match their shards (R313; log entry 34). -/
def rowAddr (m num crc row : Nat) : Nat := 2 ^ 96 + crc <<< 64 + m <<< 60 + num <<< 44 + row
/-- Rows of peers that a gather reads: owner, address, length. -/
def State.remoteRows (s : State) (r : Req) : List (Nat × Nat × Nat) :=
  let t := s.tabAt r.objId
  (((s.indexList r).filter fun x => decide (x < t.nRows) && t.owner x != s.gal.moduleId).map fun x =>
    (t.owner x, rowAddr (t.owner x) (tabNum r.objId) t.crc x, t.rowLen)).eraseDups

/-- The read-ahead of the list that the next gather may use (R318): the lines of its local rows go to the Alcove cache ways of the partition; they change no value. -/
def State.nextList (s : State) (r : Req) : State :=
  let n := if r.opc = 0x20 then Blob.u32 r.desc 92 else 0
  let b := s.hostRead r.fn (Blob.u64 r.desc 96) (4 * n)
  let t := s.tabAt r.objId
  let l := ((s.partLands r.part).head?).getD 0
  (List.range n).foldl (fun s i =>
    let row := Blob.u32 b (4 * i)
    match if row < t.nRows && t.owner row = s.gal.moduleId then t.rowAt s.member row else none with
    | some a => (List.range ((t.rowStride + 127) / 128)).foldl (fun s j => s.prefetch r.part l (runAddr t.gran a + 128 * j)) s
    | none => s) s

/-- The release of a gather: T3 reads of peers' rows, the replicas it reads, and the read-ahead of the next list (R99, R318, R321). -/
def State.gatherRelease (s : State) (slot : Nat) (r : Req) : State :=
  let s := s.nextList r
  let far := s.remoteRows r
  let ms := (far.map Prod.fst).eraseDups
  let r := { r with xs := { r.xs with tab := { r.xs.tab with repl := (s.tabAt r.objId).repl } } }
  if ms.any fun m => (s.peer m).state != 2 then (s.setReq slot r).peerEnd slot s.flt.seq
  else
    let s := s.setReq slot { r with needs := (r.needs ++ ms).eraseDups, xs := { r.xs with t3Sent := far.map Prod.snd } }
    far.foldl (fun s e => s.send (.gal e.1 0 (.t3Read e.2.1 e.2.2 slot))) s

/-- Whether every read of a gather has been answered. -/
def gatherReady (r : Req) : Bool := r.xs.t3Sent.all fun e => r.xs.t3Got.any fun g => g.1 == e.1

/-- The value of a row that a gather reads: a replica as at its release, the stored row, or a peer's answer. -/
def State.rowValue (s : State) (r : Req) (t : Table) (row : Nat) : List F32 :=
  let m := t.owner row
  if m != s.gal.moduleId then
    match r.xs.t3Got.find? fun g => g.1 == rowAddr m (tabNum r.objId) t.crc row with
    | some g => decodeElems t.fmt t.dim g.2
    | none => []
  else match SMap.find r.xs.tab.repl row with
    | some b => decodeElems t.fmt t.dim b
    | none => t.row row

def zeroRow (n : Nat) : List F32 := List.replicate n F.zero
def addRows (a b : List F32) : List F32 := List.zipWith F.add a b
/-- fl(1 / n). -/
def recipN (n : Nat) : F32 := F.recipNat n

/-- A bag's output (R317): sum in ascending position; the mean is the sum times fl(1 / n). -/
def poolRows (dim pool : Nat) (rows : List (List F32)) : List F32 :=
  match rows with
  | [] => zeroRow dim
  | x :: xs =>
    let sum := xs.foldl addRows x
    if pool = 2 then sum.map fun v => F.mul v (recipN rows.length) else sum

/-- The output rows of a gather. -/
def State.gatherRows (s : State) (r : Req) : List (List F32) :=
  let t := s.tabAt r.objId
  let ok := fun row => decide (row < t.nRows)
  if Blob.u32 r.desc 76 = 0 then (s.indexList r).map fun row => if ok row then s.rowValue r t row else zeroRow t.dim
  else (s.bagList r).map fun b => poolRows t.dim (Blob.u8 r.desc 88) ((b.filter fun e => ok e.2).map fun e => s.rowValue r t e.2)

/-- Rows that a gather reads from replicas (R319). -/
def State.replicaReads (s : State) (r : Req) : Nat :=
  let t := s.tabAt r.objId
  ((s.indexList r).filter fun row => decide (row < t.nRows) && t.owner row == s.gal.moduleId && (SMap.find r.xs.tab.repl row).isSome).length

/-- Out-of-range indices and the position of the first (R319). -/
def State.outOfRange (s : State) (r : Req) : Nat × Nat :=
  let t := s.tabAt r.objId
  let ix := s.indexList r
  ((ix.filter fun x => decide (t.nRows ≤ x)).length, (ix.findIdx? fun x => decide (t.nRows ≤ x)).getD 0xFFFFFFFF)

/-! ### Hot rows (R320, R321) -/

/-- The entry with the lowest count, the first of equals (log entry 34). -/
def lowestHot (es : List HotEnt) : Option HotEnt :=
  es.foldl (fun (b : Option HotEnt) e => match b with | some x => if e.count < x.count then some e else b | none => some e) none

/-- Counts one read of a row in the entries of a die. -/
def hotCount (es : List HotEnt) (num row : Nat) : List HotEnt :=
  if es.any fun e => e.table == num && e.row == row then es.map fun e => if e.table = num ∧ e.row = row then { e with count := e.count + 1 } else e
  else if es.length < 16384 then es ++ [{ table := num, row := row, count := 1 }]
  else match lowestHot es with
    | some v => es.map fun e => if e = v then { table := num, row := row, count := v.count + 1 } else e
    | none => es

/-- Counts the local reads of a gather. -/
def State.countHot (s : State) (num : Nat) (rows : List Nat) : State :=
  let t := s.tabAt num
  if t.hotAt = 0 then s else
  rows.foldl (fun s row =>
    if t.nRows ≤ row || t.owner row != s.gal.moduleId then s else
    let h := t.die s.member row
    s.updObjs fun o => { o with hotCnt := SMap.put o.hotCnt h (hotCount (SMap.at o.hotCnt h []) num row) }) s

/-- At a boundary, rows whose entry reached the threshold become hot, and counts return to 0. -/
def State.hotBoundary (s : State) : State :=
  let es := s.objs.hotCnt.flatMap Prod.snd
  let s := es.foldl (fun s e =>
    if (s.tabAt e.table).hotAt ≤ e.count then s.updTable e.table fun t => { t with hot := SMap.put t.hot e.row (s.newel.treads, e.count) } else s) s
  s.updObjs fun o => { o with hotCnt := [] }

/-- Whether an update step of a table runs (R321). -/
def State.updating (s : State) (num : Nat) : Bool := s.reqs.any fun e => e.2.cur == some .update && tabNum e.2.objId == num

/-- Insertion by falling last count, then rising row. -/
def hotInsert (x : Nat × Nat) : List (Nat × Nat) → List (Nat × Nat)
  | [] => [x]
  | y :: r => if y.2 < x.2 || (y.2 = x.2 && x.1 < y.1) then x :: y :: r else y :: hotInsert x r

/-- The replicated set a rebuild takes: rows hot within 256 Treads, highest last count first, at most HOT_MAX. -/
def Table.hotSet (t : Table) (now : Nat) : SMap Blob :=
  let live := (t.hot.filter fun e => decide (now - e.2.1 ≤ 256)).map fun e => (e.1, e.2.2)
  ((live.foldl (fun l e => hotInsert e l) []).take t.hotMax).foldl (fun m e => SMap.put m e.1 (encodeElems t.fmt (t.row e.1))) []

/-- The valid replica regions of a table (R312, R313). -/
def State.replicaRegions (s : State) (t : Table) : List Nat :=
  ((List.range 4).filter fun a => t.region a != 0xFF && s.replicaRegionOk t a).map t.region
def State.replicated (s : State) (t : Table) : Bool := !(s.replicaRegions t).isEmpty

/-- A gather that was released before the last flip of a table still reads the old half (R99). -/
def State.oldReader (s : State) (num : Nat) (t : Table) : Bool :=
  s.reqs.any fun e => e.2.cur == some .gather && e.2.phase == .running && tabNum e.2.objId == num && decide (e.2.relAt < t.flipAt)

/-- HOT_ROW_REBUILD by the firmware of a Hall die, for the tables whose lowest die it is; at most once in 64 Treads, and not while an update step of the table runs (log entry 34). -/
def execHotRowRebuild (t die : Nat) (s : State) : Res :=
  let s := s.advance t
  if !s.running || !s.procRuns (8 + die) then .next s else
  let n := s.newel.treads
  .next (s.updObjs fun o => { o with tables := SMap.mapVals o.tables fun num x =>
    let due := (x.rebuilt.map fun k => decide (64 ≤ n - k)).getD true
    let named := s.replicated x
    if x.hotAt != 0 && (setBitsOf 8 x.dieMask).head? == some die && due && named && !s.updating num
    then { x with replNext := some (x.hotSet n), rebuilt := some n } else x })

/-- The rows that a table's replicas hold after its next flip, where that differs from what they hold and the flip may take place: no update step of the table runs, and no step still reads the half
that would be written (R99, R321; log entry 34). -/
def State.flipRows (s : State) (num : Nat) (t : Table) : Option (SMap Blob) :=
  let rows := if s.replicated t then (t.replNext.getD t.repl).map fun e => (e.1, encodeElems t.fmt (t.row e.1)) else []
  if s.updating num || s.oldReader num t || rows == t.repl then none else some rows

/-- Firmware copies a table's rows into the inactive halves, source copies first, and flips the regions (R99, R101, R321). -/
def State.flipTable (s : State) (num : Nat) (rows : SMap Blob) : State :=
  let t := s.tabAt num
  let image := rows.flatMap fun r => Blob.slice r.2 0 t.rowStride
  let s := (s.replicaRegions t).foldl (fun s k => (s.regionWrite k (s.idleHalf k) image).flipHalf k) s
  s.updTable num fun x => { x with repl := rows, replNext := none, flipAt := s.now }

/-- Action 4 of a boundary: rebuilt sets flip in, and the replicas of tables without a running update step are refreshed (R321, R326). -/
def State.flipReplicas (s : State) : State :=
  (SMap.keysOf s.objs.tables fun _ _ => true).foldl (fun s num => match s.flipRows num (s.tabAt num) with | some rows => s.flipTable num rows | none => s) s

/-- The end of a gather phase (R317, R319, R331). -/
def State.gatherDone (s : State) (slot : Nat) (r : Req) : State :=
  let d := r.desc
  let rows := s.gatherRows r
  let out := rows.flatMap (encodeElems (if r.opc = 0x20 then Blob.u8 d 89 else Blob.u8 d 90))
  let bad := s.outOfRange r
  let s := s.countHot (tabNum r.objId) (s.indexList r)
  let ms := (r.xs.t3Sent.map fun e => bitsN e.1 63 60).eraseDups
  let r : Req := { r with writes := [(r.resAddr, out)], bytes := out.length, count := rows.length,
                           needs := r.needs.filter fun m => !ms.contains m, xs := { r.xs with t3Sent := [], t3Got := [] } }
  let r : Req := if r.opc = 0x20 then { r with ending := some (if bad.1 = 0 then 0 else 1), ext := leBytes 4 bad.1 ++ leBytes 4 bad.2 } else r
  s.setReq slot r

/-! ## Updates (R322 to R331) -/

/-- Values as they enter the array beside Q's format (R331). -/
def asFormat (fmt : Nat) (xs : List F32) : List F32 := decodeElems fmt xs.length (encodeElems fmt xs)

/-- Gradients by bag: h_b = g_b, or the transposed product with Q (R331). -/
def State.gradients (s : State) (r : Req) : List (List F32) :=
  let d := r.desc
  let g := Blob.u32 d 104
  let raw := (List.range (Blob.u32 d 76)).map fun b => decodeElems 0 g (s.hostRead r.fn (Blob.u64 d 96 + 4 * g * b) (4 * g))
  if !bitN (Blob.u8 d 89) 3 then raw else
  let q := s.tabAt (Blob.u32 d 108)
  let rows := (List.range g).map q.row
  raw.map fun x => (List.range q.dim).map fun e =>
    Tile.dot32 (if q.fmt = 1 then Tile.bfOutput else Tile.output) (rows.map fun w => w.getD e 0) (asFormat q.fmt x)

def State.gradientDone (s : State) (slot : Nat) (r : Req) : State :=
  s.setReq slot { r with xs := { r.xs with tab := { r.xs.tab with grad := s.gradients r } } }

def Req.deterministic (r : Req) : Bool := if r.opc = 0x21 then bitN (Blob.u8 r.desc 65) 0 else bitN (Blob.u8 r.desc 89) 2

/-- The deltas of a TABLE_ADD: records in order, those out of range left out (R323). -/
def State.recordDeltas (s : State) (r : Req) : List Delta :=
  let d := r.desc
  let t := s.tabAt r.objId
  let stride := Blob.u32 d 84
  (List.range (Blob.u32 d 80)).filterMap fun i =>
    let b := s.hostRead r.fn (Blob.u64 d 72 + stride * i) stride
    let row := Blob.u32 b 0
    if t.nRows ≤ row then none
    else if Blob.u8 d 64 = 0 then some { key := i, row := row, vals := decodeElems 0 t.dim (b.drop 8) }
    else some { key := i, row := row, raw := some (Blob.slice b 8 t.rowLen) }

/-- The deltas of a TABLE_STEP by list position (R331). -/
def State.stepDeltas (s : State) (r : Req) : List Delta :=
  let d := r.desc
  let t := s.tabAt r.objId
  let lr := F.neg (f32At d 92)
  let bags := s.bagList r
  (List.zip bags r.xs.tab.grad).flatMap fun e =>
    let ok := e.1.filter fun x => decide (x.2 < t.nRows)
    let c := if Blob.u8 d 88 = 2 then F.mul lr (recipN ok.length) else lr
    ok.map fun x => { key := x.1, row := x.2, vals := e.2.map fun h => F.mul c h }

/-- A message of an update step to the owner of rows. -/
def State.toOwner (s : State) (slot : Nat) (r : Req) (m row : Nat) (w : RowWork) : State :=
  s.send (.gal m 0 (.table { tag := slot, table := r.objId, crc := (s.tabAt r.objId).crc, row := row, work := w }))
/-- Asks the next peer for its staging buffers (R329). -/
def State.askStaging (s : State) (slot : Nat) (r : Req) : State :=
  match r.xs.tab.acquire with
  | m :: _ => s.toOwner slot r m 0 .acquire
  | [] => s
/-- The peers that own rows of a step. -/
def State.stepPeers (s : State) (r : Req) : List Nat :=
  let t := s.tabAt r.objId
  (List.range 16).filter fun m => m != s.gal.moduleId && r.xs.tab.deltas.any fun x => t.owner x.row == m

/-- Staging granules of a deterministic step (R328). -/
def State.stageGranules (s : State) (r : Req) : Nat :=
  let n := if r.opc = 0x21 then Blob.u32 r.desc 80 else Blob.u32 r.desc 72
  if r.deterministic then (n * (8 + 4 * (s.tabAt r.objId).dim) + granule - 1) / granule else 0

/-- Whether an update step may be released: peers present, and for a deterministic one its turn and its granules, for which the caches give up theirs (R328, R329).
A deterministic step that changes rows of peers asks for their staging buffers, in ascending module ID. The answer is the state, with the request ended where it cannot run, and whether it is released. -/
def State.updateRelease (s : State) (slot : Nat) (r : Req) : State × Bool :=
  let need := s.stageGranules r
  let turn := s.objs.stageBy.isNone && s.reqs.all fun e => e.1 == slot || e.2.cur != some .update || !e.2.deterministic
  if r.deterministic && s.setGranules r.part < need then (s.setReq slot { r with ending := some 0x21, stages := [] }, false)
  else if r.deterministic && !turn then (s, false)
  else
    let s' := if need = 0 then s else s.room r.part need
    match s'.alloc r.part need with
    | none => (s', false)
    | some gran =>
      let t := s.tabAt r.objId
      let ds := if r.opc = 0x21 then s.recordDeltas r else s.stepDeltas r
      let bad := if r.opc = 0x21 then (Blob.u32 r.desc 80 - ds.length, 0) else s.outOfRange r
      let owners := (ds.map fun x => t.owner x.row).eraseDups
      let ms := (List.range 16).filter fun m => m != s.gal.moduleId && owners.contains m
      let r := { r with needs := (r.needs ++ ms).eraseDups,
                        xs := { r.xs with tab := { r.xs.tab with deltas := ds, outRange := bad.1, firstOut := bad.2, gran := gran, acquire := if r.deterministic then ms else [] } } }
      let s := s'.setReq slot r
      if ms.any fun m => (s.peer m).state != 2 then (s.peerEnd slot s.flt.seq, false)
      else if r.deterministic then (s.askStaging slot r, true) else (s, true)

/-- Adds a delta to a stored row, element by element (R322, R325). -/
def Table.addDelta (t : Table) (row : Nat) (ds : List F32) : Table := t.setRow row (addRows (t.row row) ds)
def Table.putRaw (t : Table) (row : Nat) (b : Blob) : Table := { t with rows := SMap.put t.rows row b }

/-- Distinct rows that a die has staged for a step. -/
def stagedRows (m : Member) (t : Table) (own h : Nat) (ds : List Delta) : List Nat :=
  ((ds.filter fun x => x.done && !x.direct && t.owner x.row == own && t.die m x.row == h).map (·.row)).eraseDups

/-- TABLE_ADD_APPLY (R322, R323, R327): delta or record k of an update step reaches its owner. Records of a WRITE to one row apply in record order. -/
def execTableAddApply (t slot k : Nat) (s : State) : Res :=
  let s := s.advance t
  match s.req? slot with
  | none => .next s
  | some r =>
    let w := r.xs.tab
    match w.deltas[k]? with
    | none => .next s
    | some x =>
      let tab := s.tabAt r.objId
      let num := tabNum r.objId
      let own := s.gal.moduleId
      let put := fun (s : State) (y : Delta) => s.setReq slot { r with xs := { r.xs with tab := { w with deltas := w.deltas.set k y } } }
      let early := x.raw.isSome && (w.deltas.take k).any fun y => y.row == x.row && !y.done && !y.sent
      if !s.running || r.cur != some .update || r.doubt != 0 || r.ending.isSome || x.done || x.sent || early || !w.acquire.isEmpty then .next s
      else if tab.owner x.row != own then
        let msg := match x.raw with | some b => RowWork.write b | none => if r.deterministic then .stage x.key x.vals else .add x.vals
        .next ((put s { x with sent := true }).toOwner slot r (tab.owner x.row) x.row msg)
      else match x.raw with
        | some b => .next ((put s { x with done := true }).updTable num fun q => q.putRaw x.row b)
        | none =>
          let staged := stagedRows s.member tab own (tab.die s.member x.row) w.deltas
          if r.deterministic && (staged.contains x.row || staged.length < 1048576) then .next (put s { x with done := true })
          else .next ((put s { x with done := true, direct := r.deterministic }).updTable num fun q => q.addDelta x.row x.vals)

/-- Adds staged deltas to their rows, each row once with one conversion at the end; the deltas of a row stand in source-key order (R327). -/
def Table.applyDeltas (t : Table) (ds : List Delta) : Table :=
  ((ds.map (·.row)).eraseDups).foldl (fun q row => q.setRow row (((ds.filter fun x => x.row == row).map (·.vals)).foldl addRows (q.row row))) t

/-- Applies the staged deltas of a step here, and has the other owners apply theirs (R327, R329). -/
def State.applyStaged (s : State) (slot : Nat) (r : Req) : State :=
  let w := r.xs.tab
  let num := tabNum r.objId
  let own := s.gal.moduleId
  let tab := s.tabAt r.objId
  let s := s.updTable num fun q => q.applyDeltas (w.deltas.filter fun x => x.done && !x.direct && tab.owner x.row == own)
  let ms := s.stepPeers r
  let s := s.setReq slot { r with xs := { r.xs with tab := { w with applied := true, applying := ms } } }
  ms.foldl (fun s m => s.toOwner slot r m 0 .apply) s

def stagingEnded (r : Req) : Bool := r.deterministic && r.xs.tab.deltas.all (·.done) && !r.xs.tab.applied
/-- STAGED_ROWS_APPLY (R327). -/
def execStagedRowsApply (t slot : Nat) (s : State) : Res :=
  let s := s.advance t
  match s.req? slot with
  | none => .next s
  | some r => .next (if s.running && r.cur = some .update && r.doubt = 0 && stagingEnded r then s.applyStaged slot r else s)

/-- Whether an update step's work has ended: every delta acknowledged, and staged rows applied (R326). -/
def updateReady (r : Req) : Bool := r.xs.tab.deltas.all (·.done) && (!r.deterministic || (r.xs.tab.applied && r.xs.tab.applying.isEmpty))

/-- The end of an update step: its completion waits for action 4 of a boundary (R326, R331). -/
def State.updateDone (s : State) (slot : Nat) (r : Req) : State :=
  let w := r.xs.tab
  let distinct := (w.deltas.map (·.row)).eraseDups.length
  let overrun := ((w.deltas.filter (·.direct)).map (·.row)).eraseDups.length
  let status := if w.outRange = 0 then 0 else 1
  let fl := r.flags ||| (if overrun = 0 then 0 else 2 ^ 13)
  let r : Req := { r with needs := [], flags := fl, ending := some status, phase := .ready, xs := { r.xs with tab := { w with issued := true, gran := [] } } }
  s.setReq slot (if Req.opc r = 0x21 then { r with count := w.deltas.length, bytes := 0, ext := leBytes 4 w.outRange ++ leBytes 4 distinct ++ leBytes 4 overrun }
    else { r with count := Blob.u32 r.desc 76, ext := leBytes 4 w.outRange ++ leBytes 4 w.firstOut ++ leBytes 4 distinct ++ leBytes 4 overrun })

/-- A cancelled or expired deterministic step whose staging has ended applies all of it; one whose staging has not ended, or that is doubted, applies nothing, and the peers' staging buffers are given up (R329, R332). -/
def State.settleStaged (s : State) (slot : Nat) : State :=
  match s.req? slot with
  | some r =>
    if r.xs.tab.issued || r.xs.tab.deltas.isEmpty || !r.deterministic || r.xs.tab.applied then s
    else if r.ending.isSome && r.doubt = 0 && !r.peerLost && stagingEnded r then s.applyStaged slot r
    else (s.stepPeers r).foldl (fun s m => s.toOwner slot r m 0 .discard) s
  | none => s

/-- The replica of a row differs from the row. -/
def Table.stale (t : Table) (row : Nat) : Bool :=
  match SMap.find t.repl row with
  | some b => b != encodeElems t.fmt (t.row row)
  | none => false

/-- The completions of update steps at action 4 (R326): a touched row that is replicated waits while another update step of its table runs, or while an old reader keeps the refreshed half from flipping in. -/
def State.postUpdates (s : State) : State :=
  let ends := SMap.keysOf s.reqs fun _ r => r.xs.tab.issued && r.phase == .ready && r.cur.isNone && r.doubt == 0 && !r.peerLost
  ends.foldl (fun s slot =>
    match s.req? slot with
    | none => s
    | some r =>
      let t := s.tabAt r.objId
      let copied := r.xs.tab.deltas.any fun x => (SMap.find t.repl x.row).isSome
      if (copied && s.updating (tabNum r.objId)) || r.xs.tab.deltas.any (fun x => t.stale x.row) then s else s.finish slot) s.flipReplicas

/-- Gives the staging buffers to the next peer's step that waits for them, where no step holds them (R329). -/
def State.grantStaging (s : State) : State :=
  if s.objs.stageBy.isSome || (s.reqs.any fun e => e.2.cur == some .update && e.2.deterministic) then s else
  match s.objs.stageWait with
  | [] => s
  | e :: rest => (s.updObjs fun o => { o with stageBy := some e, stageWait := rest, staged := [] }).send (.gal e.1 1 (.stageAck e.2))

/-- Places a delta among staged ones by its source key. -/
def stageInsert (x : Delta) : List Delta → List Delta
  | [] => [x]
  | y :: r => if x.key < y.key then x :: y :: r else y :: stageInsert x r

/-- What a peer's update step asks of a table of this module (R322, R323, R327 to R329). -/
def State.ownerWork (s : State) (peer : Nat) (msg : RemoteAdd) (x : Table) : State :=
  let num := tabNum msg.table
  let holds := s.objs.stageBy == some (peer, msg.tag)
  let ack := fun (s : State) (d : Bool) => s.send (.gal peer 1 (.addAck msg.tag 1 d))
  match msg.work with
  | .add ds => ack (s.updTable num fun q => q.addDelta msg.row ds) false
  | .write b => ack (s.updTable num fun q => q.putRaw msg.row (Blob.slice b 0 x.rowLen)) false
  | .acquire => (s.updObjs fun o => { o with stageWait := o.stageWait ++ [(peer, msg.tag)] }).grantStaging
  | .stage key ds =>
    if !holds then s else
    let rows := stagedRows s.member x s.gal.moduleId (x.die s.member msg.row) s.objs.staged
    if rows.contains msg.row || rows.length < 1048576
    then ack (s.updObjs fun o => { o with staged := stageInsert { key := key, row := msg.row, vals := ds, done := true } o.staged }) false
    else ack (s.updTable num fun q => q.addDelta msg.row ds) true
  | .apply =>
    if !holds then s else
    (((s.updTable num fun q => q.applyDeltas s.objs.staged).updObjs fun o => { o with stageBy := none, staged := [] }).send (.gal peer 1 (.stageAck msg.tag))).grantStaging
  | .discard =>
    (s.updObjs fun o => { o with stageWait := o.stageWait.filter (· != (peer, msg.tag)), stageBy := if holds then none else o.stageBy,
                                 staged := if holds then [] else o.staged }).grantStaging

/-- Whether a message names a row: an add, a written row, a delta to stage. -/
def ofRow : RowWork → Bool
  | .add _ => true
  | .write _ => true
  | .stage _ _ => true
  | _ => false

/-- REMOTE_TABLE_ADD (R322, R313): done at the owning controller and acknowledged; a shard with another create record refuses it. -/
def execRemoteTableAdd (t peer : Nat) (msg : RemoteAdd) (s : State) : Res :=
  let s := s.advance t
  if !s.running || (s.peer peer).state != 2 then .next s else
  let s := (s.updPeer peer fun x => { x with lastFlit := s.now }).rouse
  match s.table (tabNum msg.table) with
  | some x =>
    if x.crc = msg.crc && (!ofRow msg.work || (decide (msg.row < x.nRows) && x.owner msg.row == s.gal.moduleId)) && !x.destroying
    then .next (s.ownerWork peer msg x)
    else .next (s.send (.gal peer 1 (.subStatus msg.tag true 0)))
  | none => .next (s.send (.gal peer 1 (.subStatus msg.tag true 0)))

/-- The bytes of a row that a peer reads from its owner, none where there is no such row here. -/
def State.rowRead (s : State) (addr len : Nat) : Option Blob :=
  let row := bitsN addr 43 0
  match s.table (bitsN addr 59 44) with
  | some x =>
    if x.crc = bitsN addr 95 64 && bitsN addr 63 60 = s.gal.moduleId && row < x.nRows && x.owner row = s.gal.moduleId && !x.destroying
    then some (Blob.slice (encodeElems x.fmt (x.read row)) 0 len) else none
  | none => none

/-- The T2 bytes of a T3 address in an export open to a peer, none where R399 refuses the read. -/
def State.exportRead (s : State) (peer addr len : Nat) : Option Blob :=
  let m := bitsN addr 63 60
  let e := bitsN addr 59 56
  let off := bitsN addr 55 0
  let b := s.reg (Reg.galExportBase e)
  let c := s.reg (Reg.galExportCfg e)
  if m = s.gal.moduleId && bitW b 0 && bitW c (32 + peer) && decide (off + len ≤ bitsW c 18 0 * 2097152)
  then some (s.t2 (shl (bitsW b 47 21) 21 + off) len) else none

/-- T3_READ: served from an export, or a table row by its number, or answered as refused (R313, R399). A read wakes a Dormant module (R473). -/
def execT3Read (t peer addr len tag : Nat) (s : State) : Res :=
  let s := s.advance t
  if !s.running || (s.peer peer).state != 2 then .next s else
  let s := (s.updPeer peer fun x => { x with lastFlit := s.now }).rouse
  if addr < 2 ^ 64 then .next (s.send (.gal peer 1 (.t3Data tag (s.exportRead peer addr len))))
  else
    let out := s.rowRead addr len
    let s := if out.isSome then s.countHot (bitsN addr 59 44) [bitsN addr 43 0] else s
    .next (s.send (.gal peer 1 (match out with | some b => .t3Data tag (some b) | none => .subStatus tag true 0)))

/-! ## The rows of chapter 11 -/

def execTableGather (t fn ring : Nat) (s : State) : Res := .next (s.descriptor t fn ring 0x20 none (fun s _ => s) false)
def execTableAdd (t fn ring : Nat) (s : State) : Res := .next (s.descriptor t fn ring 0x21 (some (64, 0, 4)) (fun s _ => s) false)
def execTableWrite (t fn ring : Nat) (s : State) : Res := .next (s.descriptor t fn ring 0x21 (some (64, 1, 4)) (fun s _ => s) false)
def execTableCreate (t fn ring : Nat) (s : State) : Res := .next (s.descriptor t fn ring 0x21 (some (64, 2, 4)) State.beginControl false)
def execTableDestroy (t fn ring : Nat) (s : State) : Res := .next (s.descriptor t fn ring 0x21 (some (64, 3, 4)) State.beginControl false)
def execTableInfo (t fn ring : Nat) (s : State) : Res := .next (s.descriptor t fn ring 0x21 (some (64, 4, 4)) State.beginControl false)
def execTableStep (t fn ring : Nat) (s : State) : Res := .next (s.descriptor t fn ring 0x22 none (fun s _ => s) false)

end Sys2Proof.Machine
end

