-- ==== Sys2Proof/Machine/Tenants.lean ====
section
/-! DEFINITION. The PART_ and TEN_ registers: tests of a write, pending values, and what a boundary applies; tenant balances (05 R147 to R149, 10 R292 to R294, 13 R376 to R380). -/

namespace Sys2Proof.Machine

open Sys2Proof

/-! ## PART_ registers (R147, R148) -/

/-- Admitted and not completed requests of a partition (PART_STATE.IN_FLIGHT). -/
def State.inFlight (s : State) (p : Nat) : Nat := (s.reqs.filter fun e => e.2.part == p).length

/-- Wings of the member, as a mask. -/
def wingMask (m : Member) : Nat := 2 ^ m.wings - 1

/-- The PART_STATUS bit a write sets when it is refused, compared with the values in force (R148, R547). -/
def State.partRefused (s : State) (off : Nat) (v : Word) : Option Nat :=
  let p := off / 0x100 % 16
  let old := s.reg (Reg.partCtrl p)
  let bad := fun (c : Bool) (b : Nat) => if c then some b else none
  let k := off % 0x100
  if k = 0x00 then bad (bitW old 0 && (bitW v 1 != bitW old 1 || (!bitW v 0 && s.inFlight p != 0))) 1
  else if k = 0x08 then
    if bitW old 0 then some 1
    else bad ((v.toNat &&& wingMask s.member) != v.toNat || (List.range 16).any fun q => q != p && (s.regN (Reg.partWings q) &&& v.toNat) != 0) 0
  else if k = 0x20 then bad (decide (bitsW v 39 20 ≤ bitsW v 19 0) || decide (bitsW v 59 40 ≤ bitsW v 39 20)) 2
  else if k = 0x28 then bad (bitsW v 9 0 == 0) 2
  else if k = 0x30 then bad (bitsW v 7 4 == 0 || decide (8 < bitsW v 7 4)) 2
  else if k = 0x38 then bad (decide (32768 < bitsW v 15 0)) 2
  else none

/-- Offsets of the PART_ groups that an accepted write changes. -/
def partOff (off : Nat) : Bool :=
  decide (0x11000 ≤ off) && decide (off < 0x12000) && [0x00, 0x08, 0x18, 0x20, 0x28, 0x30, 0x38, 0x48].contains (off % 0x100)

/-- PART_REGISTER_WRITE (R148): held pending, or refused with a status bit. -/
def execPartRegisterWrite (t fn off : Nat) (value : Word) (s : State) : Res :=
  let s := s.advance t
  let spec := off % 0x100 == 0x30
  if !s.rwlOk fn Reg.partLock || !partOff off then .next s else
  let s := s.wakeDormant
  match regAt off with
  | none => .next s
  | some (row, _) =>
    let v := value &&& BitVec.ofNat 64 row.mask
    if spec && !s.member.speculates then .next s
    else match s.partRefused off value with
      | some b => .next (s.orReg Reg.partStatus b)
      | none => .next (s.stage off v)

/-- Applies a pending PART_ value: tested again, dropped with its status bit where it fails (R547); a Wing of a mask that takes effect wakes (R471). -/
def State.applyPart (s : State) (off : Nat) (v : Word) : State :=
  match s.partRefused off v with
  | some b => s.orReg Reg.partStatus b
  | none =>
    let s := s.setReg off v
    let k := off % 0x100
    if k = 0x08 then
      s.updPower fun p => { p with wingWake := (p.wingWake ++ p.wings.filter fun w => bitW v w).eraseDups }
    else s

/-! ## Speculation scratch (R141, R142, R144) -/

/-- A boundary frees discarded scratch and fits the scratch of a partition to PART_SPEC.SCRATCH, within what its private set has (log entry 36). -/
def State.scratchFit (s : State) (p : Nat) : State :=
  let s := if (s.part p).freeing = 0 then s else s.updPart p fun x => { x with freeing := 0 }
  let w := s.reg (Reg.partSpec p)
  let want := if s.member.speculates && bitW (s.reg (Reg.partCtrl p)) 0 && bitW w 0 then bitsW w 23 8 else 0
  let old := (s.part p).scratch
  if want = runsLen old then s
  else if want < runsLen old then s.updPart p fun x => { x with scratch := takeRuns (max want (s.scratchHeld p)) old }
  else
    let n := min (want - runsLen old) (s.contextGranules p)
    if n = 0 then s else
    let s := s.room p n
    match s.alloc p n with
    | some g => s.updPart p fun x => { x with scratch := old ++ g }
    | none => s
def State.scratchFits (s : State) : State := (List.range 16).foldl State.scratchFit s

/-! ## TEN_ registers (R376 to R380) -/

/-- Keys of pending tenant settings, which no offset tells apart. -/
def tenKey (t k : Nat) : Nat := 0x1000000 + 16 * t + k

/-- The TEN_STATUS bits a binding, configuration or rate is refused with, 0 where it is accepted (R376, R379). -/
def State.tenRefused (s : State) (off : Nat) (v : Word) : Nat :=
  if 0x22000 ≤ off then
    let f := (off - 0x22000) / 8
    b2n (decide (bitsW v 59 48 < bitsW v 43 32)) + 2 * b2n (f == s.ownerPort)
      + 4 * b2n (decide (s.member.ports ≤ fnPort f) || decide (s.pfCount (fnPort f) ≤ fnPf f))
  else if off = Reg.tenRate then
    let rate := bitsW v 31 0
    let burst := bitsW v 63 32
    b2n (decide (burst < rate) || burst == 0 || decide (2 ^ 31 ≤ burst))
  else 0

/-- Sets the bits of TEN_STATUS that a refused write raises. -/
def State.tenStatus (s : State) (bits : Nat) : State := s.setReg Reg.tenStatus (s.reg Reg.tenStatus ||| BitVec.ofNat 64 bits)

/-- TEN_REGISTER_WRITE (R376, R378, R379). -/
def execTenRegisterWrite (t fn off : Nat) (value : Word) (s : State) : Res :=
  let s := s.advance t
  let ok := off == Reg.tenCfg || off == Reg.tenRate || (decide (0x22000 ≤ off) && decide (off < 0x24000) && off % 8 == 0)
  if !s.rwlOk fn Reg.tenLock || !ok then .next s else
  let s := s.wakeDormant
  let tn := bitsW (s.reg Reg.tenSel) 11 0
  match s.tenRefused off value with
  | b + 1 => .next (s.tenStatus (b + 1))
  | 0 =>
    if 0x22000 ≤ off then .next (s.stage off (value &&& 0x0FFF0FFFFFFF0001))
    else if off = Reg.tenCfg then .next (s.stage (tenKey tn 8) (value &&& 0xFFFF0003))
    else .next (s.stage (tenKey tn 0) value)

/-- TEN_REFILL (R378). -/
def execTenRefill (t fn : Nat) (value : Word) (s : State) : Res :=
  let s := s.advance t
  .next (if s.reach fn && s.isOwner fn && bitW value 0
    then s.wakeDormant.updTenant (bitsW (s.reg Reg.tenSel) 11 0) fun x => { x with refill := true } else s)

/-- Applies a pending tenant setting; a tenant that becomes enabled starts with OWN = BURST (R380). -/
def State.applyTen (s : State) (key : Nat) (v : Word) : State :=
  let t := (key - 0x1000000) / 16
  if key % 16 = 0 then s.updTenant t fun x => { x with rate := v }
  else s.updTenant t fun x =>
    if bitW v 0 && !bitW x.cfg 0 then { x with cfg := v, own := bitsW x.rate 63 32, surplus := 0, charged := 0 } else { x with cfg := v }

def State.applyBind (s : State) (off : Nat) (v : Word) : State :=
  match s.tenRefused off v with
  | b + 1 => s.tenStatus (b + 1)
  | 0 => { s with binds := SMap.put s.binds ((off - 0x22000) / 8) v }

/-- Applies every other pending register: way masks and pins (R97, R98), compatibility modes (R89). Pins are tested again (R547), and a pinned way is emptied of cache lines. -/
def State.applyPlain (s : State) (off : Nat) (v : Word) : State :=
  let a := (off - Reg.memAlcPin 0) / 4
  if Reg.memAlcPin 0 ≤ off && off < Reg.memAlcPin 4 then
    if s.pinRefused a v.toNat then s.orReg Reg.memStatus 0 else (s.setReg off v).alcEmpty a (v.toNat % 65536)
  else s.setReg off v

/-- Pending register values at action 4 (R125, R547). Wing masks go before the enables, so that a mask and an enable of one Tread agree (log entry 35). Of two pending masks that overlap, that of the lower
partition is applied and the other dropped; a lock that was set after an accepted write does not drop its pending value (DESIGN CHOICE, log entry 61). -/
def State.applyStaged4 (s : State) : State :=
  let st := s.staged
  let s := { s with staged := [] }
  let wings := st.filter fun e => partOff e.1 && e.1 % 0x100 == 0x08
  let rest := st.filter fun e => !(partOff e.1 && e.1 % 0x100 == 0x08)
  (wings ++ rest).foldl (fun s e =>
    if partOff e.1 then s.applyPart e.1 e.2
    else if 0x1000000 ≤ e.1 then s.applyTen e.1 e.2
    else if 0x22000 ≤ e.1 && e.1 < 0x24000 then s.applyBind e.1 e.2
    else s.applyPlain e.1 e.2) s

/-! ## Budgets (R292 to R294) -/

def Tenant.rateN (x : Tenant) : Nat := bitsW x.rate 31 0
def Tenant.burst (x : Tenant) : Nat := bitsW x.rate 63 32
def Tenant.on (x : Tenant) : Bool := bitW x.cfg 0

/-- A tenant's own refill and the part of it that is cut (R293). -/
def Tenant.refillOne (x : Tenant) : Tenant × Nat :=
  if x.refill then ({ x with own := x.burst, refill := false }, 0)
  else
    let v := x.own + x.rateN
    ({ x with own := min (x.burst : Int) v }, (v - x.burst).toNat)

/-- A request of the tenant is admitted and not completed, or waits at check 5. -/
def State.eligible (s : State) (t : Nat) : Bool := s.reqs.any fun e => e.2.peer.isNone && e.2.tenant == t

/-- Action 3 of a boundary (R293); a disabled tenant takes no part (R380). -/
def State.refill (s : State) : State :=
  let on := s.tenants.filter fun e => e.2.on
  let pool := (on.map fun e => e.2.refillOne.2).foldl (· + ·) 0
  let sum := ((on.filter fun e => s.eligible e.1).map fun e => e.2.rateN).foldl (· + ·) 0
  { s with tenants := SMap.mapVals s.tenants fun t x =>
      if x.on then { x.refillOne.1 with surplus := if s.eligible t && sum != 0 then pool * x.rateN / sum else 0 } else x }

/-- Deducts a charge: own first, then surplus, the rest from own, which saturates at −2^31 (R294). -/
def Tenant.charge (x : Tenant) (c : Nat) : Tenant :=
  let a := min c x.own.toNat
  let b := min (c - a) x.surplus
  { x with own := max (-2147483648) (x.own - (c - b : Nat)), surplus := x.surplus - b, charged := satAdd 64 x.charged c }

end Sys2Proof.Machine
end

