-- ==== Sys2Proof/Machine/Deques.lean ====
section
/-! DEFINITION. Deques, homes, decode batches and stealing (02 R61 to R63, 05 R128 to R130, R142). -/

namespace Sys2Proof.Machine

open Sys2Proof

/-! ## Deques (R128 to R130) -/

/-- Places a released task on the deque of its home, or in the backlog of its partition (R128). A decode task joins the tokens queued against its shard (R61). -/
def State.place (s : State) (x : Task) : State :=
  match x.shard with
  | some n => s.updLand x.home fun l => { l with batch := SMap.put l.batch n (SMap.at l.batch n [] ++ [x]) }
  | none => s.enqueue x.home x

/-- Moves the tokens queued against a shard, draft rows among them (R63), to the deque of the landing: its tiles load (R61). -/
def State.loadShard (s : State) (l n : Nat) : State :=
  let x := s.land l
  let ts := SMap.at x.batch n []
  let s := (s.setLand l { x with batch := SMap.del x.batch n }).countLand l 0x17 1 false Stage.decode.kind
  (ts.map fun t => { t with shard := none }).foldl State.place (s.countLand l 0x18 ts.length false Stage.decode.kind)

/-- DECODE_BATCH_THRESHOLD (R61, R62). -/
def execDecodeBatchThreshold (t landing shard : Nat) (s : State) : Res :=
  let s := s.advance t
  match s.landPart landing with
  | none => .next s
  | some p =>
    let n := (SMap.at (s.land landing).batch shard []).length
    .next (if s.running && n != 0 && decide (bitsW (s.reg (Reg.partDecodeBatch p)) 9 0 ≤ n) then s.loadShard landing shard else s)

/-- The levels of a deque by number, 4 the speculative one. -/
def Landing.level (l : Landing) (i : Nat) : List Task :=
  match i with | 0 => l.lev0 | 1 => l.lev1 | 2 => l.lev2 | 3 => l.lev3 | _ => l.spec
def Landing.setLevel (l : Landing) (i : Nat) (ts : List Task) : Landing :=
  match i with | 0 => { l with lev0 := ts } | 1 => { l with lev1 := ts } | 2 => { l with lev2 := ts } | 3 => { l with lev3 := ts } | _ => { l with spec := ts }
/-- The most urgent non-empty non-speculative level. -/
def Landing.urgent (l : Landing) : Option Nat := (List.range 4).find? fun i => !(l.level i).isEmpty

/-- Victims of a thief in visiting order, within the scope that the partition allows (R130). Only landings that a physical landing serves are victims. -/
def State.victims (s : State) (l p : Nat) : List Nat :=
  let scope := bitsW (s.reg (Reg.partSteal p)) 1 0
  let h := landDie l
  let w := landWing l % 6
  let wing := (List.range 7).map fun i => landWing l * 8 + (l % 8 + 1 + i) % 8
  let ofDie := fun (h first n : Nat) => (List.range n).flatMap fun i => (List.range 8).map fun k => 48 * h + 8 * ((w + first + i) % 6) + k
  let dies := ((List.range s.member.halls).filter (· != h)).foldl (fun a x => insertByDist (s.ringDist h) x a) []
  let all := (if 1 ≤ scope then wing else []) ++ (if 2 ≤ scope then ofDie h 1 5 else [])
    ++ (if 3 ≤ scope then dies.flatMap fun g => ofDie g 1 6 else [])
  let mine := s.partLands p
  all.filter fun v => mine.contains v && (s.land v).phys.isSome

/-- Whether a speculative task may start: the share of landings and the scratch (R142); the draft rows of a step have had theirs since its release (log entry 36). -/
def State.specRoom (s : State) (p : Nat) (x : Task) : Bool :=
  let ls := s.partLands p
  let busy := ls.filter fun l => (s.land l).running.any (·.task.spec)
  decide ((busy.length + 1) * 8 ≤ bitsW (s.reg (Reg.partSpec p)) 7 4 * ls.length) && (x.pair.isNone || decide (s.scratchHeld p < runsLen (s.part p).scratch))

/-- The task a landing takes (R129): landing, level, task. -/
def State.pickTask (s : State) (l p : Nat) : Option (Nat × Nat × Task) :=
  let own := s.land l
  let vs := s.victims l p
  let ownTask := own.urgent.bind fun i => (own.level i).getLast?.map fun t => (l, i, t)
  let steal := vs.findSome? fun v => let y := s.land v; y.urgent.bind fun i => (y.level i).head?.map fun t => (v, i, t)
  let spec := (l :: vs).findSome? fun v => (s.land v).spec.head?.bind fun t => if s.specRoom p t then some (v, 4, t) else none
  ownTask <|> steal <|> spec

/-- Feeds the backlog of a partition to a landing's deque in release order as entries free (R128); it pauses while the die's processor does not run (R428). -/
def State.feed (p l : Nat) : Nat → State → State
  | 0, s => s
  | n + 1, s =>
    match (s.part p).backlog.find? fun t => t.home == l || (s.orphan t.home && (s.heirs p t.home).contains l) with
    | none => s
    | some t =>
      if 256 ≤ (s.land l).queued || (s.land l).phys.isNone || !s.procRuns (8 + landDie l) then s
      else State.feed p l n ((s.updPart p fun q => { q with backlog := q.backlog.erase t }).updLand l fun y => y.push t)

/-- Where a task was stolen from (R130): the event of its scope. -/
def stealEvent (l v : Nat) : Nat := if landWing l = landWing v then 0x11 else if landDie l = landDie v then 0x12 else 0x13

/-- A landing that takes a task revokes its loans: reads already issued against them still complete from its store, later ones go to their T2 source (R106). -/
def Landing.revoke (y : Landing) : Landing := { y with draining := y.draining ++ y.loans, loans := [], lender := false }

/-- TASK_TAKE (R129, R130, R106). A landing of a failed die, of a gated Wing or of no enabled partition takes none (R149, R429, R471). The entry that frees is fed from the backlog. -/
def execTaskTake (t landing : Nat) (s : State) : Res :=
  let s := s.advance t
  match s.landPart landing with
  | none => .next s
  | some p =>
    let l := s.land landing
    if !s.running || s.power.dormant || l.phys.isNone || !l.running.isEmpty || s.power.wings.contains (landWing landing)
      || (s.proc (8 + landDie landing)).state == 3 || s.member.landings ≤ landing then .next s else
    let s := State.feed p landing 256 s
    match s.pickTask landing p with
    | none => .next (s.countLand landing 0x14 1 false 16)
    | some (v, i, x) =>
      let s := State.feed p v 1 (s.updLand v fun y => y.setLevel i ((y.level i).erase x))
      let s := (s.countLand landing 0x10 1 x.spec x.stage.kind).countLand landing (if v = landing then 0 else stealEvent landing v) 1 x.spec x.stage.kind
      let s := if x.spec then s.countLand landing 0x16 1 true x.stage.kind else s
      .next (s.updLand landing fun y => { y.revoke with running := y.running ++ [{ task := x, start := s.now }], gated := false, gatedFor := 0 })

/-- The homes that the boundary's operand gives, or else the landings of the partition in turn (log entry 36). A home without a landing gives way to those that stand in for it in turn (R444); where none of the
partition is in service the task waits in the backlog (R28, R128). -/
def State.pickHome (s : State) (p i : Nat) (homes : List Nat) : Nat × List Nat :=
  let all := s.partLands p
  let up := all.filter fun l => (s.land l).phys.isSome
  let ls := if up.isEmpty then all else up
  match homes with
  | h :: rest =>
    let hs := s.heirs p h
    (if !all.contains h then ls.getD (i % ls.length) 0 else if s.orphan h && !hs.isEmpty then hs.getD (i % hs.length) 0 else h, rest)
  | [] => (ls.getD (i % ls.length) 0, [])

end Sys2Proof.Machine
end

