-- ==== Sys2Proof/Machine/Landing.lean ====
section
/-! DEFINITION. What the units of a landing do for a task: landing store and tiers, Riser array, vector and special-function units, Usher, stair schedule and expert prefetch, loans (02 R32 to R57, 03 R65 to R78, 04 R93 to R115). -/

namespace Sys2Proof.Machine

open Sys2Proof

/-! ## The landing store (R32, R55) -/

/-- Bytes of a landing store. -/
def storeBytes : Nat := 4194304
def State.t0 (s : State) (l a n : Nat) : Blob := Memory.readN (s.land l).store a n
/-- FP32 values of a landing store. -/
def State.t0F (s : State) (l a n : Nat) : List F32 := (List.range n).map fun i => BitVec.ofNat 32 (leNat (s.t0 l (a + 4 * i) 4))

/-- Residues of written elements: half-byte place from the first byte, residue (R55). -/
def fmtResidues (f : Fmt) (d : Blob) : List (Nat × Nat) :=
  match f with
  | .none | .f32 => []
  | .bf16 => (List.range (d.length / 2)).map fun i => (4 * i, Tile.residue .bf16 (Tile.bf16 (Blob.u16 d (2 * i))))
  | .e4m3 => (List.range d.length).map fun i => (2 * i, Tile.residue .fp8 (Tile.e4m3 (Blob.u8 d i)))
  | .e5m2 => (List.range d.length).map fun i => (2 * i, Tile.residue .fp8 (Tile.e5m2 (Blob.u8 d i)))
  | .int8 => (List.range d.length).map fun i => (2 * i, Tile.residue .int8 (Tile.int8 (Blob.u8 d i)))
  | .mx => (List.range (2 * d.length)).map fun i => (i, Tile.residue .mxfp4 (Tile.e2m1 (Tile.nibbleAt d (i / 2) i)))

/-- Bytes written into a landing store, with the residues of their elements beside them (R55); what lies beyond the store is not written. -/
def Landing.put (y : Landing) (a : Nat) (d : Blob) (f : Fmt) : Landing :=
  let d := d.take (storeBytes - a)
  let old := y.resid.filter fun e => decide (e.1 < 2 * a) || decide (2 * (a + d.length) ≤ e.1)
  { y with store := Memory.writeN y.store a d, resid := (fmtResidues f d).foldl (fun m e => SMap.put m (2 * a + e.1) e.2) old }
def State.t0Put (s : State) (l a : Nat) (d : Blob) (f : Fmt) : State := s.updLand l fun y => y.put a d f
def State.t0PutF (s : State) (l a : Nat) (xs : List F32) : State := s.t0Put l a (xs.flatMap fun x => leBytes 4 x.toNat) .f32

/-! ## Tiers (R93 to R95, R105, R106) -/

/-- The partition that a task runs in, and its step's kind for the landing events (R124, R507). -/
def State.countTask (s : State) (l : Nat) (x : Task) (event n : Nat) : State := s.countLand l event n x.spec x.stage.kind

/-- A read of the 64-byte line at a T2 address through the Alcove (R96, R97), counted as a hit or a miss. -/
def State.lineRead (s : State) (l : Nat) (x : Task) (a : Nat) : Blob × State :=
  let p := s.taskPart x
  let line := a / 128 * 128
  let die := alcoveOf (dieOfAddr s.member line)
  let hit := ((s.alcSet (alcKey die line)).find (s.alcMask p die) line).isSome
  let r := s.alcRead p line (s.t2 line 128)
  (Blob.slice r.1 (a / 64 % 2 * 64) 64, r.2.countTask l x (if hit then 0x25 else 0x26) 1)

/-- A read of device memory line by line. -/
def State.hbmRead (s : State) (l : Nat) (x : Task) (a n : Nat) : Blob × State :=
  let lines := if n = 0 then 0 else (a + n - 1) / 64 + 1 - a / 64
  let r := (List.range lines).foldl (fun (b : Blob × State) i => let q := b.2.lineRead l x ((a / 64 + i) * 64); (b.1 ++ q.1, q.2)) (([], s) : Blob × State)
  (Blob.slice r.1 (a % 64) n, r.2)

/-- The loan of a lender that a borrower reads at a T2 address: both lie in one partition, within the lender's Wing, or within its Hall die where MEM_LEND.SCOPE is 1 (R105). A loan that was revoked
serves only reads issued before (R106). -/
def State.loanAt (s : State) (l lender : Nat) (issued : Bool) (a n : Nat) : Option Nat :=
  let near := if bitW (s.reg Reg.memLend) 1 then landDie l == landDie lender else landWing l == landWing lender
  let y := s.land lender
  if !near || (s.landPart l).isNone || s.landPart l != s.landPart lender then none
  else ((y.loans ++ if issued then y.draining else []).find? fun k => decide (k.src ≤ a) && decide (a + n ≤ k.src + k.len)).map fun k => k.at_ + (a - k.src)

/-- Bytes of a tier, as a task on landing l reads them (R93). -/
def State.tierRead (s : State) (l : Nat) (x : Task) (tier : Tier) (a n : Nat) : Blob × State :=
  let lines := if n = 0 then 0 else (a + n - 1) / 64 + 1 - a / 64
  match tier with
  | .own => (s.t0 l a n, s)
  | .pinned region => (s.regionRead region a n, s.countTask l x 0x25 lines)
  | .hbm => s.hbmRead l x a n
  | .lent lender issued =>
    (match s.loanAt l lender issued a n with
    | some at_ => (s.t0 lender at_ n, s.countTask l x 0x27 lines)
    | none => s.hbmRead l x a n)
  | .peer =>
    (match (s.req? x.slot).bind fun r => r.xs.t3Got.find? fun g => decide (g.1 ≤ a) && decide (a + n ≤ g.1 + g.2.length) with
    | some g => (Blob.slice g.2 (a - g.1) n, s.countTask l x 0x27 lines)
    | none => ((List.range n).map fun i => Config.unmappedByte (a + i), s))
  | .host => (s.hostRead ((s.req? x.slot).map (·.fn) |>.getD 0) a n, s.countTask l x 0x28 lines)

/-- A step that breaks a rule of its own fails, and its request completes with DESCRIPTOR_INVALID. -/
def State.stepFails (s : State) (x : Task) : State := s.endReq x.slot 0x21

/-- Whether a granule address lies in a partition's scratch (R141). -/
def State.inScratch (s : State) (p a n : Nat) : Bool :=
  (s.part p).scratch.any fun g => decide (g.1 * granule ≤ a) && decide (a + n ≤ (g.1 + g.2) * granule)

/-- Bytes that a task writes to a tier: the landing store and the HBM take them; a write to a tier that no step writes fails the step (R94). A speculative task writes its own store and the scratch alone (R141). -/
def State.tierWrite (s : State) (l : Nat) (x : Task) (tier : Tier) (a : Nat) (d : Blob) : State :=
  match tier with
  | .own => s.t0Put l a d .none
  | .hbm => if x.spec && !s.inScratch (s.taskPart x) a d.length then s else s.devWrite a d
  | _ => s.stepFails x

/-! ## Faults of a task (R57, R116, R391, R399) -/

/-- Doubts the request of a task with a record that names it. -/
def State.taskDoubt (s : State) (x : Task) (causes : Nat) (rec : Rec) : State :=
  let id := stepIdOf x.slot x.stage x.seq
  let record := s.flt.seq
  match s.req? x.slot with
  | some r => (s.emit (rec.ofReq r id)).doubt x.slot causes id record
  | none => s

/-- A residue mismatch on physical landing k serving l (R57, R441). -/
def State.residueFault (s : State) (l k : Nat) (x : Task) (detail causes : Nat) (counts : Bool) : State :=
  let n := (s.inWindow (s.phys k).residues).length + b2n counts
  (s.taskDoubt x causes { kind := 0x01, sev := 1, site := k / 64, unit := k % 64, landing := l, count := n, detail := detail }).countResidue k counts

/-- The pinned regions whose T2 source holds a device address. -/
def State.regionsAt (s : State) (a : Nat) : List Nat :=
  (List.range 32).filter fun i =>
    let w := s.reg (Reg.memPinRegion i)
    bitW w 0 && decide (regionSrc w ≤ a) && decide (a < regionSrc w + regionBytes w)

/-- An uncorrectable error on a read of a task (R116, R441, R447). An error in the session SRAM doubts every request bound to the context, and lies on the Vestibule that admitted it (R14, R17); of a pinned region or
HBM the record names the reading landing's Hall die (DESIGN CHOICE, log entry 64). Firmware reloads a pinned region from its source (R101), whose device address `addr` is then. -/
def State.eccFault (s : State) (l k : Nat) (x : Task) (store addr detail causes : Nat) (counts : Bool) : State :=
  let record := s.flt.seq
  let id := stepIdOf x.slot x.stage x.seq
  let mates := if store != 3 then [] else
    match (s.req? x.slot).bind (·.session) with
    | some i => SMap.keysOf s.reqs fun n r => n != x.slot && r.session == some i
    | none => []
  let site := if store = 3 then 8 + slotVest x.slot % 4 else k / 64
  let s := s.satField (Reg.memEccCount (eccIndex store)) 31 0 1
  let s := s.taskDoubt x causes { kind := 0x02, sev := 1, site := site, unit := if store = 1 then k % 64 else 0xFF, landing := l, addr := addr, detail := detail }
  let s := mates.foldl (fun s n => s.doubt n causes id record) s
  if store = 1 then s.countEcc k counts else if store = 2 then (s.regionsAt addr).foldl State.regionReload s
  else if store = 4 then s.granuleError addr else s

/-- One fault of a report. A cache line with an error is invalidated and read again from T2, and doubts nothing; an error in a lender's store doubts the borrower's request and counts at the lender (R116, R441). -/
def State.taskFault (l k : Nat) (x : Task) (s : State) (f : TaskFault) : State :=
  match f with
  | .residue e g kt => s.residueFault l k x (e % 8 + shl (g % 8) 3 + shl (kt % 65536) 16) 1 true
  | .ecc store addr => s.eccFault l k x store addr (store % 16) 2 true
  | .hostRead addr => s.taskDoubt x 256 { kind := 0x0F, sev := 1, site := 8 + slotVest x.slot % 4, unit := slotVest x.slot % 4, addr := addr, detail := 2 }
  | .t3Read addr => s.taskDoubt x 512 { kind := 0x10, sev := 1, site := 8 + slotVest x.slot % 4, addr := addr }
  | .galleryCrc port peer => s.galCrc x.slot port peer
  | .cacheLine addr => (s.satField (Reg.memEccCount 2) 31 0 1).alcDrop (addr / 128 * 128)
  | .loanEcc lender addr => (match (s.land lender).phys with | some q => s.eccFault lender q x 1 addr 1 2 true | none => s)
  | .corrected store =>
    (match store with
    | 1 => (s.countTask l x 0x38 1).satField (Reg.memEccCount 0) 31 0 1
    | 3 => s.satField (Reg.memEccCount 6) 31 0 1
    | _ => s.satField (Reg.memEccCount 4) 31 0 1)

/-! ## The Riser array (R34 to R48) -/

/-- Bytes of an activation vector: K-elements in forward mode, 32 N-elements in transposed mode (R34, R38). -/
def actBytes (kind : Tile.Kind) (transposed : Bool) : Nat := if transposed then kind.actPlace 32 / 2 + (if kind.pair == .mxfp4 then 1 else 0) else kind.actBytes

/-- One output of a pass: its value goes to the store as computed; a residue mismatch doubts the request (R57), and an output decided as NaN or infinity is counted and not checked (R56). -/
def State.tileOutput (l k : Nat) (x : Task) (kind : Tile.Kind) (ktile : Nat) (s : State) (o : Nat × List (Tile.Opnd × Tile.Opnd)) : State :=
  let s := s.t0PutF l o.1 [kind.result o.2]
  let s := if (Tile.special (o.2.map fun p => (p.1.exact, p.2.exact))).isSome then s.countTask l x 0x06 1 else s
  match kind.mismatch o.2 with
  | some (e, g) => (s.countTask l x 0x05 1).residueFault l k x (e % 8 + shl (g % 8) 3 + shl (ktile % 65536) 16) 1 true
  | none => s

/-- A pass of one tile: a new image loads into the array, or the stored tile serves again; a step keeps one pairing and one mode (R34, R35), and an image stands on a boundary of 512 bytes (R39). -/
def State.tilePass (s : State) (l k : Nat) (x : Task) (kind : Tile.Kind) (transposed : Bool) (image : Option Nat) (act vectors out ku nu ktile : Nat) : State :=
  let y := s.land l
  let tile := match image with | some a => some (kind, s.t0 l a kind.imageBytes) | none => y.tile
  let named := ((s.req? x.slot).bind fun r => r.xs.pairing).getD (kind.pair, transposed)
  match tile with
  | none => s.stepFails x
  | some (held, img) =>
    if !kind.ok || held != kind || named != (kind.pair, transposed) || (match image with | some a => a % 512 != 0 | none => false) then s.stepFails x else
    let s := s.updReq x.slot fun r => { r with xs := { r.xs with pairing := some named } }
    let s := (s.updLand l fun y => { y with tile := some (kind, img) }).countTask l x 0x02 (b2n image.isSome)
    let s := s.countTask l x 0x01 (vectors * kind.cycles)
    let n := kind.outputs transposed ku nu
    let wres := fun place => image.bind fun a => SMap.find y.resid (2 * a + place)
    let outs := (List.range vectors).flatMap fun j =>
      let a := act + j * actBytes kind transposed
      let vec := s.t0 l a (actBytes kind transposed)
      let ares := fun place => SMap.find y.resid (2 * a + place)
      (List.range n).map fun o => (out + 4 * (j * n + o), kind.operands transposed ku nu img vec wres ares o)
    outs.foldl (State.tileOutput l k x kind ktile) s

/-! ## Vector and special-function units (R65 to R78) -/

/-- An operation of the vector unit on one element. A compare gives 1.0 where a is less than b, and else +0; a select gives b where a is not zero, and else c (log entry 56). -/
def vecOp (op : VecOp) (a b c : F32) : F32 :=
  match op with
  | .add => F.add a b | .sub => F.sub a b | .mul => F.mul a b | .fma => F.fma a b c
  | .min => F.minimum a b | .max => F.maximum a b | .abs => F.abs a | .neg => F.neg a
  | .compare => if F.lt a b then F.one else F.zero
  | .select => if F.isZero a then c else b

/-- Bytes of n elements of a format. -/
def fmtLen (f : Fmt) (n : Nat) : Nat :=
  match f with | .none => n | .f32 => 4 * n | .bf16 => 2 * n | .e4m3 | .e5m2 | .int8 => n | .mx => n / 2 + n / 32
/-- FP32 values of n elements (R67); an MXFP4 run stands as its elements and then its block scales (log entry 55). -/
def fmtDecode (f : Fmt) (n : Nat) (b : Blob) : List F32 :=
  (List.range n).map fun i => match f with
    | .none | .f32 => BitVec.ofNat 32 (Blob.u32 b (4 * i))
    | .bf16 => F.ofBf16 (BitVec.ofNat 16 (Blob.u16 b (2 * i)))
    | .e4m3 => F.ofE4m3 (b.getD i 0)
    | .e5m2 => F.ofE5m2 (b.getD i 0)
    | .int8 => F.ofInt8 (b.getD i 0)
    | .mx => F.ofMx (Blob.u8 b (n / 2 + i / 32)) (Tile.nibbleAt b (i / 2) i)
/-- FP32 values in a format (R67), and how many conversions to INT8 clipped or met a NaN. -/
def fmtEncode (f : Fmt) (xs : List F32) : Blob × Nat :=
  match f with
  | .none | .f32 => (xs.flatMap fun x => leBytes 4 x.toNat, 0)
  | .bf16 => (xs.flatMap fun x => leBytes 2 (F.toBf16 x).toNat, 0)
  | .e4m3 => (xs.map F.toE4m3, 0)
  | .e5m2 => (xs.map F.toE5m2, 0)
  | .int8 => (xs.map fun x => BitVec.ofInt 8 (F.toInt8 x).1, (xs.filter fun x => (F.toInt8 x).2).length)
  | .mx =>
    let bs := (F.chunks 32 xs).map F.toMx
    let es := bs.flatMap Prod.snd
    ((F.chunks 2 es).map (fun e => BitVec.ofNat 8 (e.getD 0 0 % 16 + 16 * (e.getD 1 0 % 16))) ++ bs.map fun b => BitVec.ofNat 8 b.1, 0)

/-- A conversion in the landing store, with the residues of what it writes (R55, R67). -/
def State.convert (s : State) (l : Nat) (x : Task) (from_ to_ : Fmt) (src dst n : Nat) : State :=
  let r := fmtEncode to_ (fmtDecode from_ n (s.t0 l src (fmtLen from_ n)))
  let s := match to_ with
    | .mx => (s.t0Put l dst (r.1.take (n / 2)) .mx).t0Put l (dst + n / 2) (r.1.drop (n / 2)) .none
    | f => s.t0Put l dst r.1 f
  s.countTask l x 0x09 r.2

/-- A row statistic (R68, R78), none for a row of more than 2^26 elements (R69). -/
def rowStat (rilqua : Bool) (op : RowOp) (xs : List F32) : Option F32 :=
  match op with
  | .sum => F.rowReduce rilqua F.add F.add F.zero xs
  | .sumSq => F.rowReduce rilqua F.add F.add F.zero (xs.map fun x => F.mul x x)
  | .max => F.rowReduce rilqua F.maximum F.maximum F.ninf xs
  | .absmax => F.rowReduce rilqua (fun a x => F.maximum a (F.abs x)) F.maximum F.ninf xs

/-! ## The Usher (R107 to R111) -/

/-- What a walk runs with: landing, task, limit of outstanding lines, the walk, its program. -/
structure WalkEnv where
  l     : Nat
  x     : Task
  limit : Nat
  w     : WalkRun
  words : List Word
deriving DecidableEq, Repr, Inhabited

/-- The tier and the address in it that an address of the step names (R110). -/
def regionOf (rs : List Region) (a : Nat) : Option (Tier × Nat) :=
  (rs.find? fun r => decide (r.lo ≤ a) && decide (a < r.lo + r.len)).map fun r => (r.tier, r.base + (a - r.lo))
/-- Bytes at an address of the step's address space. -/
def State.walkRead (s : State) (e : WalkEnv) (a n : Nat) : Blob × State :=
  match regionOf e.w.regions a with
  | some (t, b) => s.tierRead e.l e.x t b n
  | none => ((List.range n).map fun i => Config.unmappedByte (a + i), s)

def wkOp (w : Word) : Nat := bitsW w 63 58
def wkDst (w : Word) : Nat := bitsW w 57 54
def wkA (w : Word) : Nat := bitsW w 53 50
def wkB (w : Word) : Nat := bitsW w 49 46
def wkImm (w : Word) : Nat := bitsW w 31 0

def Thread.reg (t : Thread) (i : Nat) : Word := t.g.getD i 0
def Thread.put (t : Thread) (i : Nat) (v : Word) : Thread := { t with g := t.g.set i v }
/-- A thread at the start of a work item: its first registers, the others zero, no line held (log entry 56). -/
def Thread.start (item : List Word) : Thread := { g := (item ++ List.replicate 16 0).take 16 }

/-- Whether a thread may issue: EXT waits for its line; LDL waits for a place in the pool (R108), and for the line that its slot still awaits. -/
def Thread.ready (u : Usher) (e : WalkEnv) (t : Thread) : Bool :=
  match e.words[t.pc]? with
  | none => true
  | some w =>
    match wkOp w with
    | 0x01 => decide (u.lines.length < e.limit) && (match SMap.find t.slots (wkDst w) with | some (_, none) => false | _ => true)
    | 0x02 => (match SMap.find t.slots (wkA w) with | some (_, some _) => true | _ => false)
    | _ => true

/-- A thread ends its walk; the next work item starts on it as the youngest (R107, R110). -/
def Usher.endWalk (u : Usher) (i : Nat) : Usher :=
  let lines := (u.lines.filter fun e => e.1 != i).map fun e => (if i < e.1 then e.1 - 1 else e.1, e.2)
  let rest := u.threads.eraseIdx i
  match u.work with
  | [] => { u with threads := rest, lines := lines }
  | item :: work => { u with threads := rest ++ [Thread.start item], lines := lines, work := work }

def Usher.setThread (u : Usher) (i : Nat) (t : Thread) : Usher := { u with threads := u.threads.set i t }

/-- One instruction of thread i (R110). The flag says that the walk has executed more than 65,536 instructions (R111). -/
def State.walkIssue (s : State) (e : WalkEnv) (u : Usher) (i : Nat) : State × Usher × Bool :=
  let t := u.threads.getD i {}
  match e.words[t.pc]? with
  | none => (s, u.endWalk i, true)
  | some w =>
    let s := s.countTask e.l e.x 0x20 1
    if 65536 ≤ t.count then (s, u, false) else
    let t := { t with pc := t.pc + 1, count := t.count + 1 }
    let a := t.reg (wkA w)
    let b := t.reg (wkB w)
    let imm := wkImm w
    let at_ := (a + BitVec.ofNat 64 imm).toNat
    let put := fun (v : Word) => (s, u.setThread i (t.put (wkDst w) v), true)
    let jump := fun (c : Bool) => (s, u.setThread i (if c then { t with pc := imm % 128 } else t), true)
    match wkOp w with
    | 0x01 => (s, { u.setThread i { t with slots := SMap.put t.slots (wkDst w) (at_ / 64 * 64, none) } with lines := u.lines ++ [(i, wkDst w)] }, true)
    | 0x02 =>
      let line := match SMap.find t.slots (wkA w) with | some (_, some d) => d | _ => []
      put (BitVec.ofNat 64 (Blob.u line (bitsN imm 5 0) (bitsN imm 9 6 + 1)))
    | 0x03 =>
      let s := match regionOf e.w.regions at_ with | some (.hbm, k) => s.prefetch (s.taskPart e.x) e.l k | _ => s
      (s, u.setThread i t, true)
    | 0x04 => put (a + b)
    | 0x05 => put (a + (BitVec.ofNat 32 imm).signExtend 64)
    | 0x06 => put (a &&& BitVec.ofNat 64 imm)
    | 0x07 => put (a >>> (imm % 64))
    | 0x08 => put (a * BitVec.ofNat 64 imm)
    | 0x09 => put ((crc32cFrom (BitVec.ofNat 32 imm) (leBytes 8 a.toNat)).setWidth 64)
    | 0x0A => jump (decide (a.toNat < b.toNat))
    | 0x0B => jump (a == b)
    | 0x0C =>
      (match u.input with
      | [] => jump true
      | v :: rest => (s, { u.setThread i (t.put (wkDst w) v) with input := rest }, true))
    | 0x0D =>
      let q := fmtDecode e.w.fmt e.w.dims (s.t0 e.l e.w.query (fmtLen e.w.fmt e.w.dims))
      let r := s.walkRead e a.toNat (fmtLen e.w.fmt e.w.dims)
      (r.2, u.setThread i (t.put (wkDst w) ((termSum e.w.metric q (fmtDecode e.w.fmt e.w.dims r.1)).setWidth 64)), true)
    | 0x0E =>
      let u := u.setThread i t
      (s, (match e.w.emit with | .queue => { u with input := u.input ++ [a, b] } | _ => { u with emits := u.emits ++ [(a, b)] }), true)
    | 0x0F => (s, { u.setThread i t with input := u.input ++ [a] }, true)
    | _ => (s, u.endWalk i, true)

/-- The oldest line read under way arrives in its slot. -/
def State.walkArrive (s : State) (e : WalkEnv) (u : Usher) : State × Usher :=
  match u.lines with
  | [] => (s, u)
  | (i, k) :: rest =>
    let t := u.threads.getD i {}
    let a := (SMap.at t.slots k (0, none)).1
    let r := s.walkRead e a 64
    (r.2, { u.setThread i { t with slots := SMap.put t.slots k (a, some r.1) } with lines := rest })

/-- The Usher's run: the oldest ready thread issues; where none is ready the oldest line arrives. The flag says that every walk has ended; a thread that waits for a line it never read ends nothing (log entry 56). -/
def State.walkLoop (e : WalkEnv) : Nat → State → Usher → State × Usher × Bool
  | 0, s, u => (s, u, false)
  | n + 1, s, u =>
    match u.threads.findIdx? (Thread.ready u e) with
    | some i =>
      let r := s.walkIssue e u i
      if r.2.2 then State.walkLoop e n r.1 r.2.1 else r
    | none =>
      if u.lines.isEmpty then (s, u, u.threads.isEmpty)
      else let r := s.walkArrive e u; State.walkLoop e n r.1 r.2

/-- A walk of a step on its landing's Usher: 64 threads take the work items in order (R107). What it emits goes to the select unit, or to a list in the landing store. -/
def State.walk (s : State) (l : Nat) (x : Task) (w : WalkRun) : State :=
  match s.walker w.prog with
  | none => s.stepFails x
  | some prog =>
    let e : WalkEnv := { l := l, x := x, limit := bitsW (s.reg (Reg.memOutstanding (s.taskPart x))) 10 0, w := w, words := prog.words }
    let u : Usher := { threads := (w.items.take 64).map Thread.start, work := w.items.drop 64, input := w.input }
    let r := State.walkLoop e (131200 * (w.items.length + 1)) s u
    let s := r.1.updLand l fun y => { y with usher := r.2.1 }
    if !r.2.2 then s.stepFails x else
    match w.emit with
    | .list a => s.t0Put l a (r.2.1.emits.flatMap fun p => leBytes 8 p.1.toNat ++ leBytes 8 p.2.toNat) .none
    | _ => s

/-! ## The stair schedule and expert prefetch (R113 to R115) -/

/-- Prefetches the lines of a tile into the Alcove cache. -/
def State.prefetchTile (s : State) (p l : Nat) (m : Model) (t : TileRec) : State :=
  let a := runAddr m.gran t.off
  (List.range ((t.kind.imageBytes + 127) / 128)).foldl (fun s i => s.prefetch p l (a + 128 * i)) s

/-- A partition runs layer `a` of a model (R113): dense tiles of the next layer fill the landing stores that will use them, within T0_SHARE; those of DEPTH layers are prefetched. -/
def State.stairLayer (s : State) (p n a : Nat) : State :=
  let w := s.reg Reg.memStair
  let m := SMap.at s.objs.models n {}
  let ts := Config.imageTiles m.image
  let sched := SMap.at m.stair p []
  let layers := max 1 (imgLayers m.image)
  if !bitW w 0 || sched.isEmpty then s else
  let next := (a + 1) % layers
  let lands := (sched.map (·.land)).eraseDups
  let s := lands.foldl (fun s l => s.stairFill p n next l) s
  (List.range (bitsW w 2 1)).foldl (fun s d =>
    (sched.filter fun e => e.layer == (a + 1 + d) % layers).foldl (fun s e => match ts[e.tile]? with | some t => s.prefetchTile p e.land m t | none => s) s) s

/-- The shard of an expert: its model, layer and expert in one number; a private set k counts as model 64 (k + 1) (log entry 66). The dense shard of a model is its number. -/
def shardKey (n layer expert : Nat) : Nat := n + 65664 * (512 * layer + expert + 1)
/-- The private expert set that a generate request names, with its number (R289). -/
def Req.expertSet (r : Req) (s : State) : Option (Nat × Model) :=
  let k := Blob.u16 r.desc 204
  if r.opc == 0x03 && k != 0x7FF then (SMap.find s.objs.sets k).map fun x => (k, x) else none

/-- The router of a layer has chosen experts for a task (R114, R287): their tiles are read ahead into the landings that run them, and what the session chose at the next layer in its previous decode step is
prefetched. In a decode step the chosen experts' tasks join their decode batches (R61, R287). -/
def State.routed (s : State) (x : Task) (layer : Nat) (experts : List Nat) : State :=
  match s.req? x.slot with
  | none => s
  | some r =>
    let p := r.part
    let n := idNum r.objId
    let m := SMap.at s.objs.models n {}
    let e0 := imgExperts m.image
    -- routed experts of the model, then the private ones of the request's set (R287); shared experts are chosen by no router
    let own := ((SMap.at m.homes p []).filter fun h => decide (h.expert < e0)).map fun h => (h, m, n)
    let priv := match r.expertSet s with
      | some (k, x) => (SMap.at x.homes p []).map fun h => ({ h with expert := e0 + h.expert }, x, 64 * (k + 1))
      | none => []
    let of := fun (l : Nat) (es : List Nat) => (own ++ priv).filter fun h => h.1.layer == l && es.contains h.1.expert
    let gen := { r.xs.gen with chosen := SMap.put r.xs.gen.chosen layer experts }
    let s := s.setReq x.slot { r with xs := { r.xs with gen := gen } }
    let s := if !bitW (s.reg Reg.memStair) 8 then s else
      let s := (of layer experts).foldl (fun s h => s.updLand h.1.land fun y => { y with filled := if y.filled.contains (h.2.2, h.1.tile) then y.filled else y.filled ++ [(h.2.2, h.1.tile)] }) s
      (of (layer + 1) (SMap.at gen.experts (layer + 1) [])).foldl (fun s h =>
        match (Config.imageTiles h.2.1.image)[h.1.tile]? with | some t => s.prefetchTile p h.1.land h.2.1 t | none => s) s
    if x.stage != .decode || x.spec then s else
    let es := ((of layer experts).map fun h => (h.1.expert, h.1.land, h.2.2)).eraseDups
    let ls := s.partLands p
    ((List.range es.length).zip es).foldl (fun s e =>
      if !ls.contains e.2.2.1 then s else
      let seq := r.taskCount + e.1
      (s.updReq x.slot fun q => { q with tasks := q.tasks ++ [seq], taskCount := max q.taskCount (seq + 1) }).place
        { x with seq := seq, home := e.2.2.1, shard := some (shardKey e.2.2.2 layer e.2.1) }) s

/-- The steering of a layer (R290): elements of a masked layer are scaled and shifted; of an unmasked one they stay. The vectors of the masked layers stand one after another behind the layer mask. -/
def steerLayer (image : Blob) (layer at_ : Nat) (hs : List F32) : List F32 :=
  let v := imgSection image 9
  let d := imgDim image
  let mask := (imgLayers image + 7) / 8
  let on := fun i => bitN (Blob.u8 v (i / 8)) (i % 8)
  if !on layer then hs else
  let base := mask + 2 * d * ((List.range layer).filter on).length
  (List.range hs.length).map fun i => steer (BitVec.ofNat 8 (Blob.u8 v (base + at_ + i))) (BitVec.ofNat 8 (Blob.u8 v (base + d + at_ + i))) (hs.getD i 0)
/-- The steering slot's image that a generate request names. -/
def State.steering (s : State) (r : Req) : Option Model :=
  if r.opc == 0x03 && Blob.u8 r.desc 206 != 0xFF then SMap.find s.objs.steers (Blob.u8 r.desc 206) else none

/-! ## One operation -/

/-- What one operation of a step program does on landing l, served by physical landing k (log entry 56). A step that has failed does no more. -/
def State.unitOp (l k : Nat) (x : Task) (s : State) (op : UnitOp) : State :=
  match s.req? x.slot with
  | none => s
  | some r =>
    if !x.spec && r.cur != some x.stage then s else
    let rev := bitsN s.fuses.behaviour 23 16
    let rilqua := bitN r.flags 12
    let f := fun a n => s.t0F l a n
    match op with
    | .load src dst fmt => let d := s.tierRead l x src.tier src.base src.len; d.2.t0Put l dst d.1 fmt
    | .store src dst => s.tierWrite l x dst.tier dst.base (s.t0 l src dst.len)
    | .tile kind transposed image act vectors out ku nu ktile => s.tilePass l k x kind transposed image act vectors out ku nu ktile
    | .vec op a b c dst n => s.t0PutF l dst (List.zipWith (fun u v => vecOp op u v.1 v.2) (f a n) (List.zip (f b n) (f c n)))
    | .scale src scales dst n perTensor =>
      let k := f scales (if perTensor then 1 else n)
      s.t0PutF l dst ((List.range n).map fun i => F.mul ((f src n).getD i 0) (k.getD (if perTensor then 0 else i) 0))
    | .convert a b src dst n => s.convert l x a b src dst n
    | .sfu code src dst n =>
      (match s.sfuCode rilqua code with
      | some g => (s.t0PutF l dst ((f src n).map g)).countTask l x 0x0B n
      | none => s.stepFails x)
    | .gated unit gs us gate up dst n =>
      (s.t0PutF l dst (List.zipWith (F.gated rev rilqua unit gs us) (f gate n) (f up n))).countTask l x 0x0B n
    | .rotary pos freqs src dst pairs =>
      -- pair i of the run at src becomes (x cos − y sin, x sin + y cos), each term a product and one sum (log entry 56)
      let w := f freqs pairs
      let v := f src (2 * pairs)
      s.t0PutF l dst ((List.range pairs).flatMap fun i =>
        let sc := F.rotary rev rilqua pos (w.getD i 0)
        let a := v.getD (2 * i) 0
        let b := v.getD (2 * i + 1) 0
        [F.sub (F.mul a sc.2) (F.mul b sc.1), F.add (F.mul a sc.1) (F.mul b sc.2)])
    | .row op src n dst => if 67108864 < n then s.stepFails x else
      (match rowStat rilqua op (f src n) with | some y => s.t0PutF l dst [y] | none => s.stepFails x)
    | .softmax src n scale mask dst =>
      let masked := fun i => match mask with | some a => bitN (leNat (s.t0 l (a + i / 8) 1)) (i % 8) | none => false
      s.t0PutF l dst (F.softmax rev rilqua scale masked (f src n))
    | .rmsNorm src n eps gain dst => s.t0PutF l dst (F.rmsNorm rev rilqua eps (f gain n) (f src n))
    | .layerNorm src n eps gain bias dst => s.t0PutF l dst (F.layerNorm rev rilqua eps (f gain n) (f bias n) (f src n))
    | .walk w => s.walk l x w
    | .layer a => s.stairLayer r.part (idNum r.objId) a
    | .router a src dst gates =>
      let m := SMap.at s.objs.models (idNum r.objId) {}
      let zs := f src (imgExperts m.image + match r.expertSet s with | some e => imgExperts e.2.image | none => 0)
      let gs := gateWeights rev rilqua (Blob.u8 m.image 10) zs
      let s := (s.t0Put l dst (gs.flatMap fun g => leBytes 4 g.1) .none).t0PutF l gates (gs.map Prod.snd)
      s.routed x a (gs.map Prod.fst)
    | .experts shared selected outs gates dst n =>
      let g := f gates selected
      let y := fun (k i : Nat) => (f (outs + 4 * n * k) n).getD i 0
      s.t0PutF l dst ((List.range n).map fun i =>
        expertSum ((List.range shared).map fun k => y k i) ((List.range selected).map fun k => (g.getD k 0, y (shared + k) i)))
    | .steer a at_ src dst n =>
      s.t0PutF l dst (match s.steering r with | some e => steerLayer e.image a at_ (f src n) | none => f src n)

/-! ## Loans (R105, R106) -/

/-- Loans with their places: one after another from the start of the lent share, which is the end of the store. -/
def placeLoans (at_ : Nat) : List Loan → List Lent
  | [] => []
  | k :: r => { src := k.src, len := k.len, at_ := at_ } :: placeLoans (at_ + k.len) r

/-- LANDING_BECOMES_LENDER (R105): a landing that has run no task for IDLE_TREADS Treads takes copies of T2 data in at most MAX_SHARE eighths of its store. -/
def execLandingBecomesLender (t landing : Nat) (loans : List Loan) (s : State) : Res :=
  let s := s.advance t
  let w := s.reg Reg.memLend
  let y := s.land landing
  let room := bitsW w 11 8 * (storeBytes / 8)
  let total := (loans.map (·.len)).foldl (· + ·) 0
  if !s.running || !bitW w 0 || y.phys.isNone || !y.running.isEmpty || y.gated || s.member.landings ≤ landing || (s.landPart landing).isNone
    || s.now < y.idleFrom + bitsW w 7 4 * s.newel.len || room < total || !y.draining.isEmpty then .next s
  else
    let ks := placeLoans (storeBytes - room) loans
    let s := ks.foldl (fun s k => s.t0Put landing k.at_ (s.t2 k.src k.len) .none) s
    .next (s.updLand landing fun y => { y with lender := true, loans := ks })

/-- Reads issued against revoked loans have completed by the next boundary: the lender reuses their space (R106; log entry 56). -/
def State.loansBoundary (s : State) : State := { s with lands := SMap.mapVals s.lands fun _ l => { l with draining := [] } }

end Sys2Proof.Machine
end

