-- ==== Sys2Proof/Machine/Engine.lean ====
section
/-! DEFINITION. The engine of steps: the end of tasks and steps, the operations and faults that a task reports, partials, speculation, release, the Balustrade step and the Tread boundary (02 R49 to R63, 05 R121 to R146, 16 R433 to R440). -/

namespace Sys2Proof.Machine

open Sys2Proof

/-! ## The end of a step -/

/-- What the end of a step does to its request, by step (R30). A doubted request does nothing more (R435); a cancelled consolidation ends its batch (R208). -/
def State.stageEffect (s : State) (slot : Nat) (st : Stage) (r : Req) : State :=
  match st with
  | .tokenise => s.tokeniseDone slot r
  | .detokenise => s.detokeniseDone slot r
  | .embed => s.embedDone slot r
  | .probe => s.probeDone slot r
  | .scan => s.scanDone slot r
  | .select => s.selectDone slot r
  | .refine => s.refineDone slot r
  | .merge => s.mergeDone slot r
  | .fetch => s.fetchDone slot r
  | .rerank => s.rerankDone slot r
  | .pack => s.packDone slot r
  | .prefill => let s := s.prefillInsert slot r; match s.req? slot with | some r => s.genStepDone slot r | none => s
  -- what the router chose stands for the prefetch of the next decode step (R114)
  | .decode => (s.genStepDone slot r).updReq slot fun r => { r with xs := { r.xs with gen := { r.xs.gen with experts := r.xs.gen.chosen, chosen := [] } } }
  | .checkPass => s
  | .index => s.indexDone slot
  | .gather => s.gatherDone slot r
  | .gradient => s.gradientDone slot r
  | .update => s.updateDone slot r
  | .load => s.loadDone slot r

/-- The step of a request that has ended: its combine groups go, and its effect stands (R49, R434). -/
def State.stageDone (s : State) (slot : Nat) (st : Stage) : State :=
  match s.req? slot with
  | none => s
  | some r =>
    let r := { r with cur := none, tasks := [], taskCount := 0, homes := [], phase := .ready, doneAt := s.now }
    let s := { s.setReq slot r with lands := SMap.mapVals s.lands fun _ l => { l with combine := l.combine.filter fun c => c.slot != slot || c.spec } }
    if r.doubt != 0 || r.suppress then s.updReq slot fun r => { r with stages := [] }
    else (s.stageEffect slot st r).updReq slot fun r => if r.opc = 3 && r.ending.isNone then r.genNote else r

/-- ARCADE_STEP_COMPLETE: a tokenise or detokenise step that the Arcade engine runs ends, and a queued one takes its place (R149, R163, R168). -/
def execArcadeStepComplete (t slot : Nat) (s : State) : Res :=
  let s := s.advance t
  match s.req? slot with
  | none => .next s
  | some r =>
    let on := s.running && r.phase = .running && (s.arcade slot).busy.contains slot
    match r.cur with
    | some .tokenise => .next (if on then (s.stageDone slot .tokenise).arcadeLeave slot else s)
    | some .detokenise => .next (if on then (s.stageDone slot .detokenise).arcadeLeave slot else s)
    | _ => .next s

/-! ## Tasks that end (R57, R116, R434) -/

/-- Armed injections that the task's outputs and reads fire (R551). -/
def State.fireInjections (s : State) (l k : Nat) (x : Task) (rep : TaskReport) : State :=
  let s := match (s.land l).injRes, rep.outputs with
    | some noCount, true =>
      let f := s.takeFresh
      let d := (Config.injectedDetail f.1).toNat &&& 0xFFFF003F
      (f.2.updLand l fun y => { y with injRes := none }).residueFault l k x (d + 2 ^ 63) 2049 (!noCount)
    | _, _ => s
  match (s.land l).injEcc, rep.storeReads with
  | some noCount, true =>
    let f := s.takeFresh
    (f.2.updLand l fun y => { y with injEcc := none }).eccFault l k x 1 (Config.injectedAddr f.1).toNat (1 + 2 ^ 63) 2050 (!noCount)
  | _, _ => s

/-- What fetch finds for a pair of passage ID and version (R252, R258). -/
def State.fetchPair (s : State) (r : Req) (p : Nat × Nat) : Cand × Fetched :=
  let c : Cand := { key := 0, order := 0, id := p.1, ver := p.2, score := 0, attr := 0 }
  (c, fetchOne (s.storeRead r) ((s.cacheGet r.part false (passKey r.xs.store c)).map (·.tokens)) r.xs.store (vocSize (r.generator s).vocab) c)
def Fetched.waits (f : Fetched) : Bool := match f with | .need _ _ => true | _ => false
/-- Whether a pair's passage is available (R252, R258). -/
def State.pairThere (s : State) (r : Req) (p : Nat × Nat) : Bool := match (s.fetchPair r p).2 with | .tokens _ => true | _ => false

/-- Whether a task still waits for answers of peers or for its adds (R252, R318, R326). -/
def State.taskWaits (s : State) (x : Task) (rep : TaskReport) : Bool :=
  let t3 := rep.faults.any fun f => match f with | .t3Read _ => true | _ => false
  match s.req? x.slot with
  | none => false
  | some r =>
    !(t3 || r.doubt != 0) && (match x.pair with
      | some p => (s.fetchPair r p).2.waits
      | none => (match x.stage with
        | .fetch => !s.fetchComplete r
        | .gather => !gatherReady r
        | .update => !updateReady r
        | _ => false))

/-- Draft rows of a decode step that have not run (R299). -/
def State.draftsLeft (s : State) (slot : Nat) : Nat := ((s.specTasks slot).filter fun t => t.pair.isNone).length

/-- A task has reported. A speculative pair whose passage is available is kept; a decode step ends with its last task, draft rows among them; another step with its last task. -/
def State.taskEnds (s : State) (x : Task) : State :=
  match s.req? x.slot with
  | none => s
  | some r =>
    match x.spec, x.pair with
    | true, some p =>
      if r.xs.specOk then s
      else if s.pairThere r p then s.setReq x.slot { r with xs := { r.xs with specDone := r.xs.specDone ++ [p] } }
      else (s.updPart r.part fun q => { q with freeing := q.freeing + 1 }).cntPart r.part 7 1
    | spec, _ =>
      if r.cur != some x.stage || !(spec || r.tasks.contains x.seq) then s else
      let left := if spec then r.tasks else r.tasks.erase x.seq
      let s := s.setReq x.slot { r with tasks := left }
      if left.isEmpty && s.draftsLeft x.slot = 0 then s.stageDone x.slot x.stage else s

/-- Events that follow from the operations and the data; a report counts only the others, which the hardware alone sees (R508; log entry 56). -/
def modelled (e : Nat) : Bool :=
  [0x01, 0x02, 0x05, 0x06, 0x07, 0x09, 0x0B, 0x10, 0x11, 0x12, 0x13, 0x14, 0x16, 0x17, 0x18, 0x20, 0x25, 0x26, 0x27, 0x28, 0x29, 0x2A, 0x30, 0x31, 0x32, 0x33].contains e
/-- Counts what a finished task read or selected: its select run (R229), the replica rows of a gather (R319), the hot passages of a fetch (R253). -/
def State.taskEvents (s : State) (l : Nat) (x : Task) : State :=
  match s.req? x.slot with
  | none => s
  | some r =>
    match x.stage with
    | .scan =>
      (match r.xs.scanNow[x.seq]? with
      | some k =>
        let o := s.runTask r k
        (((s.countTask l x 0x30 1).countTask l x 0x31 o.accepted).countTask l x 0x32 o.drops).countTask l x 0x33 (b2n (o.drops != 0))
      | none => s)
    | .gather => s.countTask l x 0x29 (s.replicaReads r)
    | .fetch => s.countTask l x 0x2A r.xs.useKeys.length
    | _ => s

/-- TASK_COMPLETE: a landing's task ends: its operations take effect, and it reports events and faults (R123, R434, R506). -/
def execTaskComplete (t landing step : Nat) (rep : TaskReport) (s : State) : Res :=
  let s := s.advance t
  let l := s.land landing
  match l.running.find? (fun x => stepIdOf x.task.slot x.task.stage x.task.seq == step), l.phys with
  | some run, some k =>
    let x := run.task
    if !s.running || s.taskWaits x rep then .next s else
    let s := (rep.ops.foldl (State.unitOp landing k x) s).taskEvents landing x
    let s := (rep.events.filter fun e => !modelled e.1).foldl (fun s e => s.countLand landing e.1 e.2 x.spec x.stage.kind) s
    let fixed := ((rep.events.filter fun e => e.1 == 0x38).map Prod.snd).foldl (· + ·) 0
    let s := if fixed = 0 then s else s.satField (Reg.memEccCount 0) 31 0 fixed
    let s := rep.faults.foldl (State.taskFault landing k x) s
    -- the task still runs on its landing while a fault is handled, so a landing that it fences doubts it too (R433)
    let s := s.fireInjections landing k x rep
    .next ((s.updLand landing fun y => { y with running := y.running.erase run, redo := y.redo.erase x, idleFrom := s.now }).taskEnds x)
  | _, _ => .next s

/-! ## Partials (R49 to R51, R442) -/

/-- Pairs of consecutive values: the maxima and sums of a softmax row's segments. -/
def pairUp (f : F32 × F32 → F32 × F32 → F32 × F32) : List F32 → List F32 → List F32
  | m :: x :: r, n :: y :: q => let p := f (m, x) (n, y); p.1 :: p.2 :: pairUp f r q
  | _, _ => []
/-- One addition of the owning landing's fold: sums of R49, or the row reductions of R69 with the combine of R68 or R75. -/
def foldApply (exp : F32 → F32) (f : FoldOp) (a b : List F32) : List F32 :=
  match f with
  | .add => addRows a b
  | .max => List.zipWith F.maximum a b
  | .softmax => pairUp (F.smCombine exp) a b

/-- Folds the held partials that the next indices unblock. -/
def Combine.run (exp : F32 → F32) : Nat → Combine → Combine
  | 0, c => c
  | n + 1, c =>
    match SMap.find c.held c.next with
    | none => c
    | some v => Combine.run exp n { c with acc := if c.next = 0 then v.2 else foldApply exp c.fold c.acc v.2, next := c.next + 1, held := SMap.del c.held c.next }

/-- Unreserved entries of the combine buffer: 512, one reserved for each group in progress (R50). -/
def Landing.combineFree (l : Landing) : Nat :=
  let open_ := l.combine.filter fun c => decide (c.next < c.total)
  512 - open_.length - (open_.map fun c => c.held.length).foldl (· + ·) 0

/-- A partial belongs to a group; those of a speculative task combine only with partials of the same task (R51). -/
def Combine.takes (c : Combine) (m : PartialMsg) : Bool := c.slot == m.slot && c.group == m.group && c.spec == m.spec && (!m.spec || c.task == m.task)

/-- PARTIAL_ARRIVAL (R49 to R51, R69): a partial of an old generation is dropped (R442, R445), a duplicate is discarded and counted, one that finds no free entry waits at its sender. A new group needs an
entry to reserve, and one more where its first partial is early. -/
def execPartialArrival (t landing : Nat) (msg : PartialMsg) (s : State) : Res :=
  let s := s.advance t
  let l := s.land landing
  let k := physKey msg.dieFrom msg.phyFrom
  let off := s.member.landings ≤ landing || s.member.halls ≤ msg.dieFrom || 52 ≤ msg.phyFrom
  match s.req? msg.slot with
  | none => .next s
  | some r =>
    if !s.running || off || l.phys.isNone || msg.total ≤ msg.index then .next s
    else if msg.gen != (s.phys k).gen then
      let s := s.updPhys k fun x => { x with heard := x.heard + 1, heardGen := msg.gen }
      .next ({ s with flt := { s.flt with stale := satAdd 32 s.flt.stale 1 } }.orReg Reg.fltStatus 2)
    else
      let old := l.combine.find? (·.takes msg)
      let c := old.getD { slot := msg.slot, group := msg.group, spec := msg.spec, task := msg.task, fold := msg.fold, total := msg.total }
      if msg.index < c.next || (SMap.find c.held msg.index).isSome then
        let kind := match r.cur with | some st => st.kind | none => 0
        .next ((s.setLand landing { l with dupes := l.dupes + 1 }).countLand landing 0x07 1 msg.spec kind)
      else if l.combineFree < b2n old.isNone + b2n (msg.index != c.next) then .next s
      else
        let exp := F.sfu (bitsN s.fuses.behaviour 23 16) (bitN r.flags 12) 2
        let c := Combine.run exp (c.held.length + 1) { c with held := SMap.put c.held msg.index (k, msg.values) }
        .next (s.setLand landing { l with combine := (l.combine.filter fun x => !x.takes msg) ++ [c] })

/-! ## Speculation (R139 to R146) -/

/-- Pairs of a request that speculative tasks have yet to score. -/
def State.specPairs (s : State) (slot : Nat) : List (Nat × Nat) := (s.specTasks slot).filterMap (·.pair)

/-- Requests whose steps include speculative rerank. The conditions of R139 are those of its admission, which SPEC_USED reports (R146; log entry 43). -/
def State.specRerank (r : Req) : Bool := r.opc == 3 && bitN r.flags 6 && Blob.u16 r.desc 112 != 0

/-- Validation at action 9: pairs of the final list whose passages are available commit, the others and all unfinished speculative tasks are discarded (R143, R144, R258). -/
def State.validate (s : State) (slot : Nat) (r : Req) : State :=
  let keep := r.xs.specDone.filter fun p => (r.xs.merged.any fun c => (c.id, c.ver) == p) && s.pairThere r p
  let lose := r.xs.specDone.filter fun p => !keep.contains p
  let s := (s.setReq slot { r with xs := { r.xs with specDone := lose } }).dropSpec slot
  (s.updReq slot fun r => { r with xs := { r.xs with specDone := keep, specOk := true } }).cntPart r.part 6 keep.length

def State.validateAll (s : State) : State :=
  let due := SMap.keysOf s.reqs fun _ r => State.specRerank r && !r.xs.specOk && r.doubt == 0 && r.ending.isNone && r.cur != some .scan
    && !([Stage.tokenise, .embed, .probe, .scan, .select, .refine, .merge].any fun st => r.stages.contains st || r.cur == some st)
  due.foldl (fun s slot => match s.req? slot with | some r => s.validate slot r | none => s) s

/-- Reads of a T3 store that a request's speculative pairs need (R140, R252); they read every tier that the request may read (R141). -/
def State.specReads (s : State) (slot : Nat) : State :=
  match s.req? slot with
  | none => s
  | some r => if Blob.u8 r.xs.store 8 = 0 || (s.peer (Blob.u8 r.xs.store 9)).state != 2 then s else s.sendNeeds slot r ((s.specPairs slot).map (s.fetchPair r))

/-- The provisional list of a scan that is half done (R140, R232): new pairs become speculative tasks, which fetch their passages and score them. -/
def State.provisional (s : State) (slot : Nat) (r : Req) : State :=
  let n := r.xs.scanNow.length
  let done := ((List.range n).zip r.xs.scanNow).filter fun e => !r.tasks.contains e.1
  if 2 * done.length < r.taskCount || r.tasks.isEmpty then s else
  let runs := r.xs.runs ++ done.map fun e => (s.runTask r e.2).run
  let cands := (poolOf runs).1.take (spC r)
  let known := r.xs.specDone ++ s.specPairs slot
  let new := (cands.map fun c => (c.id, c.ver)).filter fun p => !known.contains p
  (((List.range new.length).zip new).foldl (fun s e =>
    let h := (s.pickHome r.part e.1 []).1
    s.place { slot := slot, seq := known.length + e.1, stage := .rerank, spec := true, cls := r.cls, home := h, pair := some e.2 }) s).specReads slot

def State.provisionals (s : State) : State :=
  let due := SMap.keysOf s.reqs fun _ r => State.specRerank r && r.cur == some .scan && r.doubt == 0
  due.foldl (fun s slot => match s.req? slot with | some r => s.provisional slot r | none => s) s

/-! ## Release (R127, R294) -/

/-- The charge of a step in budget tokens (R292). -/
def State.chargeOf (s : State) (r : Req) (st : Stage) : Nat :=
  if r.peer.isSome then 0 else
  match st with
  | .embed => r.xs.question.length
  | .rerank => s.rerankCharge r
  | .prefill => (s.prefillPlan r).2.2
  | .decode => (s.draftOf r).length + 1
  | _ => 0
def charged (r : Req) (st : Stage) : Bool := r.peer.isNone && [Stage.embed, .rerank, .prefill, .decode].contains st

/-- The release key of R127; of two rings of one Vestibule at one position, the descriptor admitted first goes first (log entry 36). -/
def State.releaseKey (s : State) (slot : Nat) (r : Req) : List Nat :=
  let c := match r.stages with | st :: _ => s.chargeOf r st | [] => 0
  let within := decide ((c : Int) ≤ (s.tenant r.tenant).own)
  [r.cls, if within then 0 else 1, if r.deadline = 0 then 2 ^ 64 else r.deadline, r.admitAt, slotVest slot, r.pos, r.order]
def lexLt : List Nat → List Nat → Bool
  | a :: r, b :: q => if a < b then true else if b < a then false else lexLt r q
  | [], _ :: _ => true
  | _, [] => false
def insertKey (x : List Nat × Nat) : List (List Nat × Nat) → List (List Nat × Nat)
  | [] => [x]
  | y :: r => if lexLt x.1 y.1 then x :: y :: r else y :: insertKey x r
/-- Slots in release order. -/
def State.inOrder (s : State) (slots : List Nat) : List Nat :=
  (slots.foldl (fun a slot => match s.req? slot with | some r => insertKey (s.releaseKey slot r, slot) a | none => a) []).map Prod.snd

/-- Whether a request's stream has room for a further step (R306). -/
def State.streamRoom (s : State) (r : Req) : Bool :=
  match s.streamOf r with
  | some n => !(s.ring r.fn n).full && r.stream.waiting.isEmpty
  | none => true

/-- The query vector of a request whose text was not embedded. -/
def State.withQuery (s : State) (r : Req) : Req :=
  if r.xs.query.isEmpty && r.peer.isNone && vectorQuery r.desc then { r with xs := { r.xs with query := s.rawQuery r } } else r

/-- What the release of a step does beside its tasks; the flag says whether the step starts. -/
def State.releaseHook (s : State) (slot : Nat) (st : Stage) (r : Req) : State × Bool :=
  match st with
  | .probe => (s.fixSnapshot slot (s.withQuery r), true)
  | .scan =>
    let r := s.withQuery r
    let s := if r.isRecall && r.xs.snapshot.isNone then s.fixSnapshot slot r else s.setReq slot r
    (match s.req? slot with | some r => s.scanRelease slot r | none => s, true)
  | .fetch => (s.fetchRelease slot r, true)
  | .prefill =>
    if s.setGranules r.part < s.kvGranules r then
      let r := { r with xs := { r.xs with gen := { r.xs.gen with detail := 2 } } }
      (s.setReq slot { r with ending := some 0x21, ext := genExt r }, false)
    else s.prefillRelease slot r
  | .decode => (s.decodeRelease slot r, true)
  | .gather => (s.gatherRelease slot r, true)
  | .update => s.updateRelease slot r
  | .index => if r.opc = 0x13 then s.consRelease slot r else (s.setReq slot r, true)
  | _ => (s.setReq slot r, true)

/-- Tasks of a released step: scan by room and segment, prefill by 512 rows, rerank by pair; others one (R287, log entry 36). The tasks of a decode step are those of its shards. -/
def taskTotal (st : Stage) (r : Req) : Nat :=
  match st with
  | .scan => r.xs.scanNow.length
  | .prefill => max 1 ((r.xs.gen.rows + 511) / 512)
  | .rerank => (unscored r).length
  | .tokenise => 0
  | .detokenise => 0
  | _ => 1
def onArcade (st : Stage) : Bool := st == .tokenise || st == .detokenise

/-- The landings that hold the dense shards of a request's model in its partition, where the stair schedule puts them (R61, R113). -/
def State.shardLands (s : State) (r : Req) : List Nat :=
  let ls := s.partLands r.part
  (((SMap.at (r.generator s).stair r.part []).map (·.land)).eraseDups).filter ls.contains
/-- Homes of a released step's tasks: a decode step has one at every landing that holds a shard of its model. -/
def State.stepHomes (s : State) (st : Stage) (r : Req) (homes : List Nat) : List Nat × List Nat :=
  let shards := if st == .decode then s.shardLands r else []
  if !shards.isEmpty then (shards, homes) else
  (List.range (taskTotal st r)).foldl (fun (a : List Nat × List Nat) i => let y := s.pickHome r.part i a.2; (a.1 ++ [y.1], y.2)) ([], homes)
/-- The tasks of a released step at their homes. The draft rows of a decode step are speculative tasks, which count towards the shard's threshold (R63, R140, R299). -/
def stepTasks (slot : Nat) (st : Stage) (r : Req) (homes : List Nat) : List Task :=
  let base : Task := { slot := slot, stage := st, cls := r.cls, shard := if st = .decode then some (idNum r.objId) else none }
  let n := homes.length
  ((List.range n).zip homes).map (fun e => { base with seq := e.1, home := e.2 })
    ++ if st = .decode then (List.range r.xs.gen.draft.length).map fun i => { base with seq := n + i, spec := true, home := homes.getD (i % max 1 n) 0 } else []

/-- Whether the next step of a ready request may be released at this boundary; the Arcade engine's steps are held back while a STATIC region waits to be written (R99). -/
def State.mayRelease (s : State) (slot : Nat) (r : Req) (st : Stage) : Bool :=
  let x := s.tenant r.tenant
  (r.peer.isSome || s.procRuns (slotVest slot)) && s.streamRoom r && (st != .merge || mergeReady r)
    && (!onArcade st || s.alc.due.isEmpty)
    && (!charged r st || decide (1 ≤ x.own + x.surplus))

/-- Releases the next step of a request, or sends it to the Balustrade when none is left (R126, R435). -/
def State.releaseOne (s : State) (slot : Nat) (homes : List Nat) : State × List Nat :=
  match s.req? slot with
  | none => (s, homes)
  | some r =>
    if r.phase != .ready || decide (s.now ≤ r.doneAt) then (s, homes)
    else if r.xs.tab.issued && r.doubt = 0 && !r.peerLost && !r.suppress && !r.stopped then (s, homes)
    else if r.doubt != 0 || r.ending.isSome || r.suppress then (s.setReq slot { r with phase := .balustrade, stages := [] }, homes)
    else match r.stages with
      | [] => (s.setReq slot { r with phase := .balustrade }, homes)
      | st :: rest =>
        if !s.mayRelease slot r st then (s, homes) else
        let cost := s.chargeOf r st
        let old := r.relAt
        let h := s.releaseHook slot st { r with stages := rest, cur := some st, phase := .running, relAt := s.now,
                                                xs := { r.xs with usePref := [], useKeys := [], pairing := none } }
        let s := h.1
        match s.req? slot with
        | none => (s, homes)
        | some r =>
          if !h.2 then
            (if r.phase = .running then
              (s.setReq slot { r with cur := none, phase := .ready, relAt := old, stages := if r.ending.isSome then [] else st :: rest }).finishUnrun slot
            else s, homes)
          else if r.phase != .running then (s, homes)
          else
            let s := if cost = 0 then s else s.updTenant r.tenant fun x => x.charge cost
            let hs := s.stepHomes st r homes
            let n := hs.1.length
            let ts := stepTasks slot st r hs.1
            let s := s.setReq slot { r with tasks := List.range n, taskCount := ts.length, homes := hs.1 }
            let s := ts.foldl State.place s
            (if onArcade st then s.arcadeStart slot else if n = 0 then s.stageDone slot st else s, hs.2)

/-- Action 10: every ready step in release order. -/
def State.releaseAll (s : State) (homes : List Nat) : State :=
  let ready := s.inOrder (SMap.keysOf s.reqs fun _ r => r.phase == .ready)
  (ready.foldl (fun (a : State × List Nat) slot => a.1.releaseOne slot a.2) (s, homes)).1

/-! ## The Balustrade step (R437 to R440) -/

/-- The results of a batch that applies nothing (R200), where no earlier commit of its index waits that could change what it finds (log entry 68). -/
def State.emptyNow (s : State) (slot : Nat) (r : Req) : Option (List RecResult) :=
  if s.reqs.any fun e => e.1 != slot && e.2.phase == .commit && e.2.objId % 8 == r.objId % 8 then none else s.emptyBatch r

/-- BALUSTRADE_STEP: the final check; a batch that applies nothing is no commit and completes here (R200); an undoubted index update goes on to its commit (R193), a consolidation whose last switch stands in the open epoch waits for its close (R190), a peer's sub-request answers its origin (R434). -/
def execBalustradeStep (t slot : Nat) (s : State) : Res :=
  let s := s.advance t
  match s.req? slot with
  | none => .next s
  | some r =>
    if !s.running || r.phase != .balustrade then .next s
    else if r.peer.isSome then .next (s.finishSub slot)
    else if r.commits then
      match s.emptyNow slot r with
      | some rs => .next ((s.batchDone slot 0 rs false).finish slot)
      | none => .next (s.setReq slot { r with phase := .commit, passedAt := some s.now, holdover := r.holdover || s.newel.servo != 2 })
    else if r.opc = 0x13 && r.doubt = 0 && !r.suppress && s.objs.commits && r.epoch == s.openEpoch then
      .next (s.setReq slot { r with phase := .epoch, passedAt := some s.now, holdover := r.holdover || s.newel.servo != 2 })
    else .next ((s.settleStaged slot).finish slot)

/-! ## The Tread boundary (R125) -/

/-- Requests of fenced partitions stop: their tasks run no more (R429; log entry 36). -/
def State.stopFenced (s : State) : State :=
  let due := SMap.keysOf s.reqs fun _ r => r.phase == .running && s.fenced r.part
  due.foldl (fun s slot => (s.dropTasks slot).updReq slot fun r => r.halt s.now) s

/-- A partition reset whose firmware part has ended: STATE reads 1, or 5 where the partition was fenced meanwhile (R384). -/
def State.endResets (s : State) : State :=
  { s with parts := SMap.mapVals s.parts fun _ p => if p.resetting && p.resetDone then { p with resetting := false, resetDone := false } else p }

/-- Action 4: staged configuration, spares, flips, completions of table updates; what firmware and the units do by the next boundary: prefetched lines arrive, revoked loans end, traffic avoids fenced edges,
STATIC regions are written, the speculative scratch is fitted. Committed normalisation tables stand in the regions of content 2 (R100, R156). -/
def State.action4 (s : State) : State :=
  let norms := s.units.normPend
  let s := s.applyStaged4.unitsBoundary
  let s := if norms.isEmpty then s else s.staticWrite 2
  (s.spareTakeovers.endResets.postUpdates).stopFenced.edgesBoundary.loansBoundary.alcArrive.staticDue.scratchFits

/-- Action 5 (R126). -/
def State.action5 (s : State) : State := (SMap.keysOf s.reqs fun _ _ => true).foldl (fun s slot => s.deadlineOne slot s.now) s

/-- Action 6 (R137). -/
def State.action6 (s : State) : State := (SMap.keysOf s.reqs fun _ r => r.phase == .syncWait).foldl (fun s slot => s.evalWait slot true) s

/-- A waiting job takes a free exclusive partition, in admission order (R133). -/
def State.jobTurn (s : State) (p : Nat) : State :=
  let q := SMap.keysOf s.reqs fun _ r => r.phase == .jobWait && r.part == p
  if (s.part p).owner.isSome then s else
  match (s.inOrder q).foldl (fun (b : Option (Nat × Nat)) slot =>
      match s.req? slot with
      | some r => (match b with | some y => if r.order < y.2 then some (slot, r.order) else b | none => some (slot, r.order))
      | none => b) none with
  | some (slot, _) => (s.updPart p fun x => { x with owner := some slot }).check56 slot
  | none => s

/-- Action 7: checks 5 and 6 of waiting requests, sub-requests of peers, and the owning jobs. -/
def State.action7 (s : State) : State :=
  let s := (s.inOrder (SMap.keysOf s.reqs fun _ r => r.phase == .waiting)).foldl (fun s slot =>
    match s.req? slot with
    | some r => if r.peer.isSome then s.admitSub slot r else ((s.check56 slot).finishUnrun slot).beginControl slot
    | none => s) s
  (List.range 16).foldl (fun s p => s.jobTurn p) s

/-- Action 8: every shard with a queued token loads (R61). -/
def State.action8 (s : State) : State :=
  (s.lands.flatMap fun e => (e.2.batch.filter fun b => !b.2.isEmpty).map fun b => (e.1, b.1)).foldl (fun s e => s.loadShard e.1 e.2) s

/-- What stands beside the ten actions: peers, records of the Tread that ends, power states, hot rows, unloads given up, the peer directory (R320, R398, R445, R471, R472). -/
def State.boundaryRest (s : State) : State :=
  let s := s.galBoundary.grantStaging.staleRecords.hotBoundary.markUnloads.markDestroys.evalDepth
  let s := { s with lands := SMap.mapVals s.lands fun _ l => { l with gatedFor := if l.gated then l.gatedFor + 1 else 0 } }
  let s := s.updPower fun p => { p with idleFrom := if p.depth == 3 && s.quiet then some (p.idleFrom.getD s.now) else none }
  let held := s.newel.servo != 2
  let s := if held then { s with reqs := SMap.mapVals s.reqs fun _ r => { r with holdover := r.holdover || r.passedAt.isNone } } else s
  let ready := (s.objs.indexes.filter fun e => e.2.state == 2).map fun e => (e.1, e.2.gen)
  s.presentPeers.foldl (fun s p => s.send (.gal p 3 (.directory ready s.acceptMask s.ownLinks))) s

/-- The ten actions in order (R125); action 3 is skipped in Dormant (R472). -/
def State.actions (s : State) (homes : List Nat) : State :=
  let s := s.epochClose.schedBoundary
  let s := if s.power.dormant then s else s.refill
  s.boundaryRest.action4.action5.action6.action7.action8.validateAll.provisionals.releaseAll homes

/-- The counter reaches the boundary: the next one is a Tread later, and a pending length takes effect at a common multiple (R411). -/
def State.toBoundary (s : State) : State :=
  s.updNewel fun n =>
    let len := match n.pend with | some k => if n.nextB % k = 0 then k else n.len | none => n.len
    let pend := match n.pend with | some k => if n.nextB % k = 0 then none else some k | none => none
    { n with time := n.nextB, nextB := n.nextB + len, len := len, pend := pend, treads := (n.treads + 1) % 2 ^ 64 }

/-- TREAD_BOUNDARY (R125). -/
def execTreadBoundary (homes : List Nat) (s : State) : Res :=
  .next (if s.running then s.toBoundary.actions homes else s)

/-- TREAD_LENGTH_CHANGE: the boundary at which a pending length takes effect (R411). -/
def execTreadLengthChange (homes : List Nat) (s : State) : Res :=
  match s.newel.pend with
  | some k => .next (if s.running && s.newel.nextB % k == 0 then s.toBoundary.actions homes else s)
  | none => .next s

/-! ## Answers of peers (R392, R398) -/

/-- Marks the oldest adds sent and not acknowledged as done; `direct` adds found the owner's staging buffer full (R328). -/
def ackAdds (direct : Bool) : Nat → List Delta → List Delta
  | 0, ds => ds
  | _, [] => []
  | n + 1, d :: ds => if d.sent && !d.done then { d with done := true, direct := direct } :: ackAdds direct n ds else d :: ackAdds direct (n + 1) ds

/-- A peer has granted its staging buffers, and the next one is asked; or it has applied them (R329). -/
def State.stageAnswer (s : State) (slot peer : Nat) (r : Req) : State :=
  let w := r.xs.tab
  if w.acquire.head? == some peer then
    let r := { r with xs := { r.xs with tab := { w with acquire := w.acquire.tail } } }
    (s.setReq slot r).askStaging slot r
  else s.setReq slot { r with xs := { r.xs with tab := { w with applying := w.applying.filter (· != peer) } } }

/-- GALLERY_RESPONSE: read data, add acknowledgements, sub-request status (R392, R397, R398, R434). -/
def execGalleryResponse (t peer : Nat) (resp : GalResp) (crcOk : Bool) (s : State) : Res :=
  let s := s.advance t
  let slot := match resp with | .t3Data n _ _ => n | .addAck n _ _ => n | .stageAck n => n | .subStatus n _ _ => n
  if !s.running || (s.peer peer).state != 2 then .next s else
  let s := s.updPeer peer fun x => { x with lastFlit := s.now }
  match s.req? slot with
  | none => .next s
  | some r =>
    if !crcOk then .next (s.galCrc slot (s.peer peer).port peer) else
    match resp with
    | .t3Data _ addr data =>
      if !r.xs.t3Sent.any (fun e => e.1 == addr) || r.xs.t3Got.any (fun g => g.1 == addr) then .next s else
      let r := { r with xs := { r.xs with t3Got := r.xs.t3Got ++ [(addr, data)] } }
      .next (if r.cur = some .fetch then s.sendReads slot r else s.setReq slot r)
    | .addAck _ n direct => .next (s.setReq slot { r with xs := { r.xs with tab := { r.xs.tab with deltas := ackAdds direct n r.xs.tab.deltas } } })
    | .stageAck _ => .next (s.stageAnswer slot peer r)
    | .subStatus _ refused causes =>
      if refused then .next (if [0x20, 0x21, 0x22].contains r.opc then s.endReq slot 0x28 else s.peerEnd slot s.flt.seq)
      else
        let w := r.xs
        let got := SMap.upd w.peers peer fun p => { p with pool := some (p.pool.getD []) }
        .next ((s.setReq slot ({ r with xs := { w with peers := got } }.settle peer)).peerDoubt slot causes)

end Sys2Proof.Machine
end

