-- ==== Sys2Proof/Machine/Reset.lean ====
section
/-! DEFINITION. Resets of functions, ports, partitions, processors and the module, power-up and trips (13 R381 to R385, 12 R337, 17 R475 to R481, 20 R525 to R532). -/

namespace Sys2Proof.Machine

open Sys2Proof

/-! ## Function-level reset (R381 to R383) -/

/-- The tasks of a request whose decode tokens are queued against a shard (R61). -/
def State.tokensQueued (s : State) (slot : Nat) : List Nat :=
  ((s.lands.flatMap fun e => e.2.batch.flatMap Prod.snd).filter fun t => t.slot == slot).map (·.seq)

/-- What a function-level reset does to one request: what waits or is queued goes at once, a running step runs to its end, a written commit record stands (R193, R381). Tokens queued against a shard leave
its count; a request with nothing but such tokens ends. -/
def State.flrReq (s : State) (slot : Nat) : State :=
  match s.req? slot with
  | none => s
  | some r =>
    -- an ordinary step whose draft rows alone were left ends with them
    let s := s.dropSpec slot
    let s := if r.cur == some .decode && r.tasks.isEmpty then s.stageDone slot .decode else s
    if r.phase = .epoch then s.updReq slot fun r => { r with suppress := true }
    else if r.phase = .running || (r.phase = .ready && r.xs.tab.issued) then
      let queued := s.tokensQueued slot
      let left := r.tasks.filter fun i => !queued.contains i
      if !queued.isEmpty && left.isEmpty then s.freeSlot slot else
      let s := { s with lands := SMap.mapVals s.lands fun _ l => { l with batch := SMap.mapVals l.batch fun _ ts => ts.filter fun t => t.slot != slot } }
      s.updReq slot fun r => { r with suppress := true, stages := [], tasks := left }
    else (s.settleStaged slot).freeSlot slot

/-- Closes the sessions a function opened, once their request in flight has ended (R381). -/
def State.flrSessions (s : State) (f : Nat) : State :=
  { s with sessions := SMap.mapVals s.sessions fun i x =>
      if x.isOpen && x.fn = f then
        (if s.sessionUsers i then { x with closing := true } else { x with isOpen := false, closing := false, busy := none })
      else x }

/-- A vector under function-level reset: masked, its pending bit and window cleared (R381). -/
def Vec.quiesce (v : Vec) : Vec := { v with entry := v.entry ||| (1#128 <<< 96), pend := false, events := 0, opened := none }

/-- The function's own registers and rings as a function-level reset finds them: reservations freed, vectors masked (R381). -/
def Fn.quiesce (f : Fn) (now : Nat) : Fn :=
  { f with flr := some now
           rings := SMap.mapVals f.rings fun _ r => { r with reserved := 0 }
           vecs := SMap.mapVals f.vecs fun _ v => v.quiesce }

/-- Requests a function submitted. -/
def State.reqsOfFn (s : State) (f : Nat) : List Nat := SMap.keysOf s.reqs fun _ r => r.fn == f && r.peer.isNone

/-- Initiates a function-level reset of one function (R381). -/
def State.flrStart (s : State) (f : Nat) : State :=
  if s.inFlr f then s else
  let s := s.updFn f fun x => x.quiesce s.now
  let s := (s.reqsOfFn f).foldl State.flrReq s
  (s.flrSessions f).satField Reg.rstCounts 47 32 1

/-- Virtual functions that a physical function has enabled. -/
def State.vfsOf (s : State) (pf : Nat) : List Nat :=
  let x := s.fnOf pf
  if x.vfEnable then (List.range x.numVfs).map fun i => pf + 16 * (i + 1) else []

/-- Clears VF Enable: the virtual functions are reset and unbound (R377, R383). -/
def State.vfClear (s : State) (pf : Nat) : State :=
  -- a pending write of a binding stays pending and is applied at its boundary (DESIGN CHOICE, log entry 61)
  let vs := s.vfsOf pf
  let s := vs.foldl State.flrStart s
  let s := s.updFn pf fun x => { x with vfEnable := false, numVfs := 0 }
  { s with binds := s.binds.filter fun e => !vs.contains e.1 }

/-- A reset of a function, and of its virtual functions where it is physical (R383). -/
def State.flrFn (s : State) (f : Nat) : State :=
  (if fnVf f = 0 then s.vfClear f else s).flrStart f

/-- FUNCTION_LEVEL_RESET (R381). -/
def execFunctionLevelReset (t fn : Nat) (s : State) : Res :=
  let s := s.advance t
  .next (if s.reach fn && !s.inFlr fn then s.flrFn fn else s)

/-- The function after its reset: registers of domain F and configuration space at their reset values (R382); a mailbox that SEC_SPDM_CTRL disables is absent (R487). -/
def State.flrEnd (s : State) (f : Nat) : State :=
  let gone := fnVf f == 0 && !bitW (s.reg Reg.secSpdmCtrl) (4 * fnPort f + fnPf f)
  let s := { s with sessions := SMap.mapVals s.sessions fun _ x => if x.closing && x.fn = f then { x with isOpen := false, closing := false, busy := none } else x }
  s.setFn f { doeAbsent := gone }

/-- FLR_COMPLETE: the last request of the function has ended (R382). -/
def execFlrComplete (t fn : Nat) (s : State) : Res :=
  let s := s.advance t
  .next (if s.running && s.inFlr fn && (s.reqsOfFn fn).isEmpty then s.flrEnd fn else s)

/-- FLR_TIMEOUT: 10 ms after initiation the steps still running stop, and the reset completes (R382). -/
def execFlrTimeout (t fn : Nat) (s : State) : Res :=
  let s := s.advance t
  match (s.fnOf fn).flr with
  | some t0 =>
    if !s.running || s.now < t0 + 10000000 then .next s else
    .next (((s.reqsOfFn fn).foldl (fun s k => (s.settleStaged k).freeSlot k) s).flrEnd fn)
  | none => .next s

/-- Virtual functions enabled on the module. -/
def State.vfTotal (s : State) : Nat := (s.fns.map fun e => if e.2.vfEnable then e.2.numVfs else 0).foldl (· + ·) 0

/-- VF_ENABLE_WRITE: VF Enable of a physical function, with the NumVFs written before it (R337). -/
def execVfEnableWrite (t fn : Nat) (enable : Bool) (numVfs : Nat) (s : State) : Res :=
  let s := s.advance t
  let x := s.fnOf fn
  if !s.reach fn || fnVf fn != 0 then .next s
  else if !enable then .next (if x.vfEnable then s.vfClear fn else s)
  else if x.vfEnable then .next s
  else if numVfs ≤ 63 && s.vfTotal + numVfs ≤ 252 then .next (s.updFn fn fun x => { x with vfEnable := true, numVfs := numVfs })
  else .next (s.emit { kind := 0x12, sev := 2, site := 8 + fnPort fn, fn := some fn, count := numVfs, detail := fn % 16 })

/-! ## Ports (R371, R383, R475) -/

/-- A reset of a port: every function of it, and for the owner port the admin rings and the Aperture base (R371, R480). `last` is RST_PORT.LAST. -/
def State.portReset (s : State) (p last : Nat) : State :=
  let s := (List.range (s.pfCount p)).foldl (fun s k => s.flrFn (fnId p k 0)) s
  let s := if p = s.ownerPort then { s with admin := {} } else s
  (s.updPort p fun x => { x with linkUp := false, last := last }).satField Reg.rstCounts 63 48 1

/-- PORT_FUNDAMENTAL_RESET: PERST_N of the port falls (R475). -/
def execPortFundamentalReset (t port : Nat) (s : State) : Res :=
  let s := s.advance t
  if !decide (port < s.member.ports) then .next s
  else
    let s := s.updPort port fun x => { x with perst := true }
    .next (if s.running then s.portReset port 1 else s)

/-- PORT_HOT_RESET (R475). -/
def execPortHotReset (t port : Nat) (s : State) : Res :=
  let s := s.advance t
  .next (if s.running && decide (port < s.member.ports) && (s.port port).linkUp then s.portReset port 2 else s)

/-- PORT_LINK_DOWN: the link leaves L0 for Detect (R475). -/
def execPortLinkDown (t port : Nat) (s : State) : Res :=
  let s := s.advance t
  .next (if s.running && decide (port < s.member.ports) && (s.port port).linkUp then s.portReset port 3 else s)

/-! ## Module and cold reset (R475, R476, R480) -/

/-- Whether a register survives a module reset (domain S). -/
def stickyReg (off : Nat) : Bool := match regAt off with | some (r, _) => r.dom == .sticky | none => false

/-- The state while a module or cold reset lasts: what R480 keeps, all else as after reset. -/
def State.resetBody (s : State) (cold : Bool) : State :=
  let gp := if cold then [] else SMap.mapVals s.gal.ports fun _ (p : GalPort) => ({ replayed := p.replayed, e2e := p.e2e } : GalPort)
  let st := match s.store.write with
    | some w => if w.waiting then s.store else s.store.failWrite
    | none => s.store
  { State.reset with
    member := s.member, fuses := s.fuses
    store := { st with write := none, held := [] }
    ownerPort := s.ownerPort, bifurc := s.bifurc
    regs := if cold then [] else s.regs.filter fun e => stickyReg e.1
    ports := SMap.mapVals s.ports fun _ (p : Port) => ({ perst := p.perst } : Port)
    gal := { ports := gp }
    power := { phase := s.power.phase, since := s.power.since, enOpen := s.power.enOpen, vin := s.power.vin, vmin := s.power.vin, warn := s.power.warn,
               overrun := s.power.overrun, hold := s.power.hold, thermal := s.power.thermal.filter fun c => c.kind != 4,
               tripped := s.power.tripped, modrst := s.power.modrst }
    hostMem := s.hostMem, fresh := s.fresh, out := s.out, pending := s.pending }

/-- Begins a module reset (R476). -/
def State.moduleReset (s : State) (byPin : Bool) : State :=
  let s := (s.resetBody false).satField Reg.rstCounts 15 0 1
  (s.setRegN Reg.rstCause (if byPin then 2 else 3)) |> fun s => { s with rst := some { start := s.now, byPin := byPin } }

/-- The module leaves reset: the boot ROM runs (R476, R494). -/
def State.resetEnd (s : State) : State := { s with rst := none, newel := {} }.boot

/-- MODULE: RST_CMD OP MODULE (R476, R483). -/
def execModule (t fn key : Nat) (s : State) : Res :=
  let s := s.advance t
  if !(s.reach fn && s.isOwner fn) || key != 0x5A then .next s
  else if bitW (s.reg Reg.rstLock) 0 then .next (s.orReg Reg.rstStatus 0)
  else .next (s.moduleReset false)

/-- MODRST_N_ASSERT: a low pulse of MODRST_N, with the width that it reaches (R476, R525). A pulse of 150 ns to 200 ns is taken or not. -/
def execModrstNAssert (t widthNs : Nat) (s : State) : Res :=
  let s := s.advance t
  if widthNs < 150 then .next s else
  let fr := s.takeFresh
  let s := if widthNs < 200 then fr.2 else s
  if widthNs < 200 && !Config.modrstTaken fr.1 then .next s else
  match s.power.phase with
  | .up =>
    let s := s.updPower fun p => { p with tripped := false, modrst := true }
    if (match s.rst with | some x => x.cold | none => false) then .next s else .next (s.moduleReset true)
  | .off => .next s
  | .qualify => .next (s.updPower fun p => { p with modrst := true })
  | .charge => .next (s.updPower fun p => { p with modrst := true })
  | .rails => .next (s.updPower fun p => { p with modrst := true })

/-- A reset that the pin started lasts at least 10 µs from its falling edge (R476); the start of a cold one has passed it. -/
def ResetRun.served (x : ResetRun) (now : Nat) : Bool := !x.byPin || x.cold || decide (x.start + 10000 ≤ now)

/-- MODRST_N_RELEASE: MODRST_N rises; a reset that it holds ends (R476, R529). -/
def execModrstNRelease (t : Nat) (s : State) : Res :=
  let s := (s.advance t).updPower fun p => { p with modrst := false }
  match s.rst with
  | some x => .next (if x.byPin && s.power.phase == .up && x.served s.now then s.resetEnd else s)
  | none => .next s

/-- MODULE_RESET_END: the 10 ms of a reset that the command started have passed, or the 10 µs of one whose pin rose before (R476). -/
def execModuleResetEnd (t : Nat) (s : State) : Res :=
  let s := s.advance t
  match s.rst with
  | some x => .next (if s.power.modrst || !x.served s.now then s else s.resetEnd)
  | none => .next s

/-- SUPPLY_RESET: the input falls through 50.0 V, or EN_N opens: a cold reset; the start sequence begins again at event 1 (R465, R527 to R529). -/
def execSupplyReset (t vin : Nat) (enOpen : Bool) (s : State) : Res :=
  let s := s.advance t
  if !enOpen && 5000 ≤ vin then .next s else
  let s := { s with power := { s.power with warn := none, overrun := none, hold := none, thermal := [], tripped := false } }.resetBody true
  .next (s.updPower fun p => { p with phase := .off, since := s.now, enOpen := enOpen, vin := vin, vmin := vin, modrst := false })

/-- POWER_OK: the rails are within limits; the boot ROM starts, or the module waits for MODRST_N (R527, R529). -/
def execPowerOk (t : Nat) (s : State) : Res :=
  let s := s.advance t
  if s.power.phase != .rails then .next s else
  let s := s.updPower fun p => { p with phase := .up, since := s.now }
  .next (if s.power.modrst then { s with rst := some { start := s.now, byPin := true, cold := true } } else s.resetEnd)

/-- DIE_TRIP: a junction at 115 °C or a stack at 105 °C: the links go down and the record reaches the log alone (R532, R534). -/
def execDieTrip (t site temp : Nat) (s : State) : Res :=
  let s := s.advance t
  if s.power.phase != .up || s.power.tripped || !(sitePresent s.member site && decide ((if site < 16 then 115 else 105) ≤ temp)) then .next s else
  let s := { s with ports := SMap.mapVals s.ports fun _ p => { p with linkUp := false }
                    gal := { s.gal with ports := SMap.mapVals s.gal.ports fun _ p => { p with state := 0, lanes := 0 } } }
  let s := s.updPower fun p => { p with tripped := true, thermal := p.thermal ++ [{ kind := 4, site := site, start := s.now, peak := temp }] }
  .next (s.thermalRec 4 site temp 0)

/-! ## Partition reset (R384, R477) -/

/-- Ends one request of the partition with CANCELLED_BY_RESET; a consolidation stops between batches (R208). -/
def State.resetOne (s : State) (slot : Nat) : State :=
  match s.req? slot with
  | none => s
  | some r =>
    if r.opc = 0x13 && (r.cur.isSome || r.phase = .commit) && r.doubt = 0 then s.setReq slot { r with ending := some (r.ending.getD 0x31) }
    else s.stopReq slot 0x31

/-- Step 3 of R384: sync counters, caches and prefix entries of the partition go; armed injections on its landings clear (R551). -/
def State.resetStores (s : State) (p : Nat) : State :=
  let ls := s.partLands p
  let s := s.prefDrop fun e => e.part == p
  { s with
    syncs := SMap.mapVals s.syncs fun _ x => if x.live && x.part = p then { x with live := false, gen := (x.gen + 1) % 256 } else x
    objs := { s.objs with caches := s.objs.caches.filter fun e => e.part != p }
    lands := SMap.mapVals s.lands fun l x => if ls.contains l then { x with injRes := none, injEcc := none } else x }

/-- Whether a physical landing's Wing lies in the partition: by the logical ID it last served (R446). -/
def State.physIn (s : State) (p : Nat) (x : Phys) : Bool :=
  match x.last with | some l => (s.partLands p).contains l | none => false

/-- PARTITION: RST_CMD OP PARTITION (R384, R477). -/
def execPartition (t fn p key : Nat) (s : State) : Res :=
  let s := s.advance t
  if !(s.reach fn && s.isOwner fn) || key != 0 || 16 ≤ p then .next s
  else if !bitW (s.reg (Reg.partCtrl p)) 0 || (s.part p).resetting then .next (s.wakeDormant.orReg Reg.rstStatus 0)
  else
    let s := s.wakeDormant.updPart p fun x => { x with resetting := true, resetDone := false, backlog := [] }
    let s := (s.inOrder (SMap.keysOf s.reqs fun _ r => r.part == p)).foldl State.resetOne s
    let s := s.resetStores p
    let s := { s with flt := { s.flt with phys := SMap.mapVals s.flt.phys fun _ x => if x.state = 2 && s.physIn p x then { x with state := 3 } else x } }
    .next (s.satField Reg.rstCounts 31 16 1)

/-- PARTITION_RESET_COMPLETE: steps 2 to 4 are done: every request has ended, no landing is in self-test, no processor restarts (R384, R479). Processors that were
revived fence the partition no more (R477). -/
def execPartitionResetComplete (t p : Nat) (s : State) : Res :=
  let s := s.advance t
  let busy := s.reqs.any (fun e => e.2.part == p) || s.flt.phys.any (fun e => e.2.state == 3 && s.physIn p e.2)
    || (memberProcs s.member).any fun i => (s.proc i).state == 2
  .next (if s.running && (s.part p).resetting && !busy
    then s.updPart p fun x => { x with resetDone := true, fencedBy := x.fencedBy.filter fun i => (s.proc i).state == 3 } else s)

/-- PROCESSOR: RST_CMD OP PROCESSOR (R478). -/
def execProcessor (t fn proc key : Nat) (s : State) : Res :=
  let s := s.advance t
  if !(s.reach fn && s.isOwner fn) || key != 0 then .next s
  else if proc = 4 || !s.procRuns proc then .next (s.wakeDormant.orReg Reg.rstStatus 0)
  else .next (s.wakeDormant.procRestart proc [] [] false)

/-! ## The Aperture window (R341) -/

/-- The device address of an Aperture offset. -/
def State.aptAddr (s : State) (off : Nat) : Nat := bitsW s.admin.aptBase 39 21 * 2097152 + off

/-- APERTURE_WRITE: a T2 write, ignored beyond the last HBM byte. -/
def execApertureWrite (t fn off : Nat) (data : List Byte) (s : State) : Res :=
  let s := s.advance t
  .next (if s.reach fn && s.isOwner fn && decide (off + data.length ≤ 2 ^ 36) then s.wakeDormant.devWrite (s.aptAddr off) data else s)

/-- APERTURE_READ: HBM data, all ones beyond it; a line with an uncorrectable error answers Completer Abort and is recorded. -/
def execApertureRead (t fn off len : Nat) (badLine : Option Nat) (s : State) : Res :=
  let s := s.advance t
  if !(s.reach fn && s.isOwner fn && decide (off + len ≤ 2 ^ 36)) then .next s else
  let s := s.wakeDormant
  let a := s.aptAddr off
  match badLine with
  | some b => .next ((s.send (.aptData fn off none)).emit { kind := 0x11, sev := 2, site := 8 + fnPort fn, fn := some fn, addr := b })
  | none =>
    let n := min len (s.member.hbmBytes - a)
    .next (s.send (.aptData fn off (some (s.t2 a n ++ List.replicate (len - n) 0xFF#8))))

end Sys2Proof.Machine
end

