-- ==== Sys2Proof/Machine/Spdm.lean ====
section
/-! DEFINITION. The SPDM responder and DOE Discovery (18 R487 to R490, R502). Codes and layouts of the DMTF and PCI-SIG standards that the spec names are PRESUMED (log entry 30). -/

namespace Sys2Proof.Machine

open Sys2Proof

/-- A transport's number in SpdmState: a mailbox by its physical function's ID, MCTP as 16. -/
def spdmKey : SpdmEnd → Nat
  | .doe pf => pf
  | .mctp => 16

/-- Whether requests reach a transport: its bit of SEC_SPDM_CTRL is set, and a mailbox is in its function's capability list (R487). -/
def State.spdmOpen (s : State) : SpdmEnd → Bool
  | .doe pf => decide (pf < 16) && s.reach pf && bitW (s.reg Reg.secSpdmCtrl) (4 * fnPort pf + fnPf pf) && !(s.fnOf pf).doeAbsent
  | .mctp => s.running && bitW (s.reg Reg.secSpdmCtrl) 16

/-- Negotiation stage of a transport (0 none, 1 versions read, 2 capabilities, 3 algorithms) plus 16 × SPDM version. -/
def State.spdmStage (s : State) (e : SpdmEnd) : Nat := SMap.at s.spdm.stage (spdmKey e) 0
def State.spdmVer (s : State) (e : SpdmEnd) : Nat := let v := s.spdmStage e / 16; if v = 0 then 0x10 else v

/-- Sends a response, keeping the transcript and SEC_SPDM_COUNT (R489, R502). -/
def State.spdmSend (s : State) (e : SpdmEnd) (req rsp : Blob) : State :=
  let err := Blob.u8 rsp 1 == 0x7F
  let x := s.spdm
  let x := { x with answered := satAdd 32 x.answered 1, errors := satAdd 32 x.errors (b2n err)
                    transcript := if err then x.transcript else SMap.put x.transcript (spdmKey e) (SMap.at x.transcript (spdmKey e) [] ++ req ++ rsp) }
  { s with spdm := x }.send (.spdm e rsp)

/-- An ERROR response. -/
def State.spdmError (s : State) (e : SpdmEnd) (req : Blob) (code data : Nat) : State :=
  s.spdmSend e req (leBytes 1 (s.spdmVer e) ++ leBytes 1 0x7F ++ leBytes 1 code ++ leBytes 1 data)

/-- What every request meets first (R489): a failed MFP-0 answers nothing and sets DOE Error, one that restarts or a module without firmware is Busy. -/
def State.spdmServe (s : State) (e : SpdmEnd) (req : Blob) (body : State → State) : State :=
  if !s.spdmOpen e then s
  else if (s.proc 4).state = 3 then (match e with | .doe pf => s.send (.doeError pf) | .mctp => s)
  else if s.fw.state != 3 || !s.procRuns 4 then s.spdmError e req 0x03 0
  else body s

/-- A request that negotiation must precede: one before it is unexpected, one of another version is refused. -/
def State.spdmAfter (s : State) (e : SpdmEnd) (req : Blob) (stage : Nat) (body : State → State) : State :=
  if s.spdmStage e % 16 < stage then s.spdmError e req 0x04 0
  else if Blob.u8 req 0 != s.spdmVer e then s.spdmError e req 0x41 0
  else body s

def State.spdmAt (s : State) (e : SpdmEnd) (v : Nat) : State := { s with spdm := { s.spdm with stage := SMap.put s.spdm.stage (spdmKey e) v } }

/-- SPDM_GET_VERSION: versions 1.2 and 1.3 (R488); a transcript begins. -/
def execSpdmGetVersion (t : Nat) (ep : SpdmEnd) (s : State) : Res :=
  let s := s.advance t
  let req : Blob := [0x10#8, 0x84#8, 0#8, 0#8]
  .next (s.spdmServe ep req fun s =>
    let s := { s with spdm := { s.spdm with transcript := SMap.del s.spdm.transcript (spdmKey ep), stage := SMap.put s.spdm.stage (spdmKey ep) 1 } }
    s.spdmSend ep req [0x10#8, 0x04#8, 0#8, 0#8, 0#8, 2#8, 0x00#8, 0x12#8, 0x00#8, 0x13#8])

/-- SPDM_GET_CAPABILITIES: CERT_CAP, CHAL_CAP and MEAS_CAP = 2 (R488); timing and sizes are free. -/
def execSpdmGetCapabilities (t : Nat) (ep : SpdmEnd) (req : List Byte) (s : State) : Res :=
  let s := s.advance t
  .next (s.spdmServe ep req fun s =>
    let v := Blob.u8 req 0
    if s.spdmStage ep % 16 < 1 then s.spdmError ep req 0x04 0
    else if v != 0x12 && v != 0x13 then s.spdmError ep req 0x41 0
    else
      let fr := s.takeFresh
      let b := Config.spdmBody 1 req fr.1
      (fr.2.spdmAt ep (16 * v + 2)).spdmSend ep req
        (leBytes 1 v ++ [0x61#8, 0#8, 0#8, 0#8] ++ Blob.slice b 0 1 ++ zeros 2 ++ leBytes 4 0x16 ++ Blob.slice b 1 8))

/-- SPDM_NEGOTIATE_ALGORITHMS: SM2 and SM3 (R488); a request that does not offer them is invalid. -/
def execSpdmNegotiateAlgorithms (t : Nat) (ep : SpdmEnd) (req : List Byte) (s : State) : Res :=
  let s := s.advance t
  .next (s.spdmServe ep req fun s => s.spdmAfter ep req 2 fun s =>
    if !bitN (Blob.u32 req 8) 9 || !bitN (Blob.u32 req 12) 6 then s.spdmError ep req 0x01 0
    else
      (s.spdmAt ep (16 * Blob.u8 req 0 + 3)).spdmSend ep req
        (leBytes 1 (Blob.u8 req 0) ++ [0x63#8, 0#8, 0#8] ++ leBytes 2 36 ++ [1#8, 0#8] ++ leBytes 4 0x80 ++ leBytes 4 0x200 ++ leBytes 4 0x40 ++ zeros 16))

/-- The device public key, derived at every start from the fused secret (R485), and its SM3 (R502). -/
def State.devicePublic (s : State) : Blob := sm2Public (deviceKey s.fuses.secret)
def State.deviceKeyHash (s : State) : Blob := sm3 s.devicePublic
/-- The certificate chain of slot 0 (R486): root, intermediate, device certificate, behind the chain's length and the root's digest (log entry 30). -/
def State.certChain (s : State) : Blob :=
  let cs := Config.rootCert ++ Config.familyCert ++ Config.deviceCert s.fuses.serial s.member.sites s.fuses.behaviour s.devicePublic
  leBytes 2 (36 + cs.length) ++ zeros 2 ++ sm3 Config.rootCert ++ cs
def State.chainHash (s : State) : Blob := sm3 s.certChain

/-- SPDM_GET_DIGESTS: slot 0 only (R488). -/
def execSpdmGetDigests (t : Nat) (ep : SpdmEnd) (req : List Byte) (s : State) : Res :=
  let s := s.advance t
  .next (s.spdmServe ep req fun s => s.spdmAfter ep req 3 fun s =>
    s.spdmSend ep req (leBytes 1 (Blob.u8 req 0) ++ [0x01#8, 0#8, 1#8] ++ s.chainHash))

/-- SPDM_GET_CERTIFICATE: a portion of the chain of slot 0 (R486, R488). -/
def execSpdmGetCertificate (t : Nat) (ep : SpdmEnd) (req : List Byte) (s : State) : Res :=
  let s := s.advance t
  .next (s.spdmServe ep req fun s => s.spdmAfter ep req 3 fun s =>
    let off := Blob.u16 req 4
    let len := s.certChain.length
    if Blob.u8 req 2 % 16 != 0 || len ≤ off then s.spdmError ep req 0x01 0
    else
      let n := min (Blob.u16 req 6) (len - off)
      s.spdmSend ep req (leBytes 1 (Blob.u8 req 0) ++ [0x02#8, 0#8, 0#8] ++ leBytes 2 n ++ leBytes 2 (len - off - n) ++ Blob.slice s.certChain off n))

/-- CRC words of index 12, in slot order, with 0 for each empty slot (R490). -/
def State.unitCrcs (s : State) : Blob :=
  let crc := fun (l : Loader) (d : Prog → Nat) i => leBytes 4 (match SMap.find l.done i with | some p => d p | none => 0)
  (List.range 256).flatMap (crc s.units.mp Prog.digest) ++ (List.range 48).flatMap (fun i => crc s.units.walk Prog.walkDigest (16 + i))
    ++ (List.range 8).flatMap fun i => leBytes 4 (match SMap.find s.units.norms i with | some b => Blob.u32 b 60 | none => 0)

/-- The value of a measurement (R490). -/
def State.measurement (s : State) (i : Nat) : Blob :=
  let img := s.fw.image
  if i = 1 then Config.romDigest
  else if i = 2 then sm3 (s.fuses.rootHash ++ leBytes 4 s.member.sites ++ leBytes 4 s.fuses.behaviour ++ leBytes 4 s.fuses.stepping)
  else if i ≤ 8 then
    match (imgSegs img).find? fun g => g.kind == i - 2 with
    | some g => sm3 (Blob.slice img g.off g.len)
    | none => sm3 []
  else if i = 9 then sm3 (Blob.slice img 0 512)
  else if i = 10 then s.store.active.digest
  else if i = 11 then leBytes 4 s.store.floor
  else sm3 s.unitCrcs

/-- A measurement block in DMTF form; its value type is free, the raw bit aside. -/
def State.measBlock (s : State) (i : Nat) : Blob :=
  let v := s.measurement i
  let ty := Blob.u8 (Config.spdmBody 2 [BitVec.ofNat 8 i] 0) 0 % 128 + (if i = 11 then 128 else 0)
  leBytes 1 i ++ [1#8] ++ leBytes 2 (v.length + 3) ++ leBytes 1 ty ++ leBytes 2 v.length ++ v

/-- Ends a response with its nonce, and a signature with the device key over the transcript where one is asked for (R485, R488). -/
def State.spdmSigned (s : State) (e : SpdmEnd) (req rsp tail : Blob) (sign : Bool) : State :=
  let fr := s.takeFresh
  let rsp := rsp ++ Blob.slice (Config.spdmBody 3 req fr.1) 0 32 ++ tail ++ (if Blob.u8 req 0 = 0x13 then Blob.slice req 36 8 else [])
  let sig := if sign then sm2Sign (deviceKey s.fuses.secret) ((List.range 8).map fun i => (Config.signNonce fr.1 i).toNat)
    (Config.signedForm (SMap.at s.spdm.transcript (spdmKey e) [] ++ req ++ rsp)) else []
  fr.2.spdmSend e req (rsp ++ sig)

/-- SPDM_CHALLENGE: signed with the device key (R485, R488). -/
def execSpdmChallenge (t : Nat) (ep : SpdmEnd) (req : List Byte) (s : State) : Res :=
  let s := s.advance t
  .next (s.spdmServe ep req fun s => s.spdmAfter ep req 3 fun s =>
    if Blob.u8 req 2 % 16 != 0 then s.spdmError ep req 0x01 0
    else
      let sum := if Blob.u8 req 3 = 0 then [] else sm3 ((List.range 11).flatMap fun i => s.measurement (i + 1))
      s.spdmSigned ep req (leBytes 1 (Blob.u8 req 0) ++ [0x03#8, 0#8, 1#8] ++ s.chainHash) (sum ++ zeros 2) true)

/-- SPDM_GET_MEASUREMENTS: the count, all twelve, or one block (R490). -/
def execSpdmGetMeasurements (t : Nat) (ep : SpdmEnd) (req : List Byte) (s : State) : Res :=
  let s := s.advance t
  .next (s.spdmServe ep req fun s => s.spdmAfter ep req 3 fun s =>
    let op := Blob.u8 req 3
    let blocks := if op = 0 then [] else if op = 0xFF then (List.range 12).map (· + 1) else [op]
    if op != 0xFF && 12 < op then s.spdmError ep req 0x01 0
    else
      let body := blocks.flatMap s.measBlock
      s.spdmSigned ep req (leBytes 1 (Blob.u8 req 0) ++ [0x60#8] ++ leBytes 1 (if op = 0 then 12 else 0) ++ [0#8] ++ leBytes 1 blocks.length
        ++ leBytes 3 body.length ++ body) (zeros 2) (bitN (Blob.u8 req 2) 0))

/-- SPDM_UNSUPPORTED: ERROR UnsupportedRequest (R488). -/
def execSpdmUnsupported (t : Nat) (ep : SpdmEnd) (req : List Byte) (s : State) : Res :=
  let s := s.advance t
  .next (s.spdmServe ep req fun s => s.spdmError ep req 0x07 (Blob.u8 req 1))

/-- DOE_DISCOVERY: the mailbox carries Discovery and SPDM, vendor 0x0001 (R487). -/
def execDoeDiscovery (t fn index : Nat) (s : State) : Res :=
  let s := s.advance t
  if fnVf fn != 0 || !s.spdmOpen (.doe fn) then .next s
  else if (s.proc 4).state = 3 then .next (s.send (.doeError fn))
  else
    let w := if index = 0 then 0x01000001 else if index = 1 then 0x00010001 else 0x0000FFFF
    .next (s.send (.doe fn (leBytes 4 w)))

end Sys2Proof.Machine
end

