-- ==== Sys2Proof/Machine/Registers.lean ====
section
/-! DEFINITION. What a register reads as (`State.regRead`), and REGISTER_WRITE: visibility, access types, locks, ranges, and the values held for a boundary (00 R3, R8, R11 to R13, R547; 12 R364 to R366, R370; 19 R514). -/

namespace Sys2Proof.Machine

open Sys2Proof

/-! ## Offsets and visibility -/

/-- The offset in the layout of a physical function: a virtual function has CNT_ at 0x8000 (R340). -/
def canonOff (f off : Nat) : Option Nat :=
  if fnVf f = 0 then some off
  else if off < 0x1000 || (0x2000 ≤ off && off < 0x6000) then some off
  else if 0x8000 ≤ off && off < 0x9000 then some (0x60000 + (off - 0x8000))
  else none

/-- Partitions whose counters a function may read (R514), as a mask. -/
def State.cntParts (s : State) (f : Nat) : Nat :=
  if s.isOwner f then 65535
  else
    let b := s.bind f
    let ps := if bitW b 0 then bitsW b 31 16 else 0
    if fnVf f = 0 then ps else ps &&& s.regN Reg.cntUser % 65536

/-- Whether a function sees the block at an offset (R12, R370, R514). -/
def State.sees (s : State) (f o : Nat) : Bool :=
  let own := s.isOwner f
  if o < 0x1000 then true
  else if 0x2000 ≤ o && o < 0x6000 then own || !(0x2020 ≤ o && o < 0x2048)
  else if 0x60000 ≤ o && o < 0x61000 then fnVf f = 0 || s.cntParts f != 0
  else if 0x30000 ≤ o && o < 0x31000 then fnVf f = 0
  else own

/-- Registers that name what the member or the function does not have: they read as zero and ignore writes (R3, R119, R413, R432, R484). -/
def absentReg (m : Member) (f : Nat) (r : RegRow) (i : Nat) : Bool :=
  if r.off = Reg.memAlcPin 0 then m.alcoves ≤ i
  else if r.off = Reg.memPcSet 0 then m.halls ≤ i % 8
  else if r.off = Reg.galPort 0 || r.off = Reg.galPortCtrl 0 || r.off = Reg.galErr 0 then m.galPorts ≤ i
  else if r.off = Reg.fltHall 0 then m.halls ≤ i
  else if r.off = Reg.rstPort 0 then m.ports ≤ i
  else if r.off = Reg.txtReplaced 0 || r.off = Reg.txtStops 0 then m.vestibules ≤ i
  else if r.off = Reg.irqMod 0 then vecCount f ≤ i
  else if r.off = Reg.irqMsixTable 0 then vecCount f ≤ i
  else if r.off = Reg.irqMsixPba 0 then fnVf f != 0 && 2 ≤ i
  else if r.off = Reg.partSpec 0 then !m.speculates
  else if r.off = Reg.fwProc 0 || r.off = Reg.fwWdog 0 then !(memberProcs m).contains i
  else false

/-! ## Reads -/

/-- The 32-bit word i of a byte string, word 0 holding bytes 0 to 3. -/
def Blob.word (b : Blob) (i : Nat) : Nat := Blob.u32 b (4 * i)

/-- IDX_STATE to IDX_BUILT of index i (R210). -/
def State.idxReg (s : State) (i k : Nat) : Nat :=
  let x := s.index i
  match k with
  | 0 => x.state + shl (x.gen % 256) 8 + (if x.state = 0 then 0 else shl x.metric 16)
  | 1 => if x.state = 0 then 0 else
      x.dimD % 2048 + shl x.dimC 11 + shl x.m 20 + shl x.r 26 + shl x.nRooms 33 + shl x.fmt 55
  | 2 => if x.state = 0 then 0 else x.budget
  | 3 => x.slots
  | 4 => if x.state = 2 || x.state = 3 then x.live s.objs.epoch else 0
  | 5 => x.spill.length
  | 6 => (x.rooms.map fun e => e.2.length - 1).foldl (· + ·) 0
  | _ => x.built

/-- PART_STATE (R147, R384, R429). -/
def State.partState (s : State) (p : Nat) : Nat :=
  let x := s.part p
  let c := s.reg (Reg.partCtrl p)
  let n := s.inFlight p
  (if !bitW c 0 then 0 else if x.resetting then 4 else if !x.fencedBy.isEmpty then 5
    else if bitW c 1 && x.owner.isSome then 3 else if n = 0 then 1 else 2) + shl (min 65535 n) 16

/-- PWR_STATE and the gated units (R469, R471, R482). -/
def State.pwrState (s : State) : Nat :=
  (if s.power.dormant then 3 else if !s.power.wings.isEmpty then 2 else if s.lands.any fun e => e.2.gated then 1 else 0)
    + shl s.power.depth 2 + shl (min (2 ^ 24 - 1) s.power.tol) 8

def State.pwrGated (s : State) : Nat :=
  s.power.wings.foldl (fun m w => m ||| 2 ^ w) 0 ||| ((List.range 4).filter s.alcRetained).foldl (fun m a => m ||| 2 ^ (48 + a)) 0

/-- FLT_LANDING and FLT_HALL (R454, R456). -/
def State.fltLanding (s : State) : Nat :=
  let w := s.reg Reg.fltSel
  let x := s.phys (physKey (bitsW w 10 8) (bitsW w 5 0))
  if s.member.halls ≤ bitsW w 10 8 || 52 ≤ bitsW w 5 0 then 0 else
  x.state + shl (x.logical.getD 0x1FF) 4 + shl x.gen 16 + shl (min 15 (s.inWindow x.residues).length) 24 + shl (min 15 (s.inWindow x.eccs).length) 28
def State.fltTotals (s : State) : Nat :=
  let w := s.reg Reg.fltSel
  let x := s.phys (physKey (bitsW w 10 8) (bitsW w 5 0))
  x.resTotal + shl x.eccTotal 32
def State.fltHall (s : State) (h : Nat) : Nat :=
  let dead := ((List.range 52).filter fun p => (s.phys (physKey h p)).state == 2).length
  let ret := (s.flt.retired.filter fun g => dieOfAddr s.member (g * 2097152) == h).length
  (s.idleSpares h).length + shl dead 4 + shl (s.shortCount h) 16 + shl (min 255 ret) 24

/-- TXT_VOCAB: resident vocabularies in the order of the lowest model number that has each (R160, R173). -/
def State.txtVocab (s : State) (i : Nat) : Nat :=
  match s.vocabularies[i]? with
  | some v =>
    let m := Blob.u8 v 20
    1 + shl (m % 8) 1 + shl (bitsN m 4 4) 4 + shl (bitsN m 6 5) 5 + shl (Blob.u32 v 4 % 2 ^ 21) 7
      + shl (min 15 (s.objs.models.filter fun e => e.2.vocab == v).length) 28 + shl (Blob.u32 v 60) 32
  | none => 0

/-- TEN_STATE of the selected tenant (R378). -/
def State.tenState (s : State) (t : Nat) : Nat :=
  let mine := s.reqs.filter fun e => e.2.tenant == t && e.2.peer.isNone
  let wait := (mine.filter fun e => e.2.phase == .waiting && s.check5 e.2.desc == 1).length
  let run := (mine.filter fun e => e.2.phase != .waiting).length
  min 65535 run + shl (min 65535 wait) 16

/-- STORE_ registers (R491, R500, R501). -/
def State.storeReg (s : State) (k : Nat) : Nat :=
  let st := s.store
  match k with
  | 0 => b2n st.activeB + shl (b2n st.a.isSome) 1 + shl (b2n st.b.isSome) 2 + shl (b2n st.noConfig) 3 + shl (b2n st.mirrorFloor.isSome) 4
      + shl (b2n (st.write.any fun w => w.waiting)) 5 + shl (b2n st.write.isSome) 6
  | 1 => st.active.seq
  | 2 => st.tokens
  | 3 => st.due
  | 4 => st.refused
  | 5 => ((st.logged - 1) / 1023) % 512 + shl (match st.log.head? with | some e => e.1 | none => 0) 32
  | _ => max st.erasesA st.erasesB + shl ((st.logged - 1) / 523776) 32

/-- NEWEL_STATE and NEWEL_TREAD_NOW (R407, R409, R411, R412). -/
def State.newelState (s : State) : Nat :=
  let n := s.newel
  n.servo + shl (b2n n.holdLong) 2 + shl (match n.holdFrom with | some h => min (2 ^ 24 - 1) ((n.time - h) / 1000000000) | none => 0) 8
def State.treadNow (s : State) : Nat :=
  let n := s.newel
  n.len / 1000 + (match n.pend with | some k => shl (k / 1000) 16 + 2 ^ 31 | none => 0)
/-- A signed value of 32 bits, saturating. -/
def sat32 (x : Int) : Nat := (BitVec.ofInt 32 (max (-2147483648) (min 2147483647 x))).toNat

/-- The landing of a function's CNT_SEL, none where it may not read it (R514). -/
def State.cntLanding (s : State) (f : Nat) : Option Landing :=
  let l := (s.fnOf f).cntSel
  if s.member.landings ≤ l then none
  else if s.isOwner f then some (s.land l)
  else match s.landPart l with
    | some p => if bitN (s.cntParts f) p then some (s.land l) else none
    | none => none

/-- Per-landing registers of the CNT_ block (R505, R506, R513, R515). -/
def State.cntReg (s : State) (f o : Nat) : Nat :=
  match s.cntLanding f with
  | none => 0
  | some l =>
    let c := l.cnt
    if o = Reg.cntCycle then c.cycles s.now % 2 ^ 64
    else if o = Reg.cntOvf then c.ovf
    else if o < Reg.cntProg 0 then SMap.at c.evsel ((o - Reg.cntEvsel 0) / 8) 0
    else if o < Reg.cntSnapCycle then SMap.at c.prog ((o - Reg.cntProg 0) / 8) 0
    else if o = Reg.cntSnapCycle then c.snapCyc % 2 ^ 64
    else if o < Reg.cntSampleCfg then SMap.at c.snapProg ((o - Reg.cntSnapProg 0) / 8) 0
    else if o = Reg.cntSampleCfg then c.smpCfg
    else if o = Reg.cntSampleHead then c.head + shl (b2n c.wrapped) 10 + shl (b2n c.lost) 11 + shl c.total 32
    else Blob.u64 (SMap.at c.entries (s.fnOf f).sampleIdx []) (8 * ((o - Reg.cntSampleEntry 0) / 8))

/-- Blocks ID_ to IRQ_ (R8, R364 to R366, R431). -/
def State.liveLow (s : State) (f o : Nat) (r : RegRow) (i : Nat) : Option Nat :=
  let x := s.fnOf f
  if o < 0x1000 then
    if o = Reg.idStepping then some s.fuses.stepping
    else if o = Reg.idBehaviour then some s.fuses.behaviour
    else if o = Reg.idIfVersion then some (if s.fw.state = 3 || s.fw.state = 5 then s.fw.ifVer else 0)
    else if o = Reg.idSerial then some s.fuses.serial
    else none
  else if o < 0x2000 then
    if o = Reg.fwState then some s.fw.state
    else if o = Reg.fwError then some (s.fw.code + shl (b2n s.fw.ignored) 4)
    else if o = Reg.fwRelease then some s.fw.release
    else if o = Reg.fwSvn then some s.fw.svn
    else if o = Reg.fwSvnFloor then some s.store.floor
    else if r.off = Reg.fwProc 0 then some (s.procWord i)
    else none
  else if o < 0x3000 then
    let g := s.ring f i
    if o = Reg.ringCaps then some (if fnVf f = 0 then 0x02004840 else 0x00824840)
    else if o = Reg.ringFunc then
      let b := s.bind f
      some (f % 1024 + shl (b2n (fnVf f != 0)) 10 + shl (b2n (s.isOwner f)) 11 + (if bitW b 0 then shl (bitsW b 31 16) 16 else 0))
    else if o = Reg.ringStatus then some x.status.toNat
    else if o = Reg.ringDbErrors then some x.dbErrors
    else if o = Reg.ringAptBase then some s.admin.aptBase.toNat
    else if o = Reg.ringAdminSq then some s.admin.sq.toNat
    else if o = Reg.ringAdminCq then some s.admin.cq.toNat
    else if o = Reg.ringAdminState then some (s.admin.sqDev + shl s.admin.cqDev 16 + shl (b2n s.admin.cqPhase) 32)
    else if r.off = Reg.ringBase 0 then some g.base.toNat
    else if r.off = Reg.ringCfg 0 then some g.cfg.toNat
    else if r.off = Reg.ringIndex 0 then some (g.host + shl g.dev 16 + shl (b2n g.phase) 32)
    else if r.off = Reg.ringShadow 0 then some g.shadow.toNat
    else none
  else
    if o = Reg.irqCaps then some (if fnVf f = 0 then 256 else 65)
    else if r.off = Reg.irqMod 0 then some (s.vec f i).mod.toNat
    else if r.off = Reg.irqMsixTable 0 then some (s.vec f i).entry.toNat
    else if r.off = Reg.irqMsixPba 0 then
      some (((List.range 64).filter fun j => (s.vec f (64 * i + j)).pend).foldl (fun m j => m + 2 ^ j) 0)
    else none

/-- Blocks PART_ to NEWEL_ (R147, R378, R412). -/
def State.livePart (s : State) (o : Nat) (r : RegRow) (i : Nat) : Option Nat :=
  if o < 0x20000 then
    if o = Reg.partSyncFree then some (32768 - (s.syncs.filter fun e => e.2.live).length)
    else if r.off = Reg.partState 0 then some (s.partState i)
    else if r.off = Reg.partSyncUse 0 then some (s.syncUse i)
    else none
  else if o < 0x30000 then
    let t := bitsW (s.reg Reg.tenSel) 11 0
    let x := s.tenant t
    if o = Reg.tenCfg then some x.cfg.toNat
    else if o = Reg.tenRate then some x.rate.toNat
    else if o = Reg.tenBal then some (sat32 x.own + shl (x.surplus % 2 ^ 32) 32)
    else if o = Reg.tenCharged then some x.charged
    else if o = Reg.tenState then some (s.tenState t)
    else if o = Reg.tenRefused then some x.refused
    else if r.off = Reg.tenBind 0 then some (s.bind i).toNat
    else none
  else
    if o = Reg.newelTime then some s.now
    else if o = Reg.newelFrac then some s.newel.fracReg
    else if o = Reg.newelState then some s.newelState
    else if o = Reg.newelOffset then some (sat32 s.newel.offset)
    else if o = Reg.newelMac then some s.fuses.mac
    else if o = Reg.newelMaster then some (s.newel.master.getD 0)
    else if o = Reg.newelTreadNow then some s.treadNow
    else if o = Reg.newelTreads then some s.newel.treads
    else none

/-- Blocks PWR_, RST_, FLT_ and CNT_ (R454, R482, R483, R515). -/
def State.livePower (s : State) (f o : Nat) (r : RegRow) (i : Nat) : Option Nat :=
  if o < 0x48000 then
    let p := s.power
    if o = Reg.pwrSupply then some (p.vin % 65536 + shl (p.iin % 65536) 16 + shl (p.watts % 8192) 32 + shl (b2n p.warn.isSome) 48 + shl (b2n (decide (p.capStep < 16))) 49)
    else if o = Reg.pwrMin then some (p.vmin % 65536)
    else if o = Reg.pwrState then some s.pwrState
    else if o = Reg.pwrGated then some s.pwrGated
    else none
  else if o < 0x50000 then
    if o = Reg.rstBusy then
      some (((List.range 16).filter fun q => (s.part q).resetting).foldl (fun m q => m + 2 ^ q) 0
        + shl (min 65535 (s.fns.filter fun e => e.2.flr.isSome).length) 16)
    else if r.off = Reg.rstPort 0 then let q := s.port i; some (b2n q.linkUp + shl (b2n q.perst) 1 + shl q.last 4)
    else none
  else if o < 0x60000 then
    if o = Reg.fltWithheld then some s.flt.withheld
    else if o = Reg.fltStale then some s.flt.stale
    else if o = Reg.fltLogDropped then some s.flt.dropped
    else if o = Reg.fltLogSeq then some s.flt.seq
    else if o = Reg.fltLanding then some s.fltLanding
    else if o = Reg.fltLandingTotals then some s.fltTotals
    else if o = Reg.fltEdge then some s.flt.edges
    else if r.off = Reg.fltHall 0 then some (s.fltHall i)
    else none
  else
    let x := s.fnOf f
    if o = Reg.cntState then some (b2n s.cnt.frozen + shl s.cnt.snapSeq 16)
    else if o = Reg.cntSnapTime then some s.cnt.snapTime
    else if o = Reg.cntSel then some x.cntSel
    else if o = Reg.cntSampleIdx then some x.sampleIdx
    else if r.off = Reg.cntPart 0 then some (if bitN (s.cntParts f) (i / 8) then SMap.at s.cnt.part i 0 else 0)
    else if r.off = Reg.cntSnapPart 0 then some (if bitN (s.cntParts f) (i / 8) then SMap.at s.cnt.snapPart i 0 else 0)
    else if 0x60100 ≤ o && o < 0x60300 then some (s.cntReg f o)
    else none

/-- Blocks SFU_ to SEC_ (R90, R118, R173, R210, R403, R501, R502). -/
def State.liveHigh (s : State) (o : Nat) (r : RegRow) (i : Nat) : Option Nat :=
  let u := s.units
  let bits := fun (m : SMap Prog) (n : Nat) => ((List.range 32).filter fun j => (SMap.find m (32 * n + j)).isSome).foldl (fun a j => a + 2 ^ j) 0
  if o < 0x80000 then
    if o = Reg.sfuMpStatus then some u.mp.status
    else if o = Reg.sfuMpDigest then some (match SMap.find u.mp.done (bitsW (s.reg Reg.sfuMpSel) 7 0) with | some p => p.digest | none => 0)
    else if o = Reg.sfuTblStatus then some u.tbl.status
    else if r.off = Reg.sfuSlotValid 0 then some (bits u.mp.done i)
    else if o = Reg.sfuTblValid then some (bits u.tbl.done 0)
    else none
  else if o < 0x90000 then
    let g := s.gal
    if o = Reg.galId then some (g.moduleId + shl (g.ownGen % 256) 8 + shl (g.groupTag % 2 ^ 32) 32)
    else if o = Reg.galStale then some g.stale
    else if r.off = Reg.galPort 0 then let q := s.galPort i; some (q.state + shl (q.peer % 16) 8 + shl (q.peerPort % 16) 12 + shl (q.lanes % 256) 16)
    else if r.off = Reg.galErr 0 then let q := s.galPort i; some (shl q.replayed 32 + shl q.e2e 48)
    else if r.off = Reg.galPeer 0 then let q := s.peer i; some (q.state + shl (q.hops % 4) 4 + shl (q.port % 16) 8 + shl (q.expGen % 256) 16)
    else none
  else if o < 0xA0000 then
    let n := bitsW (s.reg Reg.memWalkSel) 5 0
    if o = Reg.memWalkStatus then some u.walk.status
    else if o = Reg.memWalkDigest then
      some (match s.walker n with | some p => p.walkDigest | none => 0)
    else if r.off = Reg.memWalkValid 0 then some ((bits u.walk.done i) ||| (if i = 0 then 65535 else 0))
    else if r.off = Reg.memPcSet 0 && 128 ≤ i then some (s.pcSet 16 (i - 128))
    else none
  else if o < 0xB0000 then
    if o = Reg.idxEpoch then some s.objs.epoch
    else if o = Reg.idxOldestSnap then some (s.snapshots.foldl min s.objs.epoch)
    else if o = Reg.idxSlotsUsed then some s.slotsUsed
    else if o = Reg.idxTombUsed then some s.tombsUsed
    else if Reg.idxState 0 ≤ o then some (s.idxReg i ((o - Reg.idxState 0) % 256 / 8))
    else none
  else if o < 0xC0000 then
    if o = Reg.txtNormStatus then some u.normStatus
    else if r.off = Reg.txtNormVersion 0 then some (match SMap.find u.norms i with | some b => Blob.u32 b 8 | none => 0)
    else if r.off = Reg.txtNormDigest 0 then some (match SMap.find u.norms i with | some b => Blob.u32 b 60 | none => 0)
    else if r.off = Reg.txtVocab 0 then some (s.txtVocab i)
    else none
  else if o < 0xD0000 then
    if o = Reg.storeStatus then some (s.storeReg 0)
    else if o = Reg.storeSeq then some (s.storeReg 1)
    else if r.off = Reg.storeDigest 0 then some (if s.store.noConfig then 0 else Blob.word s.store.active.digest i)
    else if o = Reg.storeTokens then some (s.storeReg 2)
    else if o = Reg.storeNext then some (s.storeReg 3)
    else if o = Reg.storeRefused then some (s.storeReg 4)
    else if o = Reg.storeLog then some (s.storeReg 5)
    else if o = Reg.storeErases then some (s.storeReg 6)
    else if r.off = Reg.storeAsset 0 then some (Blob.word (s.store.active.entry 5) i)
    else none
  else
    if r.off = Reg.secRootHash 0 then some (Blob.word s.fuses.rootHash i)
    else if r.off = Reg.secIdHash 0 then some (if bitW (s.reg Reg.secState) 3 then Blob.word s.deviceKeyHash i else 0)
    else if o = Reg.secSpdmCount then some (s.spdm.answered + shl s.spdm.errors 32)
    else if o = Reg.secDebug then some (b2n s.fuses.debugOpen)
    else none

/-- The value of a register that follows the state, none for one that holds what was stored. -/
def State.live (s : State) (f o : Nat) (r : RegRow) (i : Nat) : Option Nat :=
  if o < 0x10000 then s.liveLow f o r i else if o < 0x40000 then s.livePart o r i else if o < 0x70000 then s.livePower f o r i else s.liveHigh o r i

/-- What a function reads at the start of a register of its Control window (R12, R547): zero outside what it sees, for WO registers, and for what the member lacks. -/
def State.regRead (s : State) (f off : Nat) : Nat :=
  match canonOff f off with
  | none => 0
  | some o =>
    if !s.sees f o then 0 else
    match regAt o with
    | none => 0
    | some (r, i) =>
      if r.access = .wo || absentReg s.member f r i then 0 else
      match s.live f o r i with
      | some v => v % 2 ^ r.width
      | none => s.regN o % 2 ^ r.width

/-! ## Writes -/

/-- The lock register of the block at an offset; IDX_, STORE_, ID_, RING_ and IRQ_ have none. -/
def lockOf (o : Nat) : Option Nat :=
  if o < 0x1000 then none
  else if o < 0x2000 then some Reg.fwLock
  else if o < 0x10000 then none
  else if o < 0x20000 then some Reg.partLock
  else if o < 0x30000 then some Reg.tenLock
  else if o < 0x40000 then some Reg.newelLock
  else if o < 0x48000 then some Reg.pwrLock
  else if o < 0x50000 then some Reg.rstLock
  else if o < 0x60000 then some Reg.fltLock
  else if o < 0x70000 then some Reg.cntLock
  else if o < 0x80000 then some Reg.sfuLock
  else if o < 0x90000 then some Reg.galLock
  else if o < 0xA0000 then some Reg.memLock
  else if o < 0xB0000 then none
  else if o < 0xC0000 then some Reg.txtLock
  else if o < 0xD0000 then none
  else some Reg.secLock

/-- Ranges outside which a write is ignored (R59, R89, R90, R118, R210, R366, R403, R412, R431, R455, R482; log entry 37 for those whose table gives a range alone). -/
def State.valueOk (s : State) (r : RegRow) (v : Word) : Bool :=
  let rng := fun (hi lo a b : Nat) => decide (a ≤ bitsW v hi lo) && decide (bitsW v hi lo ≤ b)
  let o := r.off
  if o = Reg.sfuCompat 0 then bitsW v 1 0 != 3
  else if o = Reg.sfuMpSel then rng 14 8 0 65
  else if o = Reg.memOutstanding 0 then rng 10 0 64 1024
  else if o = Reg.memLend then rng 7 4 1 15 && rng 11 8 1 8
  else if o = Reg.memStair then rng 2 1 1 2 && rng 7 4 0 6
  else if o = Reg.memScrub then rng 7 0 1 255 && rng 15 8 1 255
  else if o = Reg.idxWarn then rng 6 0 1 100 && rng 14 8 1 100
  else if o = Reg.irqMod 0 then rng 7 0 1 255
  else if o = Reg.galLoss then rng 19 0 50 100000
  else if o = Reg.galPart 0 then rng 3 0 1 15
  else if o = Reg.newelPpsOut then rng 9 0 1 900
  else if o = Reg.fwWdog 0 then rng 9 0 1 1000
  else if o = Reg.fltPolicy then rng 3 0 1 15 && rng 7 4 1 15 && rng 23 8 10 60000 && rng 31 24 1 255
  else if o = Reg.pwrRamp then rng 7 0 16 128 && bitsW v 7 0 % 16 == 0
  else if o = Reg.pwrCap then rng 12 0 1000 s.member.sustainedW
  else if o = Reg.pwrCtrl then rng 15 8 1 255
  else if o = Reg.ringAdminSq || o = Reg.ringAdminCq then !bitW v 0 || rng 8 4 4 10
  else true

/-- The block-level effect of a W1C write. -/
def State.writeClear (s : State) (f o : Nat) (v : Word) : State :=
  if o = Reg.ringStatus then s.updFn f fun x => { x with status := x.status &&& ~~~v }
  else if o = Reg.cntOvf then
    let l := (s.fnOf f).cntSel
    if l < s.member.landings then s.updLand l fun x => { x with cnt := { x.cnt with ovf := x.cnt.ovf &&& (255 - bitsW v 7 0) } } else s
  else s.setReg o (s.reg o &&& ~~~v)

/-- A write of a schedule entry's control word: a T already past when EN is written is late (R511). -/
def State.writeSched (s : State) (o j : Nat) (v : Word) : State :=
  let late := bitW v 0 && decide (s.regN (Reg.cntSchedTime j) < s.now)
  let m := s.cnt.late &&& (15 - 2 ^ j)
  { s with cnt := { s.cnt with late := if late then m ||| 2 ^ j else m } }.setReg o v

/-- A write to an admin ring's register: enabling a ring sets its indices to 0 and its phase to 1 (R363, R365). -/
def Admin.write (a : Admin) (o : Nat) (v : Word) : Admin :=
  if o = Reg.ringAptBase then { a with aptBase := v }
  else if o = Reg.ringAdminSq then (if bitW v 0 && !bitW a.sq 0 then { a with sq := v, sqHost := 0, sqDev := 0 } else { a with sq := v })
  else if bitW v 0 && !bitW a.cq 0 then { a with cq := v, cqHost := 0, cqDev := 0, cqPhase := true }
  else { a with cq := v }

/-- A write to a RW or RWL register that no command of its own covers, masked to its writable bits. A write of SFU_MP_SEL or MEM_WALK_SEL keeps the staged words, which a commit keeps too, and clears the
overflow mark (DESIGN CHOICE, log entry 60). -/
def State.writePlain (s : State) (f o : Nat) (r : RegRow) (i : Nat) (v : Word) : State :=
  if some o = lockOf o then s.setReg o (s.reg o ||| v)
  else if o = Reg.ringAptBase || o = Reg.ringAdminSq || o = Reg.ringAdminCq then { s with admin := s.admin.write o v }
  else if r.off = Reg.ringBase 0 then s.setRing f i { s.ring f i with base := v }
  else if r.off = Reg.ringShadow 0 then s.setRing f i { s.ring f i with shadow := v }
  else if r.off = Reg.irqMod 0 then s.setVec f i { s.vec f i with mod := v }
  else if o = Reg.cntSel then s.updFn f fun x => { x with cntSel := v.toNat }
  else if o = Reg.cntSampleIdx then s.updFn f fun x => { x with sampleIdx := v.toNat }
  else if o = Reg.cntSampleCfg then
    let l := (s.fnOf f).cntSel
    if l < s.member.landings then s.updLand l fun x => { x with cnt := { x.cnt with smpCfg := v.toNat } } else s
  else if r.off = Reg.cntSchedCtrl 0 then s.writeSched o i v
  else if r.off = Reg.sfuCompat 0 || r.off = Reg.memAlcWays 0 || o = Reg.cntUser then s.stage o v
  else if o = Reg.sfuMpSel then (s.setReg o v).updUnits fun u => { u with mp := { u.mp with overrun := false } }
  else if o = Reg.memWalkSel then
    (s.setReg o v).updUnits fun u => { u with walk := { u.walk with overrun := false, staged := SMap.del u.walk.staged 127 } }
  else if r.off = Reg.galPortCtrl 0 then
    let s := s.setReg o v
    if !bitW v 0 && (s.galPort i).state != 0 then s.galDown i 0 else s
  else if r.off = Reg.galExportCfg 0 then (if bitW (s.reg (Reg.galExportBase i)) 0 then s else s.setReg o v)
  else if o = Reg.secSpdmCtrl then s.setRegN o (v.toNat &&& spdmMask s.member)
  else s.setReg o v

/-- Whether a function may write a register: the owner, or any function that sees one of its own registers (R12, R364, R366, R370, R514); RWL registers only
while the block is unlocked. -/
def State.mayWrite (s : State) (f o : Nat) (r : RegRow) : Bool :=
  s.sees f o && (s.isOwner f || (0x2000 ≤ o && o < 0x6000) || o == Reg.cntSel || o == Reg.cntSampleIdx)
    && (r.access != .rwl || (match lockOf o with | some l => !bitW (s.reg l) 0 | none => true))

/-- A write with no command of its own. -/
def State.plainWrite (s : State) (f o : Nat) (r : RegRow) (i : Nat) (v : Word) : State :=
  let m := v &&& BitVec.ofNat 64 r.mask
  if !s.mayWrite f o r || absentReg s.member f r i then s
  else match r.access with
    | .ro => s
    | .wo => s
    | .w1c => s.writeClear f o m
    | .rw => if s.valueOk r v then s.writePlain f o r i m else s
    | .rwl => if s.valueOk r v then s.writePlain f o r i m else s

/-- The MSI-X table: four or eight bytes of an entry; clearing the mask sends a pending message (R361, R362). -/
def State.msixWrite (s : State) (f off size : Nat) (v : Word) : State :=
  let n := (off - Reg.irqMsixTable 0) / 16
  let b := 8 * ((off - Reg.irqMsixTable 0) % 16)
  if vecCount f ≤ n || !((size == 4 && off % 4 == 0) || (size == 8 && off % 8 == 0)) then s else
  let x := s.vec f n
  let e := BitVec.ofNat 128 (putBits x.entry.toNat (b + 8 * size - 1) b v.toNat)
  let s := s.setVec f n { x with entry := e }
  if x.masked && !e.getLsbD 96 then s.unmask f n else s

/-- The command of its own that a write to a register is, with the new value of the whole register. -/
def regCommand (t f o : Nat) (r : RegRow) (i : Nat) (v : Word) : Option (State → Res) :=
  if r.off = Reg.ringCfg 0 then some (execRingCfgWrite t f i v)
  else if o = Reg.irqForce then some (execIrqForce t f v)
  else if o = Reg.ringAdminDb then some (execAdminDoorbell t f v)
  else if o = Reg.fwCmd then some (execFwStart t f v)
  else if partOff o then some (execPartRegisterWrite t f o v)
  else if o = Reg.tenCfg || o = Reg.tenRate || r.off = Reg.tenBind 0 then some (execTenRegisterWrite t f o v)
  else if o = Reg.tenRefill then some (execTenRefill t f v)
  else if o = Reg.newelTread then some (execNewelTreadWrite t f v)
  else if o = Reg.newelCtrl then some (execNewelCtrlWrite t f v)
  else if o = Reg.pwrCmd then (match v.toNat with | 1 => some (execClearMin t f) | 2 => some (execWake t f) | _ => none)
  else if o = Reg.rstCmd then
    (match bitsW v 3 0 with
      | 1 => some (execModule t f (bitsW v 31 24))
      | 2 => some (execPartition t f (bitsW v 11 8) (bitsW v 31 24))
      | 3 => some (execProcessor t f (bitsW v 11 8) (bitsW v 31 24))
      | _ => none)
  else if o = Reg.fltCmd then (if bitsW v 3 0 = 1 then some (execDeclareLandingDead t f (bitsW v 26 24) (bitsW v 21 16)) else none)
  else if o = Reg.fltInject then
    (match bitsW v 11 9 with
      | 1 => some (execInjectResidue t f (bitsW v 8 0) (bitW v 12))
      | 2 => some (execInjectEcc t f (bitsW v 8 0) (bitW v 12))
      | _ => none)
  else if o = Reg.cntCmd then
    (match bitsW v 2 0 with
      | 1 => some (execFreeze t f) | 2 => some (execUnfreeze t f) | 3 => some (execSnapshot t f) | 4 => some (execClear t f) | _ => none)
  else if r.off = Reg.cntEvsel 0 then some (execEvselWrite t f i v)
  else if o = Reg.sfuMpData then some (execMpDataWrite t f v)
  else if o = Reg.sfuMpCmd then (match v.toNat with | 1 => some (execMpCommit t f) | 2 => some (execMpClear t f) | _ => none)
  else if o = Reg.sfuTblData then some (execTblDataWrite t f v)
  else if o = Reg.sfuTblCmd then (match v.toNat with | 1 => some (execTblCommit t f) | 2 => some (execTblClear t f) | _ => none)
  else if o = Reg.galCmd then
    (match bitsW v 3 0 with
      | 1 => some (execRetrainPort t f (bitsW v 11 8))
      | 2 => some (execDeclarePeerLost t f (bitsW v 19 16))
      | _ => none)
  else if o = Reg.memEccClear then some (execEccCountClear t f v)
  else if r.off = Reg.memAlcPin 0 then some (execAlcPinWrite t f i v)
  else if r.off = Reg.memPinRegion 0 then some (execPinRegionWrite t f i v)
  else if r.off = Reg.memPcSet 0 then some (execPcSetWrite t f (i / 8) (i % 8) v)
  else if o = Reg.memWalkData then some (execWalkDataWrite t f v)
  else if o = Reg.memWalkCmd then (match v.toNat with | 1 => some (execWalkCommit t f) | 2 => some (execWalkClear t f) | _ => none)
  else if o = Reg.txtNormCmd then (match v.toNat with | 1 => some (execNormCommit t f) | 2 => some (execNormClear t f) | _ => none)
  else none

/-- The register a write names and the value it gives the whole of it: a write of four bytes changes one half of a wide register and keeps the other as it reads. Of a register that waits for a boundary, that
is the value in force: a pending write of the other half gives way (DESIGN CHOICE, log entries 37 and 61). -/
def State.regTarget (s : State) (f o size : Nat) (v : Word) : Option (RegRow × Nat × Nat × Word) :=
  let wide := fun (base : Nat) (r : RegRow) (i : Nat) (hi lo : Nat) =>
    let old := if r.access = .w1c || r.access = .wo then 0 else s.regRead f base
    some (r, i, base, BitVec.ofNat 64 (putBits old hi lo (v.toNat % 2 ^ 32)))
  match regAt o with
  | some (r, i) =>
    if size = 8 || r.width ≤ 32 then (if 4 ≤ size then some (r, i, o, if r.width ≤ 32 then v &&& 0xFFFFFFFF else v) else none)
    else if size = 4 then wide o r i 31 0 else none
  | none =>
    match regAt (o - 4) with
    | some (r, i) => if size = 4 && 4 ≤ o && r.width == 64 then wide (o - 4) r i 63 32 else none
    | none => none

/-- REGISTER_WRITE (R12): a write in the Control window. One to a register whose row is a command of its own runs as that command. Outside the ID_, RING_
and IRQ_ blocks a write of a physical function starts an exit from Dormant (R473). -/
def execRegisterWrite (t fn off size : Nat) (value : Word) (s : State) : Res :=
  let s := s.advance t
  match canonOff fn off with
  | none => .next s
  | some o =>
    if !s.reach fn then .next s else
    let s := if fnVf fn = 0 && !(o < 0x1000 || (0x2000 ≤ o && o < 0x6000)) then s.wakeDormant else s
    if Reg.irqMsixTable 0 ≤ o && o < Reg.irqMsixTable 256 then .next (s.msixWrite fn o size value)
    else match s.regTarget fn o size value with
      | none => .next s
      | some (r, i, b, v) =>
        match regCommand t fn b r i v with
        | some c => c s
        | none => .next (s.plainWrite fn b r i v)

end Sys2Proof.Machine
end

