-- ==== Sys2Proof/Machine/Dispatch.lean ====
section
/-! DEFINITION. The meaning of each command: one arm for each constructor of Instr. -/

namespace Sys2Proof.Machine

def exec (i : Instr) (s : State) : Host.Outcome State Fault Refusal :=
  match i with
  | .doorbellWrite t fn off size value pub => Sys2Proof.Machine.execDoorbellWrite t fn off size value pub s
  | .descriptorFetchError t fn ring => Sys2Proof.Machine.execDescriptorFetchError t fn ring s
  | .embed t fn ring => Sys2Proof.Machine.execEmbed t fn ring s
  | .retrieve t fn ring => Sys2Proof.Machine.execRetrieve t fn ring s
  | .generate t fn ring => Sys2Proof.Machine.execGenerate t fn ring s
  | .tokenize t fn ring => Sys2Proof.Machine.execTokenize t fn ring s
  | .detokenize t fn ring => Sys2Proof.Machine.execDetokenize t fn ring s
  | .indexInsert t fn ring => Sys2Proof.Machine.execIndexInsert t fn ring s
  | .indexDelete t fn ring => Sys2Proof.Machine.execIndexDelete t fn ring s
  | .indexSetAttr t fn ring => Sys2Proof.Machine.execIndexSetAttr t fn ring s
  | .indexConsolidate t fn ring => Sys2Proof.Machine.execIndexConsolidate t fn ring s
  | .indexBuildBegin t fn ring => Sys2Proof.Machine.execIndexBuildBegin t fn ring s
  | .indexBuildAdd t fn ring => Sys2Proof.Machine.execIndexBuildAdd t fn ring s
  | .indexBuildFinish t fn ring => Sys2Proof.Machine.execIndexBuildFinish t fn ring s
  | .indexBuildAbort t fn ring => Sys2Proof.Machine.execIndexBuildAbort t fn ring s
  | .recallProbe t fn ring => Sys2Proof.Machine.execRecallProbe t fn ring s
  | .tableGather t fn ring => Sys2Proof.Machine.execTableGather t fn ring s
  | .tableAdd t fn ring => Sys2Proof.Machine.execTableAdd t fn ring s
  | .tableWrite t fn ring => Sys2Proof.Machine.execTableWrite t fn ring s
  | .tableCreate t fn ring => Sys2Proof.Machine.execTableCreate t fn ring s
  | .tableDestroy t fn ring => Sys2Proof.Machine.execTableDestroy t fn ring s
  | .tableInfo t fn ring => Sys2Proof.Machine.execTableInfo t fn ring s
  | .tableStep t fn ring => Sys2Proof.Machine.execTableStep t fn ring s
  | .modelLoad t fn ring => Sys2Proof.Machine.execModelLoad t fn ring s
  | .modelUnload t fn ring => Sys2Proof.Machine.execModelUnload t fn ring s
  | .indexUnload t fn ring => Sys2Proof.Machine.execIndexUnload t fn ring s
  | .expertSetUnload t fn ring => Sys2Proof.Machine.execExpertSetUnload t fn ring s
  | .steeringSetUnload t fn ring => Sys2Proof.Machine.execSteeringSetUnload t fn ring s
  | .grammarUnload t fn ring => Sys2Proof.Machine.execGrammarUnload t fn ring s
  | .sessionOpen t fn ring => Sys2Proof.Machine.execSessionOpen t fn ring s
  | .sessionClose t fn ring => Sys2Proof.Machine.execSessionClose t fn ring s
  | .syncAdd t fn ring => Sys2Proof.Machine.execSyncAdd t fn ring s
  | .syncCreate t fn ring => Sys2Proof.Machine.execSyncCreate t fn ring s
  | .syncDestroy t fn ring => Sys2Proof.Machine.execSyncDestroy t fn ring s
  | .syncWait t fn ring => Sys2Proof.Machine.execSyncWait t fn ring s
  | .cancel t fn ring => Sys2Proof.Machine.execCancel t fn ring s
  | .cancelComplete t slot => Sys2Proof.Machine.execCancelComplete t slot s
  | .syncAfterRingEffect t slot => Sys2Proof.Machine.execSyncAfterRingEffect t slot s
  | .sessionCloseComplete t slot => Sys2Proof.Machine.execSessionCloseComplete t slot s
  | .objectRelease t slot => Sys2Proof.Machine.execObjectRelease t slot s
  | .treadBoundary homes => Sys2Proof.Machine.execTreadBoundary homes s
  | .deadlineExpiry t slot => Sys2Proof.Machine.execDeadlineExpiry t slot s
  | .syncWaitTimeout t slot => Sys2Proof.Machine.execSyncWaitTimeout t slot s
  | .decodeBatchThreshold t landing shard => Sys2Proof.Machine.execDecodeBatchThreshold t landing shard s
  | .taskTake t landing => Sys2Proof.Machine.execTaskTake t landing s
  | .taskComplete t landing step rep => Sys2Proof.Machine.execTaskComplete t landing step rep s
  | .partialArrival t landing msg => Sys2Proof.Machine.execPartialArrival t landing msg s
  | .arcadeStepComplete t slot => Sys2Proof.Machine.execArcadeStepComplete t slot s
  | .checkPassHandover t slot => Sys2Proof.Machine.execCheckPassHandover t slot s
  | .balustradeStep t slot => Sys2Proof.Machine.execBalustradeStep t slot s
  | .indexCommit t slot => Sys2Proof.Machine.execIndexCommit t slot s
  | .consolidationSwitch t slot => Sys2Proof.Machine.execConsolidationSwitch t slot s
  | .roomVersionReclaim t index room => Sys2Proof.Machine.execRoomVersionReclaim t index room s
  | .tableAddApply t slot k => Sys2Proof.Machine.execTableAddApply t slot k s
  | .stagedRowsApply t slot => Sys2Proof.Machine.execStagedRowsApply t slot s
  | .hotRowRebuild t die => Sys2Proof.Machine.execHotRowRebuild t die s
  | .statusBlockWrite t slot => Sys2Proof.Machine.execStatusBlockWrite t slot s
  | .moderationCount t fn vec => Sys2Proof.Machine.execModerationCount t fn vec s
  | .moderationTimeExpiry t fn vec => Sys2Proof.Machine.execModerationTimeExpiry t fn vec s
  | .adminDoorbell t fn value => Sys2Proof.Machine.execAdminDoorbell t fn value s
  | .identify t => Sys2Proof.Machine.execIdentify t s
  | .logRead t => Sys2Proof.Machine.execLogRead t s
  | .snapshotRead t => Sys2Proof.Machine.execSnapshotRead t s
  | .storeWrite t => Sys2Proof.Machine.execStoreWrite t s
  | .selfTest t failed durationUs => Sys2Proof.Machine.execSelfTest t failed durationUs s
  | .raiseFloor t => Sys2Proof.Machine.execRaiseFloor t s
  | .revive t => Sys2Proof.Machine.execRevive t s
  | .configWriteComplete t readBackOk => Sys2Proof.Machine.execConfigWriteComplete t readBackOk s
  | .fwStart t fn value => Sys2Proof.Machine.execFwStart t fn value s
  | .fwImageChecked t => Sys2Proof.Machine.execFwImageChecked t s
  | .fwRunning t => Sys2Proof.Machine.execFwRunning t s
  | .watchdogExpiry t proc regs trace => Sys2Proof.Machine.execWatchdogExpiry t proc regs trace s
  | .processorReady t proc => Sys2Proof.Machine.execProcessorReady t proc s
  | .landingHang t landing => Sys2Proof.Machine.execLandingHang t landing s
  | .selfTestComplete t die phys failed => Sys2Proof.Machine.execSelfTestComplete t die phys failed s
  | .sparePeriodicTest t die phys failed => Sys2Proof.Machine.execSparePeriodicTest t die phys failed s
  | .staleSpeaker t die phys gen count => Sys2Proof.Machine.execStaleSpeaker t die phys gen count s
  | .edgeFenced t edge inFlight => Sys2Proof.Machine.execEdgeFenced t edge inFlight s
  | .patrolScrub t findings => Sys2Proof.Machine.execPatrolScrub t findings s
  | .landingBecomesLender t landing loans => Sys2Proof.Machine.execLandingBecomesLender t landing loans s
  | .functionLevelReset t fn => Sys2Proof.Machine.execFunctionLevelReset t fn s
  | .flrComplete t fn => Sys2Proof.Machine.execFlrComplete t fn s
  | .flrTimeout t fn => Sys2Proof.Machine.execFlrTimeout t fn s
  | .vfEnableWrite t fn enable numVfs => Sys2Proof.Machine.execVfEnableWrite t fn enable numVfs s
  | .portFundamentalReset t port => Sys2Proof.Machine.execPortFundamentalReset t port s
  | .portHotReset t port => Sys2Proof.Machine.execPortHotReset t port s
  | .portLinkDown t port => Sys2Proof.Machine.execPortLinkDown t port s
  | .apertureWrite t fn off data => Sys2Proof.Machine.execApertureWrite t fn off data s
  | .apertureRead t fn off len badLine => Sys2Proof.Machine.execApertureRead t fn off len badLine s
  | .ringCfgWrite t fn ring value => Sys2Proof.Machine.execRingCfgWrite t fn ring value s
  | .msixUnmask t fn vec => Sys2Proof.Machine.execMsixUnmask t fn vec s
  | .irqForce t fn value => Sys2Proof.Machine.execIrqForce t fn value s
  | .mpDataWrite t fn value => Sys2Proof.Machine.execMpDataWrite t fn value s
  | .mpCommit t fn => Sys2Proof.Machine.execMpCommit t fn s
  | .mpClear t fn => Sys2Proof.Machine.execMpClear t fn s
  | .tblDataWrite t fn value => Sys2Proof.Machine.execTblDataWrite t fn value s
  | .tblCommit t fn => Sys2Proof.Machine.execTblCommit t fn s
  | .tblClear t fn => Sys2Proof.Machine.execTblClear t fn s
  | .walkDataWrite t fn value => Sys2Proof.Machine.execWalkDataWrite t fn value s
  | .walkCommit t fn => Sys2Proof.Machine.execWalkCommit t fn s
  | .walkClear t fn => Sys2Proof.Machine.execWalkClear t fn s
  | .normCommit t fn => Sys2Proof.Machine.execNormCommit t fn s
  | .normClear t fn => Sys2Proof.Machine.execNormClear t fn s
  | .eccCountClear t fn value => Sys2Proof.Machine.execEccCountClear t fn value s
  | .alcPinWrite t fn alcove value => Sys2Proof.Machine.execAlcPinWrite t fn alcove value s
  | .pinRegionWrite t fn region value => Sys2Proof.Machine.execPinRegionWrite t fn region value s
  | .pcSetWrite t fn set die value => Sys2Proof.Machine.execPcSetWrite t fn set die value s
  | .partRegisterWrite t fn off value => Sys2Proof.Machine.execPartRegisterWrite t fn off value s
  | .tenRegisterWrite t fn off value => Sys2Proof.Machine.execTenRegisterWrite t fn off value s
  | .tenRefill t fn value => Sys2Proof.Machine.execTenRefill t fn value s
  | .newelTreadWrite t fn value => Sys2Proof.Machine.execNewelTreadWrite t fn value s
  | .treadLengthChange homes => Sys2Proof.Machine.execTreadLengthChange homes s
  | .newelTimeRead t fn => Sys2Proof.Machine.execNewelTimeRead t fn s
  | .retrainPort t fn port => Sys2Proof.Machine.execRetrainPort t fn port s
  | .declarePeerLost t fn peer => Sys2Proof.Machine.execDeclarePeerLost t fn peer s
  | .declareLandingDead t fn die phys => Sys2Proof.Machine.execDeclareLandingDead t fn die phys s
  | .injectResidue t fn landing noCount => Sys2Proof.Machine.execInjectResidue t fn landing noCount s
  | .injectEcc t fn landing noCount => Sys2Proof.Machine.execInjectEcc t fn landing noCount s
  | .module t fn key => Sys2Proof.Machine.execModule t fn key s
  | .partition t fn p key => Sys2Proof.Machine.execPartition t fn p key s
  | .processor t fn proc key => Sys2Proof.Machine.execProcessor t fn proc key s
  | .partitionResetComplete t p => Sys2Proof.Machine.execPartitionResetComplete t p s
  | .moduleResetEnd t => Sys2Proof.Machine.execModuleResetEnd t s
  | .clearMin t fn => Sys2Proof.Machine.execClearMin t fn s
  | .wake t fn => Sys2Proof.Machine.execWake t fn s
  | .freeze t fn => Sys2Proof.Machine.execFreeze t fn s
  | .unfreeze t fn => Sys2Proof.Machine.execUnfreeze t fn s
  | .snapshot t fn => Sys2Proof.Machine.execSnapshot t fn s
  | .clear t fn => Sys2Proof.Machine.execClear t fn s
  | .evselWrite t fn k value => Sys2Proof.Machine.execEvselWrite t fn k value s
  | .scheduledCounterAction t j => Sys2Proof.Machine.execScheduledCounterAction t j s
  | .progCounterWrap t landing k amount => Sys2Proof.Machine.execProgCounterWrap t landing k amount s
  | .sampleWrite t landing entry => Sys2Proof.Machine.execSampleWrite t landing entry s
  | .registerWrite t fn off size value => Sys2Proof.Machine.execRegisterWrite t fn off size value s
  | .modrstNAssert t widthNs => Sys2Proof.Machine.execModrstNAssert t widthNs s
  | .modrstNRelease t => Sys2Proof.Machine.execModrstNRelease t s
  | .ppsInEdge t => Sys2Proof.Machine.execPpsInEdge t s
  | .supplyWarning t vin => Sys2Proof.Machine.execSupplyWarning t vin s
  | .supplyWarningClear t vin => Sys2Proof.Machine.execSupplyWarningClear t vin s
  | .supplyReset t vin enOpen => Sys2Proof.Machine.execSupplyReset t vin enOpen s
  | .overvoltage t vin => Sys2Proof.Machine.execOvervoltage t vin s
  | .overvoltageEnd t vin => Sys2Proof.Machine.execOvervoltageEnd t vin s
  | .inputQualify t vin => Sys2Proof.Machine.execInputQualify t vin s
  | .inputEnable t => Sys2Proof.Machine.execInputEnable t s
  | .chargeComplete t => Sys2Proof.Machine.execChargeComplete t s
  | .powerOk t => Sys2Proof.Machine.execPowerOk t s
  | .powerCapEvaluate t avgW iin => Sys2Proof.Machine.execPowerCapEvaluate t avgW iin s
  | .dieWarn t site temp => Sys2Proof.Machine.execDieWarn t site temp s
  | .dieThrottle t site temp => Sys2Proof.Machine.execDieThrottle t site temp s
  | .coolantHigh t temp => Sys2Proof.Machine.execCoolantHigh t temp s
  | .dieTrip t site temp => Sys2Proof.Machine.execDieTrip t site temp s
  | .leak t => Sys2Proof.Machine.execLeak t s
  | .thermalConditionClear t kind site => Sys2Proof.Machine.execThermalConditionClear t kind site s
  | .landingClockGate t landing => Sys2Proof.Machine.execLandingClockGate t landing s
  | .wingPowerGate t wing => Sys2Proof.Machine.execWingPowerGate t wing s
  | .dormantEntry t => Sys2Proof.Machine.execDormantEntry t s
  | .dormantExitComplete t => Sys2Proof.Machine.execDormantExitComplete t s
  | .storeTokenAdd t => Sys2Proof.Machine.execStoreTokenAdd t s
  | .holdoverLong t => Sys2Proof.Machine.execHoldoverLong t s
  | .sourceTimeout t => Sys2Proof.Machine.execSourceTimeout t s
  | .ptpAnnounce t master rank intervalNs => Sys2Proof.Machine.execPtpAnnounce t master rank intervalNs s
  | .ptpSync t master originNs followUp => Sys2Proof.Machine.execPtpSync t master originNs followUp s
  | .ptpDelayResp t master reqNs respNs => Sys2Proof.Machine.execPtpDelayResp t master reqNs respNs s
  | .galleryLinkTrained t port lanes => Sys2Proof.Machine.execGalleryLinkTrained t port lanes s
  | .galleryLaneLoss t port halfTrains => Sys2Proof.Machine.execGalleryLaneLoss t port halfTrains s
  | .hello t port msg => Sys2Proof.Machine.execHello t port msg s
  | .flitError t port seq => Sys2Proof.Machine.execFlitError t port seq s
  | .replayRequest t port seq => Sys2Proof.Machine.execReplayRequest t port seq s
  | .staleFlitDrop t peer gen count => Sys2Proof.Machine.execStaleFlitDrop t peer gen count s
  | .heartbeatSend t => Sys2Proof.Machine.execHeartbeatSend t s
  | .heartbeat t port peer gen => Sys2Proof.Machine.execHeartbeat t port peer gen s
  | .peerLossTimeout t peer => Sys2Proof.Machine.execPeerLossTimeout t peer s
  | .lossNotice t peer msg => Sys2Proof.Machine.execLossNotice t peer msg s
  | .subRequest t peer msg => Sys2Proof.Machine.execSubRequest t peer msg s
  | .subRequestPool t peer slot pool causes crcOk counts => Sys2Proof.Machine.execSubRequestPool t peer slot pool causes crcOk counts s
  | .t3Read t peer addr len tag => Sys2Proof.Machine.execT3Read t peer addr len tag s
  | .remoteTableAdd t peer msg => Sys2Proof.Machine.execRemoteTableAdd t peer msg s
  | .galleryTimeExchange t peer offset locked => Sys2Proof.Machine.execGalleryTimeExchange t peer offset locked s
  | .spdmGetVersion t ep => Sys2Proof.Machine.execSpdmGetVersion t ep s
  | .spdmGetCapabilities t ep req => Sys2Proof.Machine.execSpdmGetCapabilities t ep req s
  | .spdmNegotiateAlgorithms t ep req => Sys2Proof.Machine.execSpdmNegotiateAlgorithms t ep req s
  | .spdmGetDigests t ep req => Sys2Proof.Machine.execSpdmGetDigests t ep req s
  | .spdmGetCertificate t ep req => Sys2Proof.Machine.execSpdmGetCertificate t ep req s
  | .spdmChallenge t ep req => Sys2Proof.Machine.execSpdmChallenge t ep req s
  | .spdmGetMeasurements t ep req => Sys2Proof.Machine.execSpdmGetMeasurements t ep req s
  | .spdmUnsupported t ep req => Sys2Proof.Machine.execSpdmUnsupported t ep req s
  | .doeDiscovery t fn index => Sys2Proof.Machine.execDoeDiscovery t fn index s
  | .perstNRelease t port => Sys2Proof.Machine.execPerstNRelease t port s
  | .hostLinkTrained t port ltr => Sys2Proof.Machine.execHostLinkTrained t port ltr s
  | .galleryResponse t peer resp crcOk => Sys2Proof.Machine.execGalleryResponse t peer resp crcOk s
  | .peerDirectory t peer dir => Sys2Proof.Machine.execPeerDirectory t peer dir s
  | .ppsOutEdge t => Sys2Proof.Machine.execPpsOutEdge t s
  | .inputCrosses62v t rising vin => Sys2Proof.Machine.execInputCrosses62v t rising vin s
  | .newelCtrlWrite t fn value => Sys2Proof.Machine.execNewelCtrlWrite t fn value s
  | .stillExitComplete t wing => Sys2Proof.Machine.execStillExitComplete t wing s

end Sys2Proof.Machine
end

