-- ==== Sys2Proof/Safety.lean ====
section
/-! DEFINITION. What counts as a safe run: the canonical form of the memories, the parts of State that a frame names, and the vocabulary of the statements. -/

namespace Sys2Proof.Machine

/-- Every host memory and the device memory keep their canonical form. -/
def State.memWf (s : State) : Bool := Memory.wf s.hbm && s.hostMem.all fun e => Memory.wf e.2
/-- Every landing store and the pinned ways of every Alcove die keep their canonical form. -/
def State.storesWf (s : State) : Bool := (s.lands.all fun e => Memory.wf e.2.store) && s.alc.pins.all fun e => Memory.wf e.2

/-- The parts of State that a frame names. `config` is what the member, the fuses and the active store record fix; `clock` is the Newel counter, and `newel` all
of its block beside the counter; `out` is what the module has sent; `pending` the queue of waiting commands. -/
inductive Area where
  | config | regs | staged | clock | newel | power | reset | ports | fns | admin | fw | store | spdm | gal | hostMem | hbm | lands | flt | alc | arcades | cnt | parts
  | tenants | binds | sessions | syncs | reqs | order | objs | units | fresh | out | pending
deriving DecidableEq, Repr

/-- Two states agree on an area. -/
def State.same (s q : State) : Area → Prop
  | .config => q.member = s.member ∧ q.fuses = s.fuses ∧ q.ownerPort = s.ownerPort ∧ q.bifurc = s.bifurc
  | .regs => q.regs = s.regs
  | .staged => q.staged = s.staged
  | .clock => q.newel.time = s.newel.time
  | .newel => { q.newel with time := 0 } = { s.newel with time := 0 }
  | .power => q.power = s.power
  | .reset => q.rst = s.rst
  | .ports => q.ports = s.ports
  | .fns => q.fns = s.fns
  | .admin => q.admin = s.admin
  | .fw => q.fw = s.fw
  | .store => q.store = s.store
  | .spdm => q.spdm = s.spdm
  | .gal => q.gal = s.gal
  | .hostMem => q.hostMem = s.hostMem
  | .hbm => q.hbm = s.hbm
  | .lands => q.lands = s.lands
  | .flt => q.flt = s.flt
  | .alc => q.alc = s.alc
  | .arcades => q.arcades = s.arcades
  | .cnt => q.cnt = s.cnt
  | .parts => q.parts = s.parts
  | .tenants => q.tenants = s.tenants
  | .binds => q.binds = s.binds
  | .sessions => q.sessions = s.sessions
  | .syncs => q.syncs = s.syncs
  | .reqs => q.reqs = s.reqs
  | .order => q.nextOrder = s.nextOrder
  | .objs => q.objs = s.objs
  | .units => q.units = s.units
  | .fresh => q.fresh = s.fresh
  | .out => q.out = s.out
  | .pending => q.pending = s.pending

/-- A state differs from another in the listed areas alone. -/
def State.onlyIn (s q : State) (ks : List Area) : Prop := ∀ a, a ∉ ks → s.same q a

/-- A command completes: it answers a next state, which differs from the state at its arrival time in the listed areas alone, and of which `P` holds. -/
def Does (c : Instr) (s : State) (t : Nat) (ks : List Area) (P : State → Prop) : Prop :=
  ∃ q, exec c s = .next q ∧ (s.advance t).onlyIn q ks ∧ P q

/-- Every register but those at the listed offsets holds what it held. -/
def State.regsBut (s q : State) (offs : List Nat) : Prop := ∀ o, o ∉ offs → q.reg o = s.reg o

/-- Every entry of a sparse map but that of one key is as before. -/
def SMap.but {α : Type} (m m' : SMap α) (k : Nat) : Prop := ∀ j, j ≠ k → SMap.find m' j = SMap.find m j

/-- The state whose host memory a command finds: what DOORBELL_WRITE's host made visible stands in it (R348). -/
def State.hostSees (s : State) : Instr → State
  | .doorbellWrite _ f _ _ _ pub => s.publish f pub
  | _ => s

/-- Everything that a module reset or a cold reset loses is as after power-up, and what it keeps is as before (R475, R476, R480). -/
def State.wiped (s q : State) (cold : Bool) : Prop :=
  q.member = s.member ∧ q.fuses = s.fuses ∧ q.hostMem = s.hostMem ∧ q.out = s.out ∧ q.reqs = [] ∧ q.sessions = [] ∧ q.syncs = [] ∧ q.tenants = [] ∧ q.binds = [] ∧
  q.staged = [] ∧ q.fns = [] ∧ q.admin = {} ∧ q.fw = {} ∧ q.spdm = {} ∧ q.hbm = [] ∧ q.lands = [] ∧ q.alc = {} ∧ q.arcades = [] ∧ q.parts = [] ∧ q.objs = {} ∧ q.units = {} ∧ q.cnt = {} ∧ q.newel = {} ∧
  q.gal.peers = [] ∧ (∀ p, (q.port p).linkUp = false ∧ (q.port p).perst = (s.port p).perst) ∧
  (s.store.write = none → q.store = { s.store with write := none, held := [] }) ∧
  (∀ o, o ∉ [Reg.rstCounts, Reg.rstCause] → q.reg o = if cold = false ∧ stickyReg o = true then s.reg o else regReset s.member o)

/-- The boot ROM has run (R494, R496, R499): the module is out of reset at time 0, its active bank chosen, one token in the bucket, the owner port as the bank's PORT entry names it. -/
def State.booted (s q : State) : Prop :=
  q.rst = none ∧ q.now = 0 ∧ q.store.tokens = 1 ∧ q.store.refused = 0 ∧ q.store.bankA = s.store.bankA ∧ q.store.bankB = s.store.bankB ∧ q.store.log = s.store.log ∧
  (s.store.a = none → s.store.b = none → q.store.noConfig = true ∧ q.gal.enabled = false ∧ q.ownerPort = 0 ∧ q.newel.len = 25000) ∧
  (∀ a, s.store.a = some a → s.store.b = none → q.store.noConfig = false ∧ q.store.activeB = false) ∧
  (∀ b, s.store.b = some b → s.store.a = none → q.store.noConfig = false ∧ q.store.activeB = true) ∧
  (∀ a b, s.store.a = some a → s.store.b = some b → q.store.noConfig = false ∧ q.store.activeB = seqNewer b.seq a.seq) ∧
  bitW (q.reg Reg.secState) 0 = true

/-- The areas that an error record may change: rings, vectors and error counts of functions, host memory, the output, the fault block, the log, FLT_STATUS. -/
def recAreas : List Area := [.fns, .hostMem, .out, .flt, .store, .regs]

/-- One error record was written: the module-wide sequence number has moved by one (R448). -/
def State.recorded (s q : State) : Prop := q.flt.seq = (s.flt.seq + 1) % 2 ^ 32

/-- The owner's write to a register of domain M or C reaches its block. -/
abbrev State.ownerAt (s : State) (t f : Nat) : Prop := (s.advance t).reach f = true ∧ s.isOwner f = true

/-- The row of the opcode table that a descriptor command is: arrival, function, ring, opcode, sub-operation as (offset, value). -/
def descRow : Instr → Option (Nat × Nat × Nat × Nat × Option (Nat × Nat))
  | .embed t f n => some (t, f, n, 0x01, none)
  | .retrieve t f n => some (t, f, n, 0x02, none)
  | .generate t f n => some (t, f, n, 0x03, none)
  | .tokenize t f n => some (t, f, n, 0x04, none)
  | .detokenize t f n => some (t, f, n, 0x05, none)
  | .indexInsert t f n => some (t, f, n, 0x10, none)
  | .indexDelete t f n => some (t, f, n, 0x11, none)
  | .indexSetAttr t f n => some (t, f, n, 0x12, none)
  | .indexConsolidate t f n => some (t, f, n, 0x13, none)
  | .indexBuildBegin t f n => some (t, f, n, 0x14, some (64, 0))
  | .indexBuildAdd t f n => some (t, f, n, 0x14, some (64, 1))
  | .indexBuildFinish t f n => some (t, f, n, 0x14, some (64, 2))
  | .indexBuildAbort t f n => some (t, f, n, 0x14, some (64, 3))
  | .recallProbe t f n => some (t, f, n, 0x15, none)
  | .tableGather t f n => some (t, f, n, 0x20, none)
  | .tableAdd t f n => some (t, f, n, 0x21, some (64, 0))
  | .tableWrite t f n => some (t, f, n, 0x21, some (64, 1))
  | .tableCreate t f n => some (t, f, n, 0x21, some (64, 2))
  | .tableDestroy t f n => some (t, f, n, 0x21, some (64, 3))
  | .tableInfo t f n => some (t, f, n, 0x21, some (64, 4))
  | .tableStep t f n => some (t, f, n, 0x22, none)
  | .modelLoad t f n => some (t, f, n, 0x30, none)
  | .modelUnload t f n => some (t, f, n, 0x31, some (64, 0))
  | .indexUnload t f n => some (t, f, n, 0x31, some (64, 1))
  | .expertSetUnload t f n => some (t, f, n, 0x31, some (64, 2))
  | .steeringSetUnload t f n => some (t, f, n, 0x31, some (64, 3))
  | .grammarUnload t f n => some (t, f, n, 0x31, some (64, 4))
  | .sessionOpen t f n => some (t, f, n, 0x40, none)
  | .sessionClose t f n => some (t, f, n, 0x41, none)
  | .syncAdd t f n => some (t, f, n, 0x50, some (76, 0))
  | .syncCreate t f n => some (t, f, n, 0x50, some (76, 1))
  | .syncDestroy t f n => some (t, f, n, 0x50, some (76, 2))
  | .syncWait t f n => some (t, f, n, 0x51, none)
  | .cancel t f n => some (t, f, n, 0x60, none)
  | _ => none

/-- A descriptor command whose descriptor names its row. -/
def rowOf (d : Blob) (o : Nat) (sub : Option (Nat × Nat)) : Prop := Blob.u8 d 0 = o ∧ ∀ p, sub = some p → Blob.u8 d p.1 = p.2

/-- What admission finds for the front descriptor of ring `n` of function `f` (R121, R345): it is read into the free slot `slot`, and passes checks 1 to 4. -/
structure State.admits (s : State) (f n slot : Nat) : Prop where
  read : s.canRead f n = true
  free : s.freeSlotOf (fnPort f) = some slot
  pass : (s.entered f n slot).admitFail f (s.nextDesc f n) = 0

/-- A descriptor whose opcode byte and flag name a stream finds room in its stream ring for an END record (R306). -/
def State.streamFree (s : State) (f : Nat) (d : Blob) : Prop :=
  Blob.u8 d 0 = 3 → bitN (Blob.u8 d 1) 1 = true → Blob.u32 d 56 < 64 → (s.ring f (Blob.u32 d 56)).live 3 = true → (s.ring f (Blob.u32 d 56)).full = false

/-- The state in which checks 5 and 6 of an accepted descriptor are made. -/
def State.atCheck5 (s : State) (f n slot : Nat) : State := (s.entered f n slot).accepted slot (s.nextDesc f n)

/-- Admission as `State.admits`, and checks 5 and 6 pass at once, with no job before it (R121, R133). -/
structure State.queues (s : State) (f n slot : Nat) : Prop where
  adm    : s.admits f n slot
  job    : (s.atCheck5 f n slot).jobBusy (Blob.u8 (s.nextDesc f n) 0) (descPart (s.nextDesc f n)) = false
  check5 : (s.atCheck5 f n slot).check5 (s.nextDesc f n) = 0
  check6 : ((s.atCheck5 f n slot).check6 f (slotVest slot) (s.nextDesc f n)).1 = 0

/-- The state in which an opcode that is no job takes its effect at admission: checks 5 and 6 have passed. -/
def State.atAct (s : State) (f n slot : Nat) : State := (s.atCheck5 f n slot).check56 slot

/-- A message that the module sent between two states. -/
def State.sent (s q : State) (m : OutMsg) : Prop := ∃ l, q.out = l ++ s.out ∧ m ∈ l

/-- A 64-byte completion entry with a status was written to the host of a function, with Relaxed Ordering clear (byte 4 of R356, R338). -/
def State.posted (s q : State) (f status : Nat) : Prop :=
  ∃ a b, s.sent q (.host f a b false) ∧ b.length = 64 ∧ Blob.u8 b 4 = status % 256

/-- A request whose completion goes out when it ends: not suppressed, its function not under reset and its link up, no peer's sub-request, its stream with room. -/
structure State.closable (s : State) (slot : Nat) (r : Req) : Prop where
  req  : s.req? slot = some r
  live : r.suppress = false
  noFlr : s.inFlr r.fn = false
  own  : r.peer = none
  link : (s.port (fnPort r.fn)).linkUp = true
  room : s.streamBlocked r = false

/-- A closable request with neither doubt nor a lost peer. -/
structure State.sound (s : State) (slot : Nat) (r : Req) : Prop where
  close : s.closable slot r
  sure  : r.doubt = 0
  peers : r.peerLost = false

/-- A request has posted its completion with a status, and its slot is free. -/
def State.ended (s q : State) (slot f status : Nat) : Prop := s.posted q f status ∧ q.req? slot = none

/-- A signal of partition `p` fails: a create beyond the partition's limit or the module's counters, or a handle that names no counter of the partition (R134, R135). -/
def State.signalFails (s : State) (p : Nat) (d : Blob) : Bool :=
  if Blob.u8 d 76 = 1 then decide (bitsW (s.reg (Reg.partSync p)) 15 0 ≤ s.syncUse p) || decide (32768 ≤ (s.syncs.filter fun e => e.2.live).length)
  else (s.syncOf p (signalHandle d)).isNone

/-- The effect of a signal on the counters (R134 to R136): an add saturates at 2^64 - 1, a create takes the lowest counter that is not live, a destroy frees its
counter and moves its generation on; one that fails changes none. -/
def State.signalled (s q : State) (p : Nat) (d : Blob) : Prop :=
  let h := signalHandle d
  let v := Blob.u64 d 64
  (s.signalFails p d = true → q.syncs = s.syncs) ∧
  (s.signalFails p d = false → Blob.u8 d 76 = 0 →
    q.sync (syncIdx h) = { s.sync (syncIdx h) with value := min (2 ^ 64 - 1) ((s.sync (syncIdx h)).value + v) } ∧ ∀ j, j ≠ syncIdx h → q.sync j = s.sync j) ∧
  (s.signalFails p d = false → Blob.u8 d 76 = 1 →
    ∃ i, (s.sync i).live = false ∧ (∀ j, j < i → (s.sync j).live = true) ∧ q.sync i = { s.sync i with live := true, part := p, value := v } ∧
      ∀ j, j ≠ i → q.sync j = s.sync j) ∧
  (s.signalFails p d = false → Blob.u8 d 76 = 2 →
    q.sync (syncIdx h) = { s.sync (syncIdx h) with live := false, gen := ((s.sync (syncIdx h)).gen + 1) % 256 } ∧ ∀ j, j ≠ syncIdx h → q.sync j = s.sync j)

/-- What the end of a request may change beside its own slot: rings and vectors, host memory, the output, its session, its partition, its tasks and their count, its place in an Arcade engine. -/
def endAreas : List Area := [.fns, .hostMem, .out, .reqs, .sessions, .parts, .lands, .cnt, .arcades]
/-- What admission changes: rings, slots, order, the idle time of the module. -/
def admitAreas : List Area := [.fns, .hostMem, .out, .reqs, .order, .power]

/-- MFP-0 takes the admin command at the front of the admin ring: its code is `code` (R363, R424). -/
abbrev State.adminFront (s : State) (code : Nat) : Prop := s.adminReady = true ∧ Blob.u8 s.adminDesc 0 = code

/-- The device address of the next admin completion entry. -/
def State.adminCplAt (s : State) : Nat := s.admin.cqBase + 64 * s.admin.cqDev

/-- The next admin completion entry is posted with a status and the tag of a command (R344, R363): the device index moves by one, and where the entry lies in HBM it reads back. -/
def State.adminPosted (s q : State) (tag status : Nat) : Prop :=
  q.admin.cqDev = (s.admin.cqDev + 1) % s.admin.cqSize ∧ q.admin.cq = s.admin.cq ∧ q.admin.sq = s.admin.sq ∧ q.admin.sqHost = s.admin.sqHost
    ∧ q.admin.cqHost = s.admin.cqHost ∧ q.admin.aptBase = s.admin.aptBase
    ∧ (s.memWf = true → s.adminCplAt + 64 ≤ s.member.hbmBytes → Blob.u8 (Memory.readN q.hbm s.adminCplAt 64) 4 = status % 256
        ∧ Blob.u32 (Memory.readN q.hbm s.adminCplAt 64) 0 = tag % 2 ^ 32)

/-- Every byte of the device memory outside the listed stretches (address, length) is as before. -/
def State.hbmOutside (s q : State) (l : List (Nat × Nat)) : Prop := ∀ a, (∀ r ∈ l, a < r.1 ∨ r.1 + r.2 ≤ a) → Memory.read q.hbm a = Memory.read s.hbm a

/-- The front admin command is taken and answered at once with a status; beside its completion entry it writes at most the first n bytes at its result address. -/
def State.adminDone (s q : State) (status n : Nat) : Prop :=
  s.adminPosted q (Blob.u32 s.adminDesc 4) status ∧ q.admin.sqDev = (s.admin.sqDev + 1) % s.admin.sqSize ∧
    s.hbmOutside q [(s.adminCplAt, 64), (Blob.u64 s.adminDesc 40, n)]

/-- An admin command's result of n bytes at its result address reads back, where it lies in HBM and apart from the completion entry. -/
def State.adminResult (s q : State) (b : Blob) : Prop :=
  let a := Blob.u64 s.adminDesc 40
  s.memWf = true → a + b.length ≤ s.member.hbmBytes → (a + b.length ≤ s.adminCplAt ∨ s.adminCplAt + 64 ≤ a) → Memory.readN q.hbm a b.length = b

/-- A request that has not passed its Balustrade is doubted with a cause bit, and no step of it is left (R433, R435). -/
def State.doubts (s q : State) (slot bit : Nat) : Prop :=
  ∀ r, s.req? slot = some r → r.phase ≠ .epoch → (r.phase = .commit → r.opc = 0x13) → ∃ r', q.req? slot = some r' ∧ r'.doubt.testBit bit = true ∧ r'.stages = []

/-- A physical landing in service was declared dead (R441 to R444): out of use with a new generation, its status bit set; the logical landing that it served runs nothing, the requests of
the tasks that ran on it are doubted with cause bit 3, and the first idle spare of the die is reserved for it. -/
def State.died (s q : State) (k : Nat) : Prop :=
  (q.phys k).state = 2 ∧ (q.phys k).gen = ((s.phys k).gen + 1) % 256 ∧ (q.phys k).logical = none ∧ bitW (q.reg Reg.fltStatus) 0 = true ∧
  (∀ l, (s.phys k).logical = some l → (q.land l).phys = none ∧ (q.land l).running = [] ∧
    (∀ x ∈ (s.land l).running, s.doubts q x.task.slot 3) ∧
    (∀ p, (s.phys k).state = 0 → (s.idleSpares (k / 64)).head? = some p → (q.phys (physKey (k / 64) p)).reserved = some l))

/-- A processor restarts (R426): its restart count rises by n, and its newest snapshot stands first. -/
def State.restarted (s q : State) (i n : Nat) : Prop :=
  (q.proc i).restarts = (s.proc i).restarts + n ∧ (∃ b, (q.proc i).snaps = (b :: (s.proc i).snaps).take 4) ∧
  (i < 4 → ∀ k, k / 16384 = i → (∀ r, s.req? k = some r → r.peer = none) → s.doubts q k 2) ∧
  (∀ j, j ≠ i → q.proc j = s.proc j)

/-- How a unit's loader answers a commit or a clear (R85, R91, R111): the lock, an overflow, the first bad word, a reference, and else the content waits for the boundary. -/
def Loader.answered (l l' : Loader) (locked used : Bool) (n : Nat) (content : Option (Except (Nat × Nat) Prog)) : Prop :=
  l'.done = l.done ∧ l'.staged = l.staged ∧
  (locked = true → l'.status = statusWord 3 6 0 ∧ l'.pend = l.pend) ∧
  (locked = false → content = none → used = true → l'.status = statusWord 3 5 0 ∧ l'.pend = l.pend) ∧
  (locked = false → content = none → used = false → l'.status = 1 ∧ SMap.find l'.pend n = some none) ∧
  (locked = false → content ≠ none → l.overrun = true → l'.status = statusWord 3 7 0 ∧ l'.pend = l.pend) ∧
  (∀ e, locked = false → content = some (.error e) → l.overrun = false → l'.status = statusWord 3 e.1 e.2 ∧ l'.pend = l.pend) ∧
  (∀ p, locked = false → content = some (.ok p) → l.overrun = false → used = true → l'.status = statusWord 3 5 0 ∧ l'.pend = l.pend) ∧
  (∀ p, locked = false → content = some (.ok p) → l.overrun = false → used = false → l'.status = 1 ∧ SMap.find l'.pend n = some (some p))

/-- The owner's write to an RWL register of a block that is not locked (R370). -/
abbrev State.rwlAt (s : State) (t f lock : Nat) : Prop := s.ownerAt t f ∧ bitW (s.reg lock) 0 = false

/-- One measurement of the offset (R407, R408): the servo's next state, and a step of the counter at the first measurement or while no partition is enabled. -/
def State.measured (s q : State) (off : Int) : Prop :=
  let n := s.newel
  q.newel.offset = off ∧ q.newel.first = true ∧
  (n.servo = 0 ∨ n.servo = 3 → q.newel.servo = 1) ∧
  (n.servo = 1 → 100 ≤ off.natAbs → q.newel.servo = 1 ∧ q.newel.good = 0) ∧
  (n.servo = 1 → off.natAbs < 100 → n.good < 15 → q.newel.servo = 1 ∧ q.newel.good = n.good + 1) ∧
  (n.servo = 1 → off.natAbs < 100 → 15 ≤ n.good → q.newel.servo = 2) ∧
  (n.servo = 2 → off.natAbs ≤ 1000 → q.newel.servo = 2) ∧
  (n.servo = 2 → 1000 < off.natAbs → q.newel.servo = 3 ∧ q.newel.holdFrom = some n.time ∧ bitW (q.reg Reg.newelStatus) 0 = true) ∧
  (n.first = false ∨ s.anyPart = false → q.now = ((s.now : Int) - off).toNat ∧ (off ≠ 0 → bitW (q.reg Reg.newelStatus) 1 = true)) ∧
  (n.first = true → s.anyPart = true → q.now = s.now ∧ q.newel.slew = -off)

/-- A vector's message goes out, or its Pending Bit is set while it is masked; its window closes (R362). -/
def State.vecSent (s q : State) (f v : Nat) : Prop :=
  let x := s.vec f v
  q.vec f v = { x with events := 0, opened := none, pend := x.pend || x.masked }
    ∧ q.out = (if x.masked then s.out else OutMsg.msix f v (x.entry.toNat % 2 ^ 64) (x.entry.toNat / 2 ^ 64 % 2 ^ 32) :: s.out)

/-- Every function but one is as before, and of that one all but its vectors. -/
def State.vecsOnly (s q : State) (f : Nat) : Prop :=
  SMap.but s.fns q.fns f ∧ { q.fnOf f with vecs := [] } = { s.fnOf f with vecs := [] }
/-- Every function but one is as before, and of that one all but its rings. -/
def State.ringsOnly (s q : State) (f : Nat) : Prop :=
  SMap.but s.fns q.fns f ∧ { q.fnOf f with rings := [] } = { s.fnOf f with rings := [] }

/-- What holds between the states around a command whatever the command is: the member and its fuses, the messages sent so far, the canonical form of memory. -/
structure State.keeps (s q : State) : Prop where
  member : q.member = s.member
  fuses  : q.fuses = s.fuses
  sent   : ∃ l, q.out = l ++ s.out
  mem    : s.memWf = true → q.memWf = true

end Sys2Proof.Machine
end

