-- ==== Sys2Proof/Certificates/Slice0/Obligations.lean ====
section
/-! DEFINITION. The statements for the provers: whole-machine rules first, then each family of commands in the table's order. -/

open Sys2Proof Sys2Proof.Machine

/-! ## The queue, completion and what no command changes -/

/-- A step runs the command at the front of the queue on the state with the queue's rest; an empty queue idles (the idling is log entry 11's choice). -/
def Obligations.StepTakesFront : Prop :=
  (∀ (c : Instr) (r : List Instr) (s : State), s.pending = c :: r → step s = exec c { s with pending := r }) ∧
  (∀ s : State, s.pending = [] → step s = .next s)

/-- No command stops the block: each answers a next state from every state. -/
def Obligations.NoCommandStops : Prop :=
  ∀ (c : Instr) (s : State), ∃ q, exec c s = .next q

/-- After reset the memories are in their canonical form, and the queue is empty. -/
def Obligations.ResetMemoryCanonical : Prop :=
  State.reset.memWf = true ∧ State.reset.pending = []

/-- Every step keeps the canonical form of every host memory and of the HBM, from every state that has it. -/
def Obligations.StepKeepsMemory : Prop :=
  ∀ s q : State, s.memWf = true → step s = .next q → q.memWf = true

/-- No step changes which member the module is or what its fuses hold (R1, R8). -/
def Obligations.StepKeepsIdentity : Prop :=
  ∀ s q : State, step s = .next q → q.member = s.member ∧ q.fuses = s.fuses

/-- Nothing sent is taken back, and a command changes host memory only where it sends a memory write: every byte outside the writes that it logs is as the host
left it (the log is log entry 8's form). -/
def Obligations.HostMemoryWrites : Prop :=
  ∀ (c : Instr) (s q : State), exec c s = .next q → ∃ l, q.out = l ++ s.out ∧
    ∀ p a, (∀ f b d x, OutMsg.host f b d x ∈ l → fnPort f = p → a < b ∨ b + d.length ≤ a) → Memory.read (q.hostMemOf p) a = Memory.read ((s.hostSees c).hostMemOf p) a

/-- What reset leaves (R8, R59, R91, R118, R365, R366, R403, R411, R412, R431, R454, R455, R482): registers at the tables' values, every ring disabled, every
vector masked with COUNT 1 and TIME 0, a Tread of 25 µs, the firmware OFF, no request, no session, no tenant, no peer. -/
def Obligations.ResetValues : Prop :=
  let s := State.reset
  (∀ o, s.reg o = regReset s.member o) ∧
  s.regN Reg.pwrRamp = 48 ∧ s.regN (Reg.partDecodeBatch 0) = 64 ∧ s.regN Reg.pwrCap = 4400 ∧ s.regN Reg.newelTread = 25 ∧
  (∀ f n, (s.ring f n).en = false) ∧ (∀ f v, (s.vec f v).masked = true ∧ (s.vec f v).count = 1 ∧ (s.vec f v).time = 0 ∧ (s.vec f v).pend = false) ∧
  s.newel.len = 25000 ∧ s.newel.servo = 0 ∧ s.now = 0 ∧ s.fw.state = 0 ∧ (∀ i, (s.proc i).state = 0) ∧
  s.reqs = [] ∧ s.sessions = [] ∧ s.syncs = [] ∧ s.tenants = [] ∧ s.binds = [] ∧ s.objs.models = [] ∧ s.objs.indexes = [] ∧ s.objs.tables = [] ∧
  (∀ p, (s.galPort p).state = 0 ∧ (s.peer p).state = 0) ∧ s.flt.seq = 0 ∧ s.cnt.frozen = false

/-! ## Names (R19, R374) -/

/-- Landing and Wing IDs (R19): Wing 6h + w and landing 48h + 8w + s lie in their ranges, name their die, Wing and slot, and every ID arises so. -/
def Obligations.LandingNames : Prop :=
  (∀ h w k : Nat, h < 8 → w < 6 → k < 8 → 6 * h + w < 48 ∧ 48 * h + 8 * w + k < 384 ∧ landDie (48 * h + 8 * w + k) = h ∧
    landWing (48 * h + 8 * w + k) = 6 * h + w ∧ 48 * h + 8 * w + k ∈ wingLands (6 * h + w)) ∧
  (∀ l : Nat, l < 384 → ∃ h w k : Nat, h < 8 ∧ w < 6 ∧ k < 8 ∧ l = 48 * h + 8 * w + k)

/-- A function ID holds PORT in [1:0], PF in [3:2] and VF in [9:4], and the binding of function f is what TEN_BIND[f] was given (R374). -/
def Obligations.FunctionIds : Prop :=
  (∀ port pf vf : Nat, port < 4 → pf < 4 → vf < 64 → fnId port pf vf < 1024 ∧ fnPort (fnId port pf vf) = port ∧ fnPf (fnId port pf vf) = pf ∧
    fnVf (fnId port pf vf) = vf) ∧
  (∀ f : Nat, f < 1024 → fnId (fnPort f) (fnPf f) (fnVf f) = f ∧ fnPort f = bitsN f 1 0 ∧ fnPf f = bitsN f 3 2 ∧ fnVf f = bitsN f 9 4) ∧
  (∀ (s : State) (f : Nat) (v : Word), f < 1024 → f ≠ s.ownerPort → s.tenRefused (0x22000 + 8 * f) v = 0 → (s.applyBind (0x22000 + 8 * f) v).bind f = v) ∧
  (∀ (s : State) (f : Nat), f < 1024 → s.regRead f Reg.ringFunc % 1024 = f ∧ ((s.regRead f Reg.ringFunc).testBit 10 = true ↔ 1 ≤ fnVf f))

/-! ## Doorbells and rings -/

/-- DOORBELL_WRITE: a valid doorbell of ring n replaces the ring's host index by INDEX, which is the producer index of a submission ring and the consumer index
of any other (R346, R347). It changes nothing else but what the host published; on a stream ring records that wait may follow (R306). DOORBELL_WRITE of
another width or offset, to another ring's number, with bits [63:22] set, to a disabled ring, of an index out of range, or during a function-level reset is
ignored: RING_STATUS gathers its bits and RING_DB_ERRORS counts it once (R347, R381). -/
def Obligations.DoorbellWrite : Prop :=
  (∀ (t f n : Nat) (v : Word) (pub : List HostPub) (s : State),
      let u := (s.advance t).publish f pub
      n < 64 → u.reach f = true → u.inFlr f = false → (u.proc (fnPort f)).state ≠ 3 → (u.ring f n).en = true →
      bitsW v 21 16 = n → bitsW v 63 22 = 0 → (u.ring f n).forward (bitsW v 15 0) = true →
      Does (.doorbellWrite t f (0x40 * n) 8 v pub) s t [.hostMem, .fns, .power, .out, .reqs] (fun q => (q.ring f n).host = bitsW v 15 0) ∧
      ((u.ring f n).kind ≠ 3 →
        Does (.doorbellWrite t f (0x40 * n) 8 v pub) s t [.hostMem, .fns, .power] (fun q =>
          q.ring f n = { u.ring f n with host := bitsW v 15 0 } ∧ (∀ m, m ≠ n → q.ring f m = s.ring f m) ∧ u.ringsOnly q f ∧ q.hostMem = u.hostMem ∧
          ((u.ring f n).kind ≠ 1 → q.power = s.power) ∧
          ((u.ring f n).kind = 1 → s.power.dormant = true → s.power.waking = none → q.power.waking = some u.now)))) ∧
  (∀ (t f off size : Nat) (v : Word) (pub : List HostPub) (s : State),
      let u := (s.advance t).publish f pub
      let e := u.doorbellErr f off size v
      u.reach f = true → e ≠ 0 →
      Does (.doorbellWrite t f off size v pub) s t [.hostMem, .fns] (fun q =>
        q.fnOf f = { s.fnOf f with status := (s.fnOf f).status ||| BitVec.ofNat 64 e, dbErrors := min (2 ^ 32 - 1) ((s.fnOf f).dbErrors + 1) } ∧
        SMap.but s.fns q.fns f ∧ q.hostMem = u.hostMem) ∧
      ((size ≠ 8 ∨ off % 0x40 ≠ 0) → e.testBit 0 = true) ∧ (bitsW v 21 16 ≠ off / 0x40 ∨ bitsW v 63 22 ≠ 0 ∨ (u.ring f (off / 0x40)).en = false → e.testBit 1 = true) ∧
      (off / 0x40 < 64 → (u.ring f (off / 0x40)).en = true → (u.ring f (off / 0x40)).forward (bitsW v 15 0) = false → e.testBit 2 = true) ∧
      (u.inFlr f = true → e.testBit 6 = true))

/-- DESCRIPTOR_FETCH_ERROR: the ring halts, RING_STATUS bit 5 is set, and one record is written (R349). The record of a DESCRIPTOR_FETCH_ERROR reaches the
owner: a 64-byte element of kind 0x0F with the ring's descriptor address, in the next place of the owner's error ring, where that ring has room (R343, R449,
R450). The submission rings of a port take turns (R349): while the ring read last can be read and its turn of WEIGHT + 1 descriptors lasts, no other ring of
the port is read; after its turn it waits for any other that can be read. -/
def Obligations.DescriptorFetchError : Prop :=
  (∀ (t f n : Nat) (s : State), (s.advance t).canRead f n = true →
      Does (.descriptorFetchError t f n) s t recAreas (fun q =>
        (q.ring f n).halted = true ∧ (q.ring f n).host = (s.ring f n).host ∧ (q.ring f n).dev = (s.ring f n).dev ∧ bitW (q.fnOf f).status 5 = true ∧ s.recorded q)) ∧
  (∀ (t f n m : Nat) (s : State), (s.advance t).canRead f n = true → s.errRing s.ownerPort = some m → (s.ring s.ownerPort m).full = false →
      s.inFlr s.ownerPort = false → (s.port (fnPort s.ownerPort)).linkUp = true → (fnPort s.ownerPort = 0 ∨ (s.proc (4 + fnPort s.ownerPort)).state ≠ 3) →
      ∃ q b, exec (.descriptorFetchError t f n) s = .next q ∧
        s.sent q (.host s.ownerPort ((s.ring s.ownerPort m).base.toNat + 64 * (s.ring s.ownerPort m).dev) b false) ∧
        b.length = 64 ∧ Blob.u8 b 4 = 0x0F ∧ Blob.u32 b 0 = s.flt.seq % 2 ^ 32 ∧
        Blob.u64 b 32 = ((s.ring f n).base.toNat + 256 * (s.ring f n).dev) % 2 ^ 64) ∧
  (∀ (f n g m : Nat) (r : Ring) (s : State), s.lastRead (fnPort f) = some (f, n, r) → fnPort g = fnPort f → (g, m) ≠ (f, n) → f < 1024 → g < 1024 → n < 64 → m < 64 →
      (s.readable f n = true → r.taken ≤ bitsW r.cfg 31 28 → s.canRead g m = false) ∧
      (bitsW r.cfg 31 28 < r.taken → s.readable g m = true → (∃ x, (g, m, x) ∈ s.portRings (fnPort f)) → s.canRead f n = false))

/-- RING_CFG_WRITE (R350, R365). On a disabled ring: a write that sets EN and whose fields pass enables it with its indices at 0 and its phase at 1 (that it is
not halted and holds neither reservation nor missed record is log entry 37's choice); one whose fields fail leaves EN 0 and sets RING_STATUS bit 4; one with
EN 0 stores its fields. On an enabled ring: its present value has no effect; clearing EN alone disables it, unless it is a completion ring with a
reservation or a stream ring that a request writes to, and every other write is refused, each with RING_STATUS bit 3. No write changes another ring. -/
def Obligations.RingConfig : Prop :=
  ∀ (t f n : Nat) (w : Word) (s : State),
    let v := w &&& ringCfgMask
    let r := s.ring f n
    let stores := fun (q : State) (x : Ring) => q.ring f n = x ∧ (∀ m, m ≠ n → q.ring f m = s.ring f m) ∧ s.ringsOnly q f
    let refused := fun (q : State) => q.fnOf f = { s.fnOf f with status := setBitW (s.fnOf f).status 3 } ∧ SMap.but s.fns q.fns f
    let used := (r.kind = 2 ∧ r.reserved ≠ 0) ∨ (r.kind = 3 ∧ s.streamUsers f n ≠ [])
    (s.advance t).reach f = true → n < 64 →
    (r.en = false → bitW v 0 = true → s.ringCfgOk f n v = true →
      Does (.ringCfgWrite t f n w) s t [.fns] (fun q => stores q { r with cfg := v, host := 0, dev := 0, phase := true, halted := false, reserved := 0, missed := 0 })) ∧
    (r.en = false → bitW v 0 = true → s.ringCfgOk f n v = false →
      Does (.ringCfgWrite t f n w) s t [.fns] (fun q => q.ring f n = { r with cfg := clrBitW v 0 } ∧ (∀ m, m ≠ n → q.ring f m = s.ring f m) ∧
        (q.fnOf f).status = setBitW (s.fnOf f).status 4 ∧ SMap.but s.fns q.fns f)) ∧
    (r.en = false → bitW v 0 = false → Does (.ringCfgWrite t f n w) s t [.fns] (fun q => stores q { r with cfg := v })) ∧
    (r.en = true → v = r.cfg → Does (.ringCfgWrite t f n w) s t [] (fun q => q.fns = s.fns)) ∧
    (r.en = true → v ≠ r.cfg → v = clrBitW r.cfg 0 → ¬ used → Does (.ringCfgWrite t f n w) s t [.fns] (fun q => stores q { r with cfg := v })) ∧
    (r.en = true → v ≠ r.cfg → v ≠ clrBitW r.cfg 0 ∨ used → Does (.ringCfgWrite t f n w) s t [.fns] refused)

/-- IRQ_FORCE, MODERATION_COUNT and MODERATION_TIME_EXPIRY send a vector's message, or set its Pending Bit while it is masked, and close its window: the first
at once (R366), the second when COUNT events stand in an open window, the third when TIME has run out (R362). MSIX_UNMASK clears a vector's mask; a message
that was pending goes out and is pending no more (R362). -/
def Obligations.VectorMessages : Prop :=
  (∀ (t f v : Nat) (s : State), (s.advance t).reach f = true →
      let x := s.vec f v
      (∀ w : Word, bitsW w 8 0 = v → v < vecCount f → Does (.irqForce t f w) s t [.fns, .out] (fun q => s.vecSent q f v ∧ s.vecsOnly q f)) ∧
      (x.opened ≠ none → x.count ≤ x.events → Does (.moderationCount t f v) s t [.fns, .out] (fun q => s.vecSent q f v ∧ s.vecsOnly q f)) ∧
      (∀ o, x.opened = some o → o + 100 * x.time ≤ (s.advance t).now →
        Does (.moderationTimeExpiry t f v) s t [.fns, .out] (fun q => s.vecSent q f v ∧ s.vecsOnly q f))) ∧
  (∀ (t f v : Nat) (s : State), (s.advance t).reach f = true → v < vecCount f →
      let x := s.vec f v
      Does (.msixUnmask t f v) s t [.fns, .out] (fun q =>
        (q.vec f v).masked = false ∧ (q.vec f v).pend = false ∧ (q.vec f v).mod = x.mod ∧ (q.vec f v).opened = x.opened ∧ (q.vec f v).events = x.events ∧
        (∀ i, i < 96 → (q.vec f v).entry.getLsbD i = x.entry.getLsbD i) ∧ (∀ j, j ≠ v → q.vec f j = s.vec f j) ∧ s.vecsOnly q f ∧
        (x.pend = false → q.out = s.out) ∧ (x.pend = true → q.out = .msix f v (x.entry.toNat % 2 ^ 64) (x.entry.toNat / 2 ^ 64 % 2 ^ 32) :: s.out)))

/-! ## Admission (R121, R345, R349, R541) -/

/-- A descriptor that passes checks 1 to 6 becomes a READY request in its slot with its steps and its objects (R30, R121); the ring's device index moves by one
and a completion entry is reserved (R345); a GENERATE binds its session (R284) and a job its partition (R133). EMBED and GENERATE here with text input;
EmbedTokens has the other form. An EMBED or GENERATE whose input is token words takes them as its question or, after a BOS where that is asked, as its
prompt when every word is below the vocabulary's size, and else ends at once with INPUT_INVALID (R167, R283, R353); a prompt of more than CONTEXT - 1 tokens
ends the request at once with DESCRIPTOR_INVALID, since it runs no step (R29, R283). -/
def Obligations.DescriptorQueued : Prop :=
  (∀ (c : Instr) (s : State) (t f n slot o : Nat) (sub : Option (Nat × Nat)),
      let u := s.advance t
      let d := u.nextDesc f n
      let cq := (s.ring f n).cqOf
      descRow c = some (t, f, n, o, sub) → rowOf d o sub →
      (o ∈ [0x02, 0x04, 0x05, 0x10, 0x11, 0x12, 0x13, 0x14, 0x15, 0x20, 0x22, 0x30] ∨ (o = 0x21 ∧ Blob.u8 d 64 < 2) ∨ (o = 0x01 ∧ tokenInput d = false) ∨
        (o = 0x03 ∧ tokenInput d = false)) →
      u.queues f n slot →
      Does c s t (.parts :: .sessions :: admitAreas) (fun q =>
        (∃ r, q.req? slot = some r ∧ r.desc = d ∧ r.fn = f ∧ r.ring = n ∧ r.cq = cq ∧ r.order = s.nextOrder ∧ r.admitAt = u.now ∧ r.part = descPart d ∧
          r.stages = planOf d ∧ r.cur = none ∧ r.phase = .ready ∧ r.holds = holdsOf d ∧ r.ending = none ∧ r.doubt = 0 ∧
          r.session = (if o = 0x01 ∨ o = 0x02 ∨ o = 0x03 then (if Blob.u32 d 16 = 0 then none else u.sessionOf f d) else none)) ∧
        q.nextOrder = s.nextOrder + 1 ∧ SMap.but s.reqs q.reqs slot ∧ (q.ring f n).dev = ((s.ring f n).dev + 1) % (s.ring f n).size ∧
        (q.ring f cq).reserved = (s.ring f cq).reserved + 1 ∧ SMap.but s.fns q.fns f ∧
        (∀ m, m ≠ n → m ≠ cq → q.ring f m = s.ring f m) ∧ (o ≠ 0x03 → q.sessions = s.sessions) ∧
        (o = 0x03 → ∀ i, u.sessionOf f d = some i → Blob.u32 d 16 ≠ 0 → (SMap.at q.sessions i {}).busy = some slot ∧ SMap.but s.sessions q.sessions i) ∧
        (isJob o = true → (q.part (descPart d)).owner = some slot ∧ SMap.but s.parts q.parts (descPart d)) ∧ (isJob o = false → q.parts = s.parts))) ∧
  (∀ (t f n slot : Nat) (s : State),
      let u := s.advance t
      let d := u.nextDesc f n
      let x := u.atAct f n slot
      tokenInput d = true → u.queues f n slot → s.streamFree f d →
      ∀ r, x.req? slot = some r →
        let ok := ∀ w ∈ x.inputWords r, w / 2 ^ 20 = 0 ∧ w < vocSize (x.held? r.objId).vocab
        let bad := ∃ w ∈ x.inputWords r, vocSize (x.held? r.objId).vocab ≤ w
        let prompt := x.plainPrompt r (x.inputWords r)
        let room := imgContext (x.held? r.objId).image - 1
        let areas := Area.sessions :: .parts :: .lands :: .cnt :: .arcades :: admitAreas
        (Blob.u8 d 0 = 0x01 →
          (ok → Does (.embed t f n) s t admitAreas (fun q => ∃ r', q.req? slot = some r' ∧ r'.phase = .ready ∧ r'.xs.question = x.inputWords r)) ∧
          (bad → Does (.embed t f n) s t areas (fun q => u.ended q slot f 0x20))) ∧
        (Blob.u8 d 0 = 0x03 →
          (ok → prompt.length ≤ room → Does (.generate t f n) s t (.sessions :: admitAreas) (fun q => ∃ r', q.req? slot = some r' ∧ r'.phase = .ready ∧
            r'.xs.gen.prompt = prompt ∧ r'.ending = none)) ∧
          (ok → room < prompt.length → Does (.generate t f n) s t areas (fun q => u.ended q slot f 0x21)) ∧
          (bad → Does (.generate t f n) s t areas (fun q => u.ended q slot f 0x20))))

/-- A request that checks 5 and 6 or an earlier job hold back waits in its slot: at check 5 for a tenant without budget that does not refuse (R294), at check 6
for a busy session (R284), or for its exclusive partition (R133). A descriptor that fails one of checks 1 to 4 completes at once with the status of the
first that fails, and its slot is free again (R121, R356). The statuses of admission: an opcode byte that the table does not have, or a reserved byte that
is not zero, is DESCRIPTOR_INVALID; a function without a binding for the partition and tenant, or a partition of a kind that does not allow the opcode
(R132), is NOT_PERMITTED; a deadline that has passed is DEADLINE_MISSED (R121, R351, R375). -/
def Obligations.DescriptorHeldOrRefused : Prop :=
  (∀ (c : Instr) (s : State) (t f n slot o : Nat) (sub : Option (Nat × Nat)),
      let u := s.advance t
      let d := u.nextDesc f n
      descRow c = some (t, f, n, o, sub) → rowOf d o sub → skips56 o = false → u.admits f n slot →
      ((u.atCheck5 f n slot).jobBusy o (descPart d) = true →
        Does c s t admitAreas (fun q => ∃ r, q.req? slot = some r ∧ r.desc = d ∧ r.phase = .jobWait)) ∧
      ((u.atCheck5 f n slot).jobBusy o (descPart d) = false → isJob o = false → tokenInput d = false → (u.atCheck5 f n slot).check5 d = 1 →
        Does c s t admitAreas (fun q => ∃ r, q.req? slot = some r ∧ r.desc = d ∧ r.phase = .waiting)) ∧
      (o = 0x03 → tokenInput d = false → (u.atCheck5 f n slot).check5 d = 0 → ((u.atCheck5 f n slot).check6 f (slotVest slot) d).1 = 1 →
        Does c s t admitAreas (fun q => ∃ r, q.req? slot = some r ∧ r.desc = d ∧ r.phase = .waiting))) ∧
  (∀ (c : Instr) (s : State) (t f n slot o : Nat) (sub : Option (Nat × Nat)),
      let u := s.advance t
      let d := u.nextDesc f n
      descRow c = some (t, f, n, o, sub) → rowOf d o sub → u.canRead f n = true → u.freeSlotOf (fnPort f) = some slot → s.streamFree f d →
      (u.entered f n slot).admitFail f d ≠ 0 →
      Does c s t (.parts :: .sessions :: .lands :: .cnt :: .arcades :: admitAreas) (fun q =>
        s.ended q slot f ((u.entered f n slot).admitFail f d) ∧ q.nextOrder = s.nextOrder + 1 ∧
        (q.ring f n).dev = ((s.ring f n).dev + 1) % (s.ring f n).size)) ∧
  (∀ (s : State) (f : Nat) (d : Blob),
      ((Blob.u8 d 0 ∉ opcodes ∨ Blob.u8 d 19 ≠ 0 ∨ 16 ≤ Blob.u8 d 1) → s.admitFail f d = 0x21) ∧
      (s.check1 f d = true → s.bound f (descPart d) (descTenant d) = false → s.admitFail f d = 0x23) ∧
      (s.check1 f d = true → (bitW (s.reg (Reg.partCtrl (descPart d))) 1 = true ∧ Blob.u8 d 0 ∈ [0x01, 0x02, 0x03, 0x10, 0x11, 0x12, 0x20, 0x30, 0x40, 0x41]) ∨
        (bitW (s.reg (Reg.partCtrl (descPart d))) 1 = false ∧ Blob.u8 d 0 ∈ [0x13, 0x14, 0x22]) → s.admitFail f d = 0x23) ∧
      (s.check1 f d = true → ownerOnly d = true → s.isOwner f = false → s.admitFail f d = 0x23) ∧
      (s.check1 f d = true → s.check2 f d = 0 → (skips3 (Blob.u8 d 0) = true ∨ s.check3 f d = 0) → Blob.u64 d 8 ≠ 0 → Blob.u64 d 8 ≤ s.now → s.admitFail f d = 0x24) ∧
      (∀ i, i < 256 → (∀ r ∈ usedRanges d, i < r.1 ∨ r.2 ≤ i) → Blob.u8 d i ≠ 0 → s.admitFail f d = 0x21))

/-- TABLE_CREATE makes the table its create record names, with no row written, and answers DONE; TABLE_INFO writes the create record and the shard's rows and
bytes; TABLE_DESTROY marks its table and waits for the requests that hold it (R313). -/
def Obligations.TableControl : Prop :=
  ∀ (t f n slot : Nat) (s : State),
    let u := s.advance t
    let d := u.nextDesc f n
    let x := u.atAct f n slot
    let rec_ := x.hostRead f (Blob.u64 d 72) 64
    let id := Blob.u32 d 20
    u.queues f n slot →
    (rowOf d 0x21 (some (64, 2)) → x.createErr id (descPart d) { rec_ := rec_, gen := id / 4096 % 256 } = 0 →
      Does (.tableCreate t f n) s t (.objs :: .hbm :: .alc :: .sessions :: .parts :: .lands :: .cnt :: .arcades :: admitAreas) (fun q =>
        (∃ tab, q.table (tabNum id) = some tab ∧ tab.rec_ = rec_ ∧ tab.gen = id / 4096 % 256 ∧ tab.rows = [] ∧ tab.destroying = false) ∧
        (∀ m, m ≠ tabNum id → q.table m = s.table m) ∧ s.ended q slot f 0)) ∧
    (rowOf d 0x21 (some (64, 3)) → x.check3 f d = 0 →
      Does (.tableDestroy t f n) s t (.objs :: admitAreas) (fun q =>
        (∃ r, q.req? slot = some r ∧ r.desc = d ∧ r.phase = .unloading) ∧ (∀ tab, s.table (tabNum id) = some tab → q.table (tabNum id) = some { tab with destroying := true }) ∧
        (∀ m, m ≠ tabNum id → q.table m = s.table m))) ∧
    (rowOf d 0x21 (some (64, 4)) → x.check3 f d = 0 →
      Does (.tableInfo t f n) s t (.sessions :: .parts :: .lands :: .cnt :: .arcades :: admitAreas) (fun q =>
        let tab := s.tabAt id
        let held := tab.rowsHeld s.gal.moduleId
        s.sent q (.host f (Blob.u64 d 40) (tab.rec_ ++ leBytes 8 held ++ leBytes 8 (held * tab.rowStride)) (s.fnOf f).relaxed) ∧ s.ended q slot f 0))

/-- MODEL_UNLOAD, INDEX_UNLOAD, EXPERT_SET_UNLOAD, STEERING_SET_UNLOAD and GRAMMAR_UNLOAD mark their object, which takes no new request, and wait for the
requests that hold it (R204, R279). OBJECT_RELEASE frees an unloaded model, index, expert set, steering set or grammar, or a destroyed table, once no
request holds it, moves its number's generation on where it has one, and answers DONE; while one holds it, nothing happens (R204, R279, R313). -/
def Obligations.ObjectUnloads : Prop :=
  (∀ (c : Instr) (t f n slot k : Nat) (s : State),
      let u := s.advance t
      let d := u.nextDesc f n
      let x := u.atAct f n slot
      descRow c = some (t, f, n, 0x31, some (64, k)) → rowOf d 0x31 (some (64, k)) → u.queues f n slot → x.check3 f d = 0 →
      Does c s t (.objs :: admitAreas) (fun q =>
        (∃ r, q.req? slot = some r ∧ r.desc = d ∧ r.phase = .unloading) ∧
        (k = 0 → ∀ m, SMap.find s.objs.models (idNum (Blob.u32 d 20)) = some m → SMap.find q.objs.models (idNum (Blob.u32 d 20)) = some { m with unloading := true }) ∧
        (k = 1 → ∀ m, SMap.find s.objs.indexes (Blob.u32 d 20 % 8) = some m → m.state = 2 → SMap.find q.objs.indexes (Blob.u32 d 20 % 8) = some { m with state := 3 }) ∧
        (k = 2 → ∀ m, SMap.find s.objs.sets (Blob.u32 d 68) = some m → SMap.find q.objs.sets (Blob.u32 d 68) = some { m with unloading := true }) ∧
        (k = 3 → ∀ m, SMap.find s.objs.steers (Blob.u32 d 68) = some m → SMap.find q.objs.steers (Blob.u32 d 68) = some { m with unloading := true }) ∧
        (k = 4 → ∀ m, SMap.find s.objs.grammars (Blob.u32 d 20 % 256) = some m → SMap.find q.objs.grammars (Blob.u32 d 20 % 256) = some { m with unloading := true }) ∧
        q.objs.tables = s.objs.tables ∧ q.objs.prefs = s.objs.prefs ∧ q.objs.caches = s.objs.caches)) ∧
  (∀ (t slot : Nat) (r : Req) (s : State),
      let x := unloadTarget r.desc
      let n := tabNum r.objId
      s.running = true → s.sound slot r → r.phase = .unloading →
      (r.opc = 0x31 → s.held x = false → Does (.objectRelease t slot) s t (.objs :: .hbm :: .alc :: endAreas) (fun q => s.ended q slot r.fn 0 ∧
        (∀ k, x = .model k → SMap.find q.objs.models k = none) ∧ (∀ k, x = .expertSet k → SMap.find q.objs.sets k = none) ∧
        (∀ k, x = .steeringSet k → SMap.find q.objs.steers k = none) ∧ (∀ k, x = .grammar k → SMap.find q.objs.grammars k = none) ∧
        (∀ k, x = .index k → (SMap.at q.objs.indexes k {}).state = 0 ∧ (SMap.at q.objs.indexes k {}).gen = ((SMap.at s.objs.indexes k {}).gen + 1) % 256) ∧
        (∀ k m, x = .model k → SMap.find s.objs.models k = some m → SMap.at q.objs.modelGen k 0 = (SMap.at s.objs.modelGen k 0 + 1) % 256))) ∧
      (r.opc = 0x21 → s.held (.table n) = false → Does (.objectRelease t slot) s t (.objs :: endAreas) (fun q => s.ended q slot r.fn 0 ∧
        q.table n = none ∧ SMap.at q.objs.tableGen n 0 = (SMap.at s.objs.tableGen n 0 + 1) % 256 ∧ ∀ m, m ≠ n → q.table m = s.table m)) ∧
      (s.held (if r.opc = 0x31 then x else .table n) = true → Does (.objectRelease t slot) s t [] (fun q => q.reqs = s.reqs)))

/-- SESSION_OPEN takes the lowest session index of its Vestibule that is not open, moves its generation on in 1 to 255, and answers DONE; SESSION_CLOSE frees an
idle session at once, and one with a request in flight takes no further request until that ends (R17, R354, R542). -/
def Obligations.Sessions : Prop :=
  ∀ (t f n slot : Nat) (s : State),
    let u := s.advance t
    let d := u.nextDesc f n
    let x := u.atCheck5 f n slot
    u.admits f n slot →
    (rowOf d 0x40 none → x.contextsUsed (slotVest slot) < 16384 →
      Does (.sessionOpen t f n) s t (.sessions :: .parts :: .lands :: .cnt :: .arcades :: admitAreas) (fun q =>
        (∃ i, let k := slotVest slot * 16384 + i
          (SMap.at s.sessions k {}).isOpen = false ∧ (∀ j, j < i → (SMap.at s.sessions (slotVest slot * 16384 + j) {}).isOpen = true) ∧
          SMap.find q.sessions k = some { gen := (SMap.at s.sessions k {}).gen % 255 + 1, isOpen := true, fn := f, tenant := descTenant d } ∧
          (∀ j, j ≠ k → ∀ a, SMap.find s.sessions j = some a → ∃ b, SMap.find q.sessions j = some b ∧ b.isOpen = a.isOpen ∧ b.gen = a.gen) ∧
          (∃ a b, s.sent q (.host f a b false) ∧ b.length = 64 ∧ Blob.u8 b 4 = 0 ∧ Blob.u32 b 32 = k + 65536 * ((SMap.at s.sessions k {}).gen % 255 + 1))) ∧ q.req? slot = none)) ∧
    (rowOf d 0x41 none → ∀ i, x.sessionOf f d = some i →
      (x.sessionUsers i = false → Does (.sessionClose t f n) s t (.sessions :: .parts :: .lands :: .cnt :: .arcades :: admitAreas) (fun q =>
        (SMap.at q.sessions i {}).isOpen = false ∧ s.ended q slot f 0)) ∧
      (x.sessionUsers i = true → Does (.sessionClose t f n) s t (.sessions :: admitAreas) (fun q =>
        (SMap.at q.sessions i {}).isOpen = true ∧ (SMap.at q.sessions i {}).closing = true ∧ ∃ r, q.req? slot = some r ∧ r.phase = .closing)))

/-- SYNC_ADD, SYNC_CREATE and SYNC_DESTROY take effect at admission and answer DONE, or NO_SYNC_OBJECT where they fail, and with AFTER_RING set while an earlier
descriptor of their ring is in flight they wait; SYNC_WAIT completes at once when the counter has reached its value, and else waits (R134 to R137). -/
def Obligations.SyncCounters : Prop :=
  ∀ (t f n slot : Nat) (s : State),
    let u := s.advance t
    let d := u.nextDesc f n
    let p := descPart d
    let areas := Area.syncs :: .sessions :: .parts :: .lands :: .cnt :: .arcades :: admitAreas
    u.admits f n slot → ∀ r0, (u.atCheck5 f n slot).req? slot = some r0 →
    (∀ c k, descRow c = some (t, f, n, 0x50, some (76, k)) → rowOf d 0x50 (some (76, k)) →
      (bitN (Blob.u8 d 77) 0 = false ∨ (u.atCheck5 f n slot).earlier r0 = false →
        Does c s t areas (fun q => s.signalled q p d ∧ s.ended q slot f (if s.signalFails p d then 0x27 else 0))) ∧
      (bitN (Blob.u8 d 77) 0 = true → (u.atCheck5 f n slot).earlier r0 = true → k = 1 ∨ s.signalFails p d = false →
        Does c s t areas (fun q => q.syncs = s.syncs ∧ ∃ r, q.req? slot = some r ∧ r.desc = d ∧ r.phase = .afterRing))) ∧
    (rowOf d 0x51 none → ∀ x, s.syncOf p (Blob.u32 d 72) = some x →
      (Blob.u64 d 64 ≤ x.value → Does (.syncWait t f n) s t areas (fun q => q.syncs = s.syncs ∧ s.ended q slot f 0)) ∧
      (x.value < Blob.u64 d 64 → Does (.syncWait t f n) s t areas (fun q => q.syncs = s.syncs ∧ ∃ r, q.req? slot = some r ∧ r.desc = d ∧ r.phase = .syncWait)))

/-- CANCEL answers DONE at once where it names no request; a request of the same function that it names, whose step runs, stops with CANCELLED, goes to the
Balustrade from the next boundary on (R29), and the CANCEL waits for it (R355). -/
def Obligations.CancelStops : Prop :=
  ∀ (t f n slot : Nat) (s : State),
    let u := s.advance t
    let d := u.nextDesc f n
    let x := u.atCheck5 f n slot
    u.admits f n slot → rowOf d 0x60 none → ∀ r0, x.req? slot = some r0 →
    (x.cancelTargets r0 = [] → Does (.cancel t f n) s t (.sessions :: .parts :: .lands :: .cnt :: .arcades :: admitAreas) (fun q => s.ended q slot f 0)) ∧
    (∀ k r, x.cancelTargets r0 = [k] → s.req? k = some r → r.phase = .running → r.stopped = false → r.opc ≠ 0x13 →
      Does (.cancel t f n) s t (.parts :: .lands :: .cnt :: .arcades :: admitAreas) (fun q =>
        (∃ r', q.req? k = some r' ∧ r'.ending = some 0x30 ∧ r'.stopped = true ∧ r'.phase = .ready ∧ r'.doneAt = u.now ∧ r'.stages = [] ∧ r'.writes = []) ∧
        ∃ r', q.req? slot = some r' ∧ r'.phase = .cancelling ∧ r'.cancels = [k] ∧ r'.count = 1))

/-! ## Waits, status blocks, the boundary -/

/-- What ends a wait. CANCEL_COMPLETE once no request that a CANCEL named is left (R355); SESSION_CLOSE_COMPLETE once its session has no request in flight
(R354); SYNC_AFTER_RING_EFFECT once no earlier descriptor of its ring is (R136); SYNC_WAIT_TIMEOUT at a boundary at or after the timeout (R137);
DEADLINE_EXPIRY at a boundary at or after the deadline: a request that has run no step ends at once, a running one stops and goes to the Balustrade from the
next boundary on (R29, R126). STATUS_BLOCK_WRITE: the 64-byte block of a request whose step runs is written with STATE 2, the tag, the next sequence number
in both its places and the time; a doubted request writes none (R359, R437). -/
def Obligations.WaitsEnd : Prop :=
  (∀ (t slot : Nat) (r : Req) (s : State),
      let u := s.advance t
      let areas := Area.syncs :: endAreas
      s.running = true → s.sound slot r →
      (r.phase = .cancelling → r.cancels = [] → Does (.cancelComplete t slot) s t endAreas (fun q => s.ended q slot r.fn 0)) ∧
      (r.phase = .closing → s.sessionUsers (r.handle % 65536) = false → Does (.sessionCloseComplete t slot) s t endAreas (fun q =>
        s.ended q slot r.fn 0 ∧ (SMap.at q.sessions (r.handle % 65536) {}).isOpen = false)) ∧
      (r.phase = .afterRing → s.earlier r = false → Blob.u8 r.desc 76 ≤ 2 → Does (.syncAfterRingEffect t slot) s t areas (fun q =>
        s.signalled q r.part r.desc ∧ s.ended q slot r.fn (if s.signalFails r.part r.desc then 0x27 else 0))) ∧
      (r.phase = .syncWait → r.ending = none → Blob.u64 r.desc 80 ≠ 0 → Blob.u64 r.desc 80 ≤ s.lastB → Blob.u64 r.desc 80 ≤ u.now →
        ∀ x, s.syncOf r.part (Blob.u32 r.desc 72) = some x →
          Does (.syncWaitTimeout t slot) s t endAreas (fun q => s.ended q slot r.fn (if Blob.u64 r.desc 64 ≤ x.value then 0 else 0x2A))) ∧
      (r.deadline ≠ 0 → r.deadline ≤ s.lastB → r.stopped = false →
        (r.phase ∈ [.waiting, .jobWait, .syncWait, .afterRing, .closing, .cancelling, .unloading] ∨ (r.phase = .ready ∧ r.relAt = 0) →
          Does (.deadlineExpiry t slot) s t endAreas (fun q => s.ended q slot r.fn 0x24)) ∧
        (r.phase = .running → Does (.deadlineExpiry t slot) s t [.lands, .parts, .cnt, .reqs, .arcades] (fun q => ∃ r', q.req? slot = some r' ∧
          r'.ending = some 0x24 ∧ r'.phase = .ready ∧ r'.doneAt = u.now ∧ r'.stages = [] ∧ r'.cur = none ∧ r'.tasks = [] ∧ r'.writes = [] ∧ r'.desc = r.desc)))) ∧
  (∀ (t slot : Nat) (r : Req) (s : State),
      s.running = true → s.req? slot = some r → r.cur ≠ none → r.statusAddr ≠ 0 → s.inFlr r.fn = false → (s.port (fnPort r.fn)).linkUp = true →
      (r.doubt = 0 → r.suppress = false → Does (.statusBlockWrite t slot) s t [.hostMem, .out, .reqs] (fun q => ∃ b,
        q.out = .host r.fn r.statusAddr b (s.fnOf r.fn).relaxed :: s.out ∧ b.length = 64 ∧ Blob.u32 b 0 = r.tag ∧ Blob.u8 b 4 = 2 ∧ Blob.u8 b 6 = r.opc ∧
        Blob.u32 b 8 = (r.sbSeq + 1) % 2 ^ 32 ∧ Blob.u32 b 60 = (r.sbSeq + 1) % 2 ^ 32 ∧ Blob.u64 b 16 = (s.advance t).now % 2 ^ 64 ∧
        q.req? slot = some { r with sbSeq := r.sbSeq + 1 })) ∧
      (r.doubt ≠ 0 → Does (.statusBlockWrite t slot) s t [] (fun q => q.reqs = s.reqs)))

/-- TREAD_BOUNDARY and TREAD_LENGTH_CHANGE: the counter stands at the boundary, the Tread count moves by one, the next boundary lies one length further, and a
pending length takes effect where the boundary is a multiple of it (R125, R411). Values held for the boundary are held no more (action 4). -/
def Obligations.BoundaryClock : Prop :=
  ∀ (homes : List Nat) (c : Instr) (s : State),
    let n := s.newel
    s.running = true → (c = .treadBoundary homes ∨ (c = .treadLengthChange homes ∧ ∃ k, n.pend = some k ∧ n.nextB % k = 0)) →
    ∃ q, exec c s = .next q ∧ q.newel.time = n.nextB ∧ q.newel.treads = (n.treads + 1) % 2 ^ 64 ∧ q.staged = [] ∧ q.member = s.member ∧ q.pending = s.pending ∧
      (∀ k, n.pend = some k → n.nextB % k = 0 → q.newel.len = k ∧ q.newel.pend = none ∧ q.newel.nextB = n.nextB + k) ∧
      ((∀ k, n.pend = some k → n.nextB % k ≠ 0) → q.newel.len = n.len ∧ q.newel.pend = n.pend ∧ q.newel.nextB = n.nextB + n.len)

/-- Action 3 of a boundary (R293, R380): each enabled tenant's own budget gains its rate up to its burst, or is set to the burst by a commanded refill; what the
caps cut off is shared as surplus among the eligible tenants by rate, those with a request in a slot (log entry 39's reading); a tenant that is not enabled
takes no part. -/
def Obligations.BudgetRefill : Prop :=
  ∀ (s : State) (k : Nat) (x : Tenant), SMap.find s.tenants k = some x →
    let overrun := fun (y : Tenant) => if y.refill then 0 else (y.own + bitsW y.rate 31 0 - bitsW y.rate 63 32).toNat
    let on := s.tenants.filter fun e => bitW e.2.cfg 0
    let pool := (on.map fun e => overrun e.2).foldl (· + ·) 0
    let sum := ((on.filter fun e => s.eligible e.1).map fun e => bitsW e.2.rate 31 0).foldl (· + ·) 0
    ∃ y, SMap.find s.refill.tenants k = some y ∧ y.cfg = x.cfg ∧ y.rate = x.rate ∧ y.charged = x.charged ∧ y.refused = x.refused ∧
      (bitW x.cfg 0 = false → y = x) ∧
      (bitW x.cfg 0 = true → y.refill = false ∧
        y.own = (if x.refill then (bitsW x.rate 63 32 : Int) else min (bitsW x.rate 63 32 : Int) (x.own + bitsW x.rate 31 0)) ∧
        y.surplus = (if s.eligible k = true ∧ sum ≠ 0 then pool * bitsW x.rate 31 0 / sum else 0)) ∧
      (s.eligible k = true ↔ ∃ e ∈ s.reqs, e.2.peer = none ∧ Req.tenant e.2 = k)

/-! ## Tasks, partials and steps -/

/-- DECODE_BATCH_THRESHOLD: a shard whose queued tokens reach PART_DECODE_BATCH loads; its tokens leave the shard's queue for the landing's deque. Below the
threshold it waits (R61, R62). TASK_TAKE: an idle landing that can run takes the newest task of its own most urgent level; one whose own levels are empty
takes the oldest task of the most urgent level of the first victim in visiting order that has one; where no landing has one, the oldest speculative task in
that order that finds room (R129, R130, R142). A landing that takes a task revokes its loans (R106). One that cannot run, or finds no task, takes none.
Stated where the partition's backlog is empty (R128). -/
def Obligations.TasksStart : Prop :=
  (∀ (t l n p : Nat) (s : State), s.running = true → s.landPart l = some p →
      let ts := SMap.at (s.land l).batch n []
      let most := bitsW (s.reg (Reg.partDecodeBatch p)) 9 0
      (ts ≠ [] → most ≤ ts.length → Does (.decodeBatchThreshold t l n) s t [.lands, .parts, .power] (fun q =>
        SMap.find (q.land l).batch n = none ∧
        ((∀ x ∈ ts, x.home = l ∧ x.spec = false ∧ x.cls = 3 ∧ ∀ y ∈ (s.part (s.taskPart x)).backlog, y.home ≠ l) → (s.land l).phys ≠ none → (s.land l).queued + ts.length ≤ 256 →
          (q.land l).lev3 = (s.land l).lev3 ++ ts.map fun x => { x with shard := none }))) ∧
      (ts = [] ∨ ts.length < most → Does (.decodeBatchThreshold t l n) s t [] (fun q => q.lands = s.lands))) ∧
  (∀ (t l p i : Nat) (x : Task) (s : State), s.running = true → s.landPart l = some p → (s.part p).backlog = [] →
      let y := s.land l
      let able := s.power.dormant = false ∧ y.phys ≠ none ∧ y.running = [] ∧ landWing l ∉ s.power.wings ∧ (s.proc (8 + landDie l)).state ≠ 3 ∧ l < s.member.landings
      let run := fun q : State => (q.land l).running = [{ task := x, start := (s.advance t).now }] ∧ (q.land l).gated = false ∧
        (q.land l).loans = [] ∧ (q.land l).draining = y.draining ++ y.loans ∧ (q.land l).lender = false
      (able → y.urgent = some i → (y.level i).getLast? = some x →
        Does (.taskTake t l) s t [.lands] (fun q => run q ∧ (q.land l).level i = (y.level i).erase x ∧ ∀ m, m ≠ l → q.land m = s.land m)) ∧
      (∀ v pre post, able → y.urgent = none → s.victims l p = pre ++ v :: post → (∀ w ∈ pre, (s.land w).urgent = none) → (s.land v).urgent = some i →
        ((s.land v).level i).head? = some x →
        Does (.taskTake t l) s t [.lands] (fun q => run q ∧ (q.land v).level i = ((s.land v).level i).erase x ∧ ∀ m, m ≠ l → m ≠ v → q.land m = s.land m)) ∧
      (∀ v pre post, able → y.urgent = none → (∀ w ∈ s.victims l p, (s.land w).urgent = none) → l :: s.victims l p = pre ++ v :: post → (∀ w ∈ pre, (s.land w).spec = []) →
        (s.land v).spec.head? = some x → s.specRoom p x = true →
        Does (.taskTake t l) s t [.lands] (fun q => run q ∧ (q.land v).spec = (s.land v).spec.erase x ∧ ∀ m, m ≠ l → m ≠ v → q.land m = s.land m)) ∧
      (¬ able ∨ (y.urgent = none ∧ ∀ w ∈ l :: s.victims l p, (s.land w).urgent = none ∧ (s.land w).spec = []) →
        Does (.taskTake t l) s t [.lands] (fun q => ∀ m, { q.land m with cnt := {} } = { s.land m with cnt := {} })))

/-- TASK_COMPLETE of a task whose report lists no operation of the units: a task that is not the last of its step leaves its landing and its step's list; the
last task of a doubted request ends the step, and the request has no step left (R123, R435). A residue mismatch doubts the request with cause bit 0 (R57,
R433). PARTIAL_ARRIVAL: the partial with the next index is added to the group's fold, by the fold the group names (R49, R51, R69); an early one is held
(R50); one of an old generation is dropped and counted (R442, R445); one whose index was folded or is held is discarded and counted; one that finds no free
entry of the buffer, of which a new group reserves one, waits at its sender (R50). -/
def Obligations.TasksEnd : Prop :=
  (∀ (t l id k : Nat) (run : RunTask) (rep : TaskReport) (r : Req) (s : State),
      let x := run.task
      s.running = true → (s.land l).phys = some k → (s.land l).running.find? (fun y => stepIdOf y.task.slot y.task.stage y.task.seq == id) = some run →
      (s.land l).injRes = none → (s.land l).injEcc = none → s.taskWaits x rep = false → s.req? x.slot = some r → x.spec = false → r.cur = some x.stage → x.seq ∈ r.tasks → rep.ops = [] →
      (rep.faults = [] → r.tasks.erase x.seq ≠ [] → Does (.taskComplete t l id rep) s t [.lands, .reqs, .regs] (fun q =>
        (q.land l).running = (s.land l).running.erase run ∧ (q.land l).idleFrom = (s.advance t).now ∧ q.req? x.slot = some { r with tasks := r.tasks.erase x.seq } ∧
        SMap.but s.reqs q.reqs x.slot)) ∧
      (rep.faults = [] → r.tasks.erase x.seq = [] → s.draftsLeft x.slot = 0 → r.doubt ≠ 0 → Does (.taskComplete t l id rep) s t [.lands, .reqs, .regs] (fun q =>
        (q.land l).running = (s.land l).running.erase run ∧ ∃ r', q.req? x.slot = some r' ∧ r'.cur = none ∧ r'.tasks = [] ∧ r'.stages = [] ∧ r'.phase = .ready ∧
          r'.doubt = r.doubt ∧ r'.writes = r.writes)) ∧
      (∀ a b c, rep.faults = [.residue a b c] → r.phase = .running → r.tasks.erase x.seq ≠ [] →
        Does (.taskComplete t l id rep) s t (.lands :: .reqs :: .parts :: .power :: recAreas) (fun q => ∃ r', q.req? x.slot = some r' ∧ r'.doubt.testBit 0 = true ∧ r'.stages = []))) ∧
  (∀ (t l : Nat) (m : PartialMsg) (r : Req) (s : State),
      let k := physKey m.dieFrom m.phyFrom
      let old := (s.land l).combine.find? fun c => c.takes m
      let c := old.getD { slot := m.slot, group := m.group, spec := m.spec, task := m.task, fold := m.fold, total := m.total }
      let exp := F.sfu (bitsN s.fuses.behaviour 23 16) (bitN r.flags 12) 2
      let keeps := fun (q : State) (x : Combine) => x ∈ (q.land l).combine ∧ (∀ y ∈ (q.land l).combine, y.takes m = false → y ∈ (s.land l).combine) ∧
        ((q.land l).combine.filter fun y => y.takes m).length = 1 ∧ ∀ j, j ≠ l → q.land j = s.land j
      s.running = true → (s.land l).phys ≠ none → l < s.member.landings → m.dieFrom < s.member.halls → m.phyFrom < 52 → m.index < m.total → s.req? m.slot = some r →
      (m.gen ≠ (s.phys k).gen → Does (.partialArrival t l m) s t [.flt, .regs] (fun q =>
        (q.phys k).heard = (s.phys k).heard + 1 ∧ q.flt.stale = min (2 ^ 32 - 1) (s.flt.stale + 1) ∧ bitW (q.reg Reg.fltStatus) 2 = true ∧ s.regsBut q [Reg.fltStatus])) ∧
      (m.gen = (s.phys k).gen → m.index = c.next → c.held = [] → b2n old.isNone ≤ (s.land l).combineFree → Does (.partialArrival t l m) s t [.lands] (fun q =>
        keeps q { c with next := c.next + 1, acc := if c.next = 0 then m.values else foldApply exp c.fold c.acc m.values })) ∧
      (m.gen = (s.phys k).gen → c.next < m.index → SMap.find c.held m.index = none → SMap.find c.held c.next = none → b2n old.isNone + 1 ≤ (s.land l).combineFree →
        Does (.partialArrival t l m) s t [.lands] (fun q => keeps q { c with held := SMap.put c.held m.index (k, m.values) })) ∧
      (m.gen = (s.phys k).gen → m.index < c.next ∨ SMap.find c.held m.index ≠ none → Does (.partialArrival t l m) s t [.lands] (fun q =>
        (q.land l).dupes = (s.land l).dupes + 1 ∧ (q.land l).combine = (s.land l).combine)) ∧
      (m.gen = (s.phys k).gen → c.next ≤ m.index → SMap.find c.held m.index = none → (s.land l).combineFree < b2n old.isNone + b2n (m.index != c.next) →
        Does (.partialArrival t l m) s t [] (fun q => q.lands = s.lands)))

/-- ARCADE_STEP_COMPLETE: a tokenise or detokenise step that the Arcade engine of its Vestibule runs ends: the request has no current step and leaves the engine
(R163); a doubted one has no further step (R149, R168, R435). A step that is still queued there does not end. CHECK_PASS_HANDOVER: the check pass of a
GENERATE ends; the request has no step left and its ending is fixed, and a doubted one hands over no token (R304, R437). -/
def Obligations.StepsEnd : Prop :=
  (∀ (t slot : Nat) (r : Req) (s : State), s.running = true → s.req? slot = some r → r.cur = some .tokenise ∨ r.cur = some .detokenise → r.phase = .running →
      (slot ∈ (s.arcade slot).busy → Does (.arcadeStepComplete t slot) s t [.lands, .reqs, .regs, .arcades] (fun q => (q.arcade slot).busy = ((s.arcade slot).leave slot).busy ∧
        (q.arcade slot).queue = ((s.arcade slot).leave slot).queue ∧ ∃ r', q.req? slot = some r' ∧ r'.cur = none ∧ r'.tasks = [] ∧ r'.doneAt = (s.advance t).now ∧
        r'.desc = r.desc ∧ r'.doubt = r.doubt ∧ (r.doubt ≠ 0 ∨ r.suppress = true → r'.stages = [] ∧ r'.phase = .ready ∧ r'.writes = r.writes))) ∧
      (slot ∉ (s.arcade slot).busy → Does (.arcadeStepComplete t slot) s t [] (fun q => q.reqs = s.reqs))) ∧
  (∀ (t slot : Nat) (r : Req) (s : State), s.running = true → s.req? slot = some r → r.cur = some .checkPass → s.procRuns (slotVest slot) = true →
      (r.doubt ≠ 0 → Does (.checkPassHandover t slot) s t [.reqs] (fun q =>
        q.req? slot = some { r with cur := none, phase := .ready, doneAt := (s.advance t).now } ∧ SMap.but s.reqs q.reqs slot)) ∧
      (r.doubt = 0 → Does (.checkPassHandover t slot) s t [.reqs, .fns, .hostMem, .out, .regs] (fun q =>
        ∃ r', q.req? slot = some r' ∧ r'.cur = none ∧ r'.stages = [] ∧ r'.ending ≠ none ∧ r'.desc = r.desc)))

/-! ## The Balustrade and commits -/

/-- BALUSTRADE_STEP, the final check (R437 to R440): an undoubted request's results are written, its completion carries its ending and its slot is free; a
doubted one's result buffer is written with zeros and its completion is WITHHELD, or PEER_LOST where the loss of a peer is its one cause (R401); an index
update goes on to its commit (R193), but a batch that applies nothing completes here (R200; log entry 68 says where an earlier commit of its index still
waits); a peer's sub-request answers its origin (R397, R434). -/
def Obligations.FinalCheck : Prop :=
  ∀ (t slot : Nat) (r : Req) (s : State),
    let areas := Area.objs :: endAreas
    s.running = true → s.req? slot = some r → r.phase = .balustrade →
    (s.sound slot r → r.commits = false → r.opc ≠ 0x13 → Does (.balustradeStep t slot) s t areas (fun q => s.ended q slot r.fn (r.ending.getD 0) ∧
      ∀ w ∈ r.writes, w.2 ≠ [] → s.sent q (.host r.fn w.1 w.2 (s.fnOf r.fn).relaxed))) ∧
    (s.closable slot r → r.doubt ≠ 0 ∨ (r.peerLost = true ∧ r.opc ≠ 0x13) → r.resLen ≠ 0 → Does (.balustradeStep t slot) s t (.flt :: .regs :: endAreas) (fun q =>
      s.ended q slot r.fn (if r.peerLost = true ∧ r.doubt &&& 0xFFFFFF7F = 0 then 0x3E else 0x3F) ∧
      s.sent q (.host r.fn r.resAddr (zeros r.resLen) (s.fnOf r.fn).relaxed) ∧
      q.flt.withheld = min (2 ^ 64 - 1) (s.flt.withheld + 1) ∧ bitW (q.reg Reg.fltStatus) 5 = true ∧ s.regsBut q [Reg.fltStatus] ∧ q.objs = s.objs)) ∧
    (r.peer = none → r.commits = true → (s.advance t).emptyNow slot r = none → Does (.balustradeStep t slot) s t [.reqs] (fun q =>
      q.req? slot = some { r with phase := .commit, passedAt := some (s.advance t).now } ∧ SMap.but s.reqs q.reqs slot)) ∧
    (∀ rs, s.sound slot r → r.commits = true → (s.advance t).emptyNow slot r = some rs → Does (.balustradeStep t slot) s t endAreas (fun q =>
      applied rs = 0 ∧ s.ended q slot r.fn (batchEnd rs).1 ∧ (rs ≠ [] → s.sent q (.host r.fn r.resAddr (rs.flatMap RecResult.bytes) (s.fnOf r.fn).relaxed)))) ∧
    (∀ m tag, r.peer = some (m, tag) → Does (.balustradeStep t slot) s t [.out, .reqs, .sessions, .parts, .lands, .cnt, .arcades] (fun q => q.req? slot = none ∧
      (r.doubt ≠ 0 → q.out = .gal m 1 (.subStatus tag false r.doubt) :: s.out) ∧
      (r.doubt = 0 → r.ending = none → ∃ n, q.out = .gal m 2 (.pool tag r.xs.pool n) :: s.out)))

/-- INDEX_COMMIT and CONSOLIDATION_SWITCH are deferred, in order, while a supply warning stands (R461); else INDEX_COMMIT commits an update whose turn it is in
the open epoch, and its completion waits for the epoch to close (R190, R193); a switch whose turn it is installs its batch, and ends with INDEX_FULL where
the batch's slots or HBM do not fit and no reclaim is pending (R205, R206). ROOM_VERSION_RECLAIM: a room keeps its newest version, and with it the older
ones that a snapshot or an open epoch can still read (R207). -/
def Obligations.IndexCommits : Prop :=
  (∀ (t slot : Nat) (r : Req) (s : State), s.running = true → s.req? slot = some r → r.phase = .commit →
      let c : Instr := if r.opc = 0x13 then .consolidationSwitch t slot else .indexCommit t slot
      let x := s.index (r.objId % 8)
      (∀ w, s.power.warn = some w → r.xs.deferSeq = 0 → Does c s t [.reqs, .power] (fun q =>
        q.power = { s.power with warn := some { w with deferred := w.deferred + 1 } } ∧ SMap.but s.reqs q.reqs slot ∧
        ∃ r', q.req? slot = some r' ∧ r'.xs.deferSeq = w.deferred + 1 ∧ r'.phase = .commit)) ∧
      (s.power.warn = none → s.commitTurn slot r = true → r.opc = 0x14 → Does (.indexCommit t slot) s t (.objs :: .reqs :: .hbm :: .alc :: recAreas) (fun q =>
        q.objs.commits = true ∧ q.objs.epoch = s.objs.epoch ∧ ∃ r', q.req? slot = some r' ∧ r'.ending = some 0 ∧ r'.epoch = s.openEpoch ∧ r'.phase = .epoch)) ∧
      (s.power.warn = none → s.commitTurn slot r = true → r.opc ∈ [0x10, 0x11, 0x12] →
        let rs := (runBatch (fun z b => z.recOne (r.objId % 8) r.opc (Blob.u16 r.desc 76) s.openEpoch b)
          (splitRecords r.xs.listData (Blob.u16 r.desc 76) (Blob.u32 r.desc 72)) (s.advance t)).2
        (applied rs ≠ 0 → Does (.indexCommit t slot) s t (.objs :: .reqs :: recAreas) (fun q => q.objs.commits = true ∧ q.objs.epoch = s.objs.epoch ∧
          ∃ r', q.req? slot = some r' ∧ r'.ending = some (batchEnd rs).1 ∧ r'.count = applied rs ∧ r'.epoch = s.openEpoch ∧ r'.phase = .epoch ∧
            r'.writes = [(r.resAddr, rs.flatMap RecResult.bytes)])) ∧
        (applied rs = 0 → s.sound slot r → Does (.indexCommit t slot) s t (.objs :: endAreas) (fun q =>
          q.objs.commits = s.objs.commits ∧ q.objs.epoch = s.objs.epoch ∧ s.ended q slot r.fn (batchEnd rs).1))) ∧
      (s.power.warn = none → s.commitTurn slot r = false → Does c s t [] (fun q => q.reqs = s.reqs)) ∧
      (s.power.warn = none → s.commitTurn slot r = true → r.opc = 0x13 →
        (s.batchFits x r.xs.consBase r.xs.consBatch = true → Does (.consolidationSwitch t slot) s t (.objs :: .reqs :: recAreas) (fun q =>
          q.objs.epoch = s.objs.epoch ∧ ∃ r', q.req? slot = some r' ∧ r'.phase = .ready ∧ r'.xs.consBatch = [])) ∧
        (s.batchFits x r.xs.consBase r.xs.consBatch = false → x.reclaimPending = false → Does (.consolidationSwitch t slot) s t [.reqs] (fun q =>
          ∃ r', q.req? slot = some r' ∧ r'.phase = .ready ∧ r'.stages = [] ∧ r'.ending = some 0x25)))) ∧
  (∀ (t i room : Nat) (s : State), s.running = true → i < 8 → (s.index i).state ≠ 0 → ∀ v w rest, SMap.find (s.index i).rooms room = some (v :: w :: rest) →
      let free := fun e => e ≤ s.objs.epoch ∧ ∀ k ∈ s.snapshots, e ≤ k
      Does (.roomVersionReclaim t i room) s t [.objs] (fun q =>
        (free v.sw → SMap.find (q.index i).rooms room = some [v]) ∧
        (¬ free v.sw → free w.sw → SMap.find (q.index i).rooms room = some [v, w]) ∧
        (∀ j, j ≠ room → SMap.find (q.index i).rooms j = SMap.find (s.index i).rooms j) ∧ q.objs.epoch = s.objs.epoch))

/-! ## Tables -/

/-- TABLE_ADD_APPLY: a delta of an update step whose row another module owns goes to it as a message (R322), to be staged there in a deterministic step (R327);
one of this module is added to the stored row, a WRITE's record replaces it, in record order for one row, and a deterministic delta is staged (R323, R325,
R327). While a peer's staging buffer is still to be acquired nothing moves (R329). STAGED_ROWS_APPLY adds the staged deltas of a deterministic step to their
rows, each row once; rows that no delta names keep their bytes, and the peers that own rows of the step are asked to apply theirs (R327, R329).
HOT_ROW_REBUILD takes a new replicated set for each table with a threshold and a valid replica region whose lowest die it is, 64 Treads or more after the
last, while no update step of the table runs; every other table is as before (R320, R321; the 64 Treads and the update step are log entry 34's). -/
def Obligations.TableUpdates : Prop :=
  (∀ (t slot k : Nat) (r : Req) (x : Delta) (tab : Table) (s : State),
      let n := tabNum r.objId
      let ds := r.xs.tab.deltas
      s.running = true → s.req? slot = some r → ds[k]? = some x → r.cur = some .update → r.doubt = 0 → r.ending = none → x.done = false → x.sent = false → s.table n = some tab →
      let told := fun w : RowWork => OutMsg.gal (tab.owner x.row) 0 (.table { tag := slot, table := r.objId, crc := tab.crc, row := x.row, work := w })
      let with_ := fun y : Delta => some { r with xs := { r.xs with tab := { r.xs.tab with deltas := ds.set k y } } }
      (r.xs.tab.acquire ≠ [] → Does (.tableAddApply t slot k) s t [] (fun q => q.reqs = s.reqs)) ∧
      (r.xs.tab.acquire = [] →
      (tab.owner x.row ≠ s.gal.moduleId → x.raw = none → Does (.tableAddApply t slot k) s t [.reqs, .out] (fun q =>
        q.out = told (if r.deterministic then .stage x.key x.vals else .add x.vals) :: s.out ∧ q.req? slot = with_ { x with sent := true })) ∧
      (tab.owner x.row = s.gal.moduleId → x.raw = none → r.deterministic = false → Does (.tableAddApply t slot k) s t [.reqs, .objs] (fun q =>
        q.table n = some (tab.setRow x.row (addRows (tab.row x.row) x.vals)) ∧ q.req? slot = with_ { x with done := true, direct := false } ∧ ∀ m, m ≠ n → q.table m = s.table m)) ∧
      (tab.owner x.row = s.gal.moduleId → x.raw = none → r.deterministic = true → (stagedRows s.member tab s.gal.moduleId (tab.die s.member x.row) ds).length < 1048576 →
        Does (.tableAddApply t slot k) s t [.reqs] (fun q => q.req? slot = with_ { x with done := true })) ∧
      (∀ b, x.raw = some b → (∀ y ∈ ds.take k, y.row = x.row → y.done = true ∨ y.sent = true) →
        (tab.owner x.row = s.gal.moduleId → Does (.tableAddApply t slot k) s t [.reqs, .objs] (fun q =>
          q.table n = some { tab with rows := SMap.put tab.rows x.row b } ∧ q.req? slot = with_ { x with done := true })) ∧
        (tab.owner x.row ≠ s.gal.moduleId → Does (.tableAddApply t slot k) s t [.reqs, .out] (fun q => q.out = told (.write b) :: s.out))) ∧
      (∀ b y, x.raw = some b → y ∈ ds.take k → y.row = x.row → y.done = false → y.sent = false → Does (.tableAddApply t slot k) s t [] (fun q => q.reqs = s.reqs)))) ∧
  (∀ (t slot : Nat) (r : Req) (tab : Table) (s : State), s.running = true → s.req? slot = some r → r.cur = some .update → r.doubt = 0 → r.deterministic = true →
      (∀ x ∈ r.xs.tab.deltas, x.done = true) → r.xs.tab.applied = false → s.table (tabNum r.objId) = some tab →
      Does (.stagedRowsApply t slot) s t [.reqs, .objs, .out] (fun q =>
        q.req? slot = some { r with xs := { r.xs with tab := { r.xs.tab with applied := true, applying := s.stepPeers r } } } ∧ SMap.but s.reqs q.reqs slot ∧
        q.out = ((s.stepPeers r).map fun m => OutMsg.gal m 0 (.table { tag := slot, table := r.objId, crc := tab.crc, row := 0, work := .apply })).reverse ++ s.out ∧
        ∃ tab', q.table (tabNum r.objId) = some tab' ∧ tab'.rec_ = tab.rec_ ∧ tab'.repl = tab.repl ∧
          (∀ row, (∀ x ∈ r.xs.tab.deltas, x.row ≠ row) → SMap.find tab'.rows row = SMap.find tab.rows row) ∧
          (∀ x y, r.xs.tab.deltas = [x, y] → x.row = y.row → x.direct = false → y.direct = false → tab.owner x.row = s.gal.moduleId →
            SMap.find tab'.rows x.row = some (encodeElems tab.fmt (addRows (addRows (tab.row x.row) x.vals) y.vals))))) ∧
  (∀ (t die n : Nat) (x : Table) (s : State), s.running = true → s.procRuns (8 + die) = true → s.table n = some x →
      let takes := x.hotAt ≠ 0 ∧ (setBitsOf 8 x.dieMask).head? = some die ∧ (∀ k, x.rebuilt = some k → 64 ≤ s.newel.treads - k) ∧ s.replicated x = true ∧ s.updating n = false
      Does (.hotRowRebuild t die) s t [.objs] (fun q => (takes → q.table n = some { x with replNext := some (x.hotSet s.newel.treads), rebuilt := some s.newel.treads }) ∧
        (¬ takes → q.table n = some x)))

/-- REMOTE_TABLE_ADD: a delta of a peer for a row that this module owns, of the same create record, is added to the row and acknowledged, a written row replaces
it; any other is refused (R313, R322, R323). A deterministic step acquires the staging buffers, stages its deltas by source key and has them applied, or
gives them up (R327, R329). T3_READ: a read of an export open to the peer returns its bytes, one of a row returns the row's value, and any other is refused
(R313, R399). Both start an exit from Dormant (R473). -/
def Obligations.PeerAccess : Prop :=
  ∀ (t p addr len tag : Nat) (m : RemoteAdd) (s : State), s.running = true → (s.peer p).state = 2 →
    let u := s.advance t
    let e := bitsN addr 59 56
    let b := s.reg (Reg.galExportBase e)
    let c := s.reg (Reg.galExportCfg e)
    let open_ := bitsN addr 63 60 = s.gal.moduleId ∧ bitW b 0 = true ∧ bitW c (32 + p) = true ∧ bitsN addr 55 0 + len ≤ bitsW c 18 0 * 2097152
    let live := fun q : State => (q.peer p).lastFlit = u.now ∧ q.power = u.rouse.power
    let fits := fun x : Table => x.crc = m.crc ∧ x.destroying = false
    let mine := fun x : Table => m.row < x.nRows ∧ x.owner m.row = s.gal.moduleId
    let o := s.objs
    let free := o.stageWait = [] ∧ ∀ e ∈ s.reqs, ¬ (e.2.cur = some .update ∧ e.2.deterministic = true)
    let moves := fun (areas : List Area) (post : State → Prop) => Does (.remoteTableAdd t p m) s t (.gal :: .power :: areas) (fun q => live q ∧ post q)
    let acked := fun (q : State) (direct : Bool) => q.out = .gal p 1 (.addAck m.tag 1 direct) :: s.out
    (∀ x, s.table (tabNum m.table) = some x → fits x →
      (∀ ds, m.work = .add ds → mine x → moves [.objs, .out] (fun q => q.table (tabNum m.table) = some (x.setRow m.row (addRows (x.row m.row) ds)) ∧ acked q false)) ∧
      (∀ d, m.work = .write d → mine x → moves [.objs, .out] (fun q => q.table (tabNum m.table) = some { x with rows := SMap.put x.rows m.row (Blob.slice d 0 x.rowLen) } ∧ acked q false)) ∧
      (∀ key ds, m.work = .stage key ds → mine x → o.stageBy = some (p, m.tag) → (stagedRows s.member x s.gal.moduleId (x.die s.member m.row) o.staged).length < 1048576 →
        moves [.objs, .out] (fun q => q.objs = { o with staged := stageInsert { key := key, row := m.row, vals := ds, done := true } o.staged } ∧ acked q false)) ∧
      (m.work = .acquire → o.stageBy = none → free → moves [.objs, .out] (fun q => q.objs = { o with stageBy := some (p, m.tag), staged := [] } ∧ q.out = .gal p 1 (.stageAck m.tag) :: s.out)) ∧
      (m.work = .acquire → o.stageBy ≠ none → moves [.objs] (fun q => q.objs = { o with stageWait := o.stageWait ++ [(p, m.tag)] })) ∧
      (m.work = .apply → o.stageBy = some (p, m.tag) → o.stageWait = [] → moves [.objs, .out] (fun q => q.table (tabNum m.table) = some (x.applyDeltas o.staged) ∧
        q.objs.stageBy = none ∧ q.objs.staged = [] ∧ q.out = .gal p 1 (.stageAck m.tag) :: s.out)) ∧
      (m.work = .discard → o.stageBy = some (p, m.tag) → o.stageWait = [] → moves [.objs] (fun q => q.objs = { o with stageBy := none, staged := [] }))) ∧
    ((∀ x, s.table (tabNum m.table) = some x → ¬ fits x ∨ (ofRow m.work = true ∧ x.nRows ≤ m.row)) →
      moves [.out] (fun q => q.out = .gal p 1 (.subStatus m.tag true 0) :: s.out)) ∧
    (addr < 2 ^ 64 → open_ → Does (.t3Read t p addr len tag) s t [.gal, .power, .out] (fun q => live q ∧
      q.out = .gal p 1 (.t3Data tag (some (s.t2 (bitsW b 47 21 * 2097152 + bitsN addr 55 0) len))) :: s.out)) ∧
    (addr < 2 ^ 64 → ¬ open_ → Does (.t3Read t p addr len tag) s t [.gal, .power, .out] (fun q => live q ∧ q.out = .gal p 1 (.t3Data tag none) :: s.out)) ∧
    (2 ^ 64 ≤ addr → ∀ x, s.table (bitsN addr 59 44) = some x →
      Does (.t3Read t p addr len tag) s t [.gal, .power, .objs, .out] (fun q => live q ∧ q.out = .gal p 1
        (if x.crc = bitsN addr 95 64 ∧ bitsN addr 63 60 = s.gal.moduleId ∧ bitsN addr 43 0 < x.nRows ∧ x.owner (bitsN addr 43 0) = s.gal.moduleId ∧ x.destroying = false
          then .t3Data tag (some (Blob.slice (encodeElems x.fmt (x.read (bitsN addr 43 0))) 0 len)) else .subStatus tag true 0) :: s.out))

/-! ## Admin commands, the store, firmware -/

/-- ADMIN_DOORBELL: each index that lies in its ring is taken (R363, R364), and an enabled queue starts an exit from Dormant (R473). IDENTIFY, LOG_READ and
SNAPSHOT_READ write their result to the result address and answer DONE; one whose fields or result length are bad is DESCRIPTOR_INVALID, and so is a code
that no admin command has (R424, R427, R452). -/
def Obligations.AdminReads : Prop :=
  (∀ (t f : Nat) (v : Word) (s : State), s.ownerAt t f →
      Does (.adminDoorbell t f v) s t [.admin, .power] (fun q =>
        q.admin = { s.admin with sqHost := if bitsW v 15 0 < s.admin.sqSize then bitsW v 15 0 else s.admin.sqHost,
                                 cqHost := if bitsW v 31 16 < s.admin.cqSize then bitsW v 31 16 else s.admin.cqHost } ∧
        (s.admin.sqOn = true → s.power.dormant = true → s.power.waking = none → q.power.waking = some (s.advance t).now) ∧ (s.admin.sqOn = false → q.power = s.power))) ∧
  (∀ (t : Nat) (s : State),
      let d := s.adminDesc
      let len := Blob.u32 d 48
      let areas := [Area.admin, .hbm, .alc]
      (s.adminFront 0x81 → (adminClean d [] = true → 256 ≤ len → Does (.identify t) s t areas (fun q => s.adminDone q 0 256 ∧
          ∃ b, s.adminResult q b ∧ b.length = 256 ∧ Blob.u32 b 0 = s.fw.release % 2 ^ 32 ∧ Blob.u32 b 4 = s.fw.svn % 2 ^ 32 ∧ Blob.u32 b 8 = s.fw.ifVer % 2 ^ 32 ∧
            ∀ i, i < 16 → Blob.u32 b (12 + 4 * i) = (s.advance t).procWord i % 2 ^ 32)) ∧
        (adminClean d [] = false ∨ len < 256 → Does (.identify t) s t areas (fun q => s.adminDone q 0x21 0))) ∧
      (s.adminFront 0x82 →
        let ok := adminClean d [(64, 72)] = true ∧ Blob.u32 d 68 ≠ 0 ∧ Blob.u32 d 68 ≤ 65536 ∧ 64 * Blob.u32 d 68 ≤ len
        let b := ((s.store.log.filter fun e => e.1 == Blob.u32 d 64 || seqNewer e.1 (Blob.u32 d 64)).take (Blob.u32 d 68)).flatMap Prod.snd
        (ok → Does (.logRead t) s t areas (fun q => s.adminDone q 0 b.length ∧ s.adminResult q b)) ∧
        (¬ ok → Does (.logRead t) s t areas (fun q => s.adminDone q 0x21 0))) ∧
      (s.adminFront 0x83 →
        let ok := adminClean d [(64, 66)] = true ∧ Blob.u8 d 64 < 16 ∧ Blob.u8 d 65 < 4 ∧ 4096 ≤ len
        let b := (s.proc (Blob.u8 d 64)).snaps[Blob.u8 d 65]?.getD []
        (ok → Does (.snapshotRead t) s t areas (fun q => s.adminDone q 0 b.length ∧ s.adminResult q b)) ∧
        (¬ ok → Does (.snapshotRead t) s t areas (fun q => s.adminDone q 0x21 0))) ∧
      (s.adminReady = true → Blob.u8 d 0 < 0x81 ∨ 0x87 < Blob.u8 d 0 → ∀ c ∈ [Instr.identify t, .logRead t, .snapshotRead t, .storeWrite t, .raiseFloor t, .revive t],
        Does c s t areas (fun q => s.adminDone q 0x21 0)))

/-- STORE_WRITE and RAISE_FLOOR begin a write of the store that takes a token of the bucket, and complete later; an empty bucket, or kind 4, is NOT_PERMITTED,
bad fields are DESCRIPTOR_INVALID, and a floor at or above the running SVN answers DONE at once (R423, R498, R499). During a supply warning the write waits,
with PWR_STATUS bit 3 (R461). CONFIG_WRITE_COMPLETE: a write that reads back makes the bank that was not active the active one, one sequence number later,
with the new entry beside the old ones, keeps the old bank and answers DONE; one that does not leaves the active bank in force and the other invalid, and
answers DESCRIPTOR_INVALID (R497, R498). -/
def Obligations.StoreWrites : Prop :=
  (∀ (t : Nat) (s : State),
      let d := s.adminDesc
      let kind := Blob.u8 d 64
      let n := Blob.u16 d 66
      let areas := [Area.admin, .hbm, .alc, .store, .regs]
      let begins := fun (q : State) (w : StoreWrite) =>
        (s.store.tokens ≠ 0 → q.store = { s.store with tokens := s.store.tokens - 1, write := some { w with waiting := s.power.warn.isSome } } ∧
          q.admin = { s.admin with sqDev := (s.admin.sqDev + 1) % s.admin.sqSize } ∧ (s.power.warn ≠ none → bitW (q.reg Reg.pwrStatus) 3 = true) ∧ s.regsBut q [Reg.pwrStatus]) ∧
        (s.store.tokens = 0 → s.adminDone q 0x23 0 ∧ q.store.write = none ∧ q.store.refused = min (2 ^ 32 - 1) (s.store.refused + 1) ∧ q.regs = s.regs)
      let clean := adminClean d [(64, 65), (66, 68), (72, 136)] = true
      (s.adminFront 0x84 →
        (clean → kind ∈ [1, 2, 3, 5] → n = entryLen kind → Blob.zeroIn d (72 + n) 136 = true →
          Does (.storeWrite t) s t areas (fun q => begins q { kind := kind, payload := Blob.slice d 72 n, tag := Blob.u32 d 4 })) ∧
        (clean → kind = 4 → Does (.storeWrite t) s t areas (fun q => s.adminDone q 0x23 0 ∧ q.store = s.store)) ∧
        (¬ clean ∨ (kind ≠ 4 ∧ (kind ∉ [1, 2, 3, 5] ∨ n ≠ entryLen kind)) → Does (.storeWrite t) s t areas (fun q => s.adminDone q 0x21 0 ∧ q.store = s.store))) ∧
      (s.adminFront 0x86 → adminClean d [] = true →
        (s.fw.svn ≤ s.store.floor → Does (.raiseFloor t) s t areas (fun q => s.adminDone q 0 0 ∧ q.store = s.store)) ∧
        (s.store.floor < s.fw.svn → Does (.raiseFloor t) s t areas (fun q => begins q { kind := 4, payload := leBytes 4 s.fw.svn, raise := true, tag := Blob.u32 d 4 })))) ∧
  (∀ (t : Nat) (w : StoreWrite) (s : State), s.store.write = some w → w.waiting = false → s.running = true → s.procRuns 4 = true →
      let new : Bank := { seq := (s.store.active.seq + 1) % 2 ^ 32, entries := SMap.put s.store.active.entries w.kind w.payload }
      (Bank.parse new.image = some new → Does (.configWriteComplete t true) s t [.admin, .hbm, .alc, .store] (fun q => s.adminPosted q w.tag 0 ∧ q.store.write = none ∧ q.store.noConfig = false ∧
        q.store.activeB = !s.store.activeB ∧ q.store.active = new ∧
        (s.store.activeB = true → q.store.bankB = s.store.bankB) ∧ (s.store.activeB = false → q.store.bankA = s.store.bankA) ∧
        q.store.mirror = (if w.raise then mirrorImage (leNat w.payload) else s.store.mirror) ∧ q.store.log = s.store.log)) ∧
      Does (.configWriteComplete t false) s t [.admin, .hbm, .alc, .store] (fun q => s.adminPosted q w.tag 0x21 ∧ q.store.write = none ∧ q.store.active = s.store.active ∧
        q.store.activeB = s.store.activeB ∧ (s.store.activeB = true → q.store.a = none) ∧ (s.store.activeB = false → q.store.b = none) ∧ q.store.mirror = s.store.mirror))

/-- SELF_TEST tests a dead landing or an idle spare and returns the outcome; a spare that fails is dead. REVIVE restarts a failed processor with no expiry
counted. Anything else is DESCRIPTOR_INVALID (R430, R453). -/
def Obligations.AdminRepairs : Prop :=
  ∀ (t failed us : Nat) (s : State),
    let d := s.adminDesc
    let i := Blob.u8 d 64
    let k := physKey (Blob.u8 d 64) (Blob.u8 d 65)
    let x := s.phys k
    (s.adminFront 0x85 →
      let ok := adminClean d [(64, 66)] = true ∧ i < s.member.halls ∧ Blob.u8 d 65 < 52 ∧ 64 ≤ Blob.u32 d 48
      (ok → x.state = 2 ∨ (x.state = 1 ∧ x.reserved = none ∧ x.logical = none) → Does (.selfTest t failed us) s t (.admin :: .hbm :: .alc :: recAreas) (fun q => s.adminDone q 0 64 ∧
        (∃ b, s.adminResult q b ∧ b.length = 64 ∧ Blob.u8 b 0 = (if failed = 0 then 1 else 0) ∧ Blob.u8 b 1 = failed % 256 ∧ Blob.u32 b 4 = us % 2 ^ 32) ∧
        (q.phys k).state = (if failed = 0 then x.state else 2))) ∧
      (¬ ok ∨ x.state = 0 ∨ x.state = 3 → Does (.selfTest t failed us) s t [.admin, .hbm, .alc] (fun q => s.adminDone q 0x21 0))) ∧
    (s.adminFront 0x87 →
      (adminClean d [(64, 65)] = true → i < 16 → (s.proc i).state = 3 → Does (.revive t) s t (.admin :: .hbm :: .alc :: .fw :: .reqs :: .newel :: recAreas) (fun q =>
        s.adminDone q 0 0 ∧ s.restarted q i 1 ∧ (q.proc i).state = 2 ∧ (q.proc i).expiries = [])) ∧
      (adminClean d [(64, 65)] = false ∨ 16 ≤ i ∨ (s.proc i).state ≠ 3 → Does (.revive t) s t [.admin, .hbm, .alc] (fun q => s.adminDone q 0x21 0)))

/-- FW_START: START copies the image that FW_LOAD_ADDR and FW_LOAD_LEN name, and the load state is VERIFYING (R420), where it was OFF or REFUSED; in any other
load state, or with another value, nothing is loaded, and an ignored START sets FW_ERROR.IGNORED (R421). FW_IMAGE_CHECKED: the first of the seven checks
that fails makes the load state REFUSED with its code; where all pass, MFP-0 starts and the load state is STARTING (R418, R420). FW_RUNNING: every processor
of the member runs, the versions of the image are published, and the load state is RUNNING (R420). -/
def Obligations.FirmwareLoad : Prop :=
  ∀ (t f : Nat) (v : Word) (s : State),
    let b := s.fw.image
    let checks := [imgHeaderOk b (s.regN Reg.fwLoadLen), imgDirOk b, bitN (Blob.u32 b 32) s.member.imageBit && Blob.u32 b 28 == s.fuses.behaviour,
      sm3 (Blob.slice b 40 64) == s.fuses.rootHash, imgDigest b == Blob.slice b 104 32, sm2Verify (Blob.slice b 40 64) (Blob.slice b 104 32) (Blob.slice b 136 64),
      decide (s.store.floor ≤ Blob.u32 b 24)]
    (s.ownerAt t f →
      (s.fw.state = 0 ∨ s.fw.state = 4 → Does (.fwStart t f 1) s t [.fw, .power] (fun q => q.fw =
        { s.fw with state := 1, code := 0, image := Memory.readN s.hbm (bitsW (s.reg Reg.fwLoadAddr) 39 21 * 2097152) (s.regN Reg.fwLoadLen) })) ∧
      (s.fw.state ≠ 0 → s.fw.state ≠ 4 → Does (.fwStart t f 1) s t [.fw, .power] (fun q => q.fw = { s.fw with ignored := true })) ∧
      (v ≠ 1 → Does (.fwStart t f v) s t [] (fun q => q.fw = s.fw))) ∧
    (s.running = true → s.fw.state = 1 →
      ((∀ c ∈ checks, c = true) → Does (.fwImageChecked t) s t [.fw] (fun q => q.fw = { s.fw with state := 2, procs := q.fw.procs } ∧
        q.proc 4 = { s.proc 4 with state := 1 } ∧ ∀ i, i ≠ 4 → q.proc i = s.proc i)) ∧
      (∀ k, k < 7 → (∀ c ∈ checks.take k, c = true) → checks.getD k true = false → Does (.fwImageChecked t) s t [.fw] (fun q => q.fw = { s.fw with state := 4, code := k + 1 }))) ∧
    (s.running = true → s.fw.state = 2 → Does (.fwRunning t) s t [.fw, .store, .regs] (fun q =>
      q.fw = { s.fw with state := 3, ifVer := Blob.u32 b 16, release := Blob.u32 b 20, svn := Blob.u32 b 24, procs := q.fw.procs } ∧
      (∀ i ∈ memberProcs s.member, q.proc i = { s.proc i with state := 1 }) ∧ (∀ i, i ∉ memberProcs s.member → q.proc i = s.proc i) ∧
      q.store = { s.store with next := q.store.next } ∧ bitW (q.reg Reg.secState) 4 = true ∧ s.regsBut q [Reg.secState]))

/-- WATCHDOG_EXPIRY of a running processor: it restarts with a snapshot of 4 KiB (R426, R427), the expiry is counted, and the requests that it served are
doubted with cause bit 2: under an SFP those admitted on its Vestibule, under an HFP those with a task of their running step dispatched from its die, under
an MFP none (R428). The third expiry within 10 s fails it without a restart (R429): the partitions that an SFP or HFP serves are fenced, the Gallery ports
of an MFP's Vestibule go down, and without MFP-0 the load state is DEGRADED. PROCESSOR_READY: a restarting processor runs again (R426). -/
def Obligations.Watchdogs : Prop :=
  ∀ (t i : Nat) (regs trace : List Byte) (s : State), s.running = true →
    let u := s.advance t
    let recent := (s.proc i).expiries.filter fun e => decide (u.now < e + 10000000000)
    ((s.proc i).state = 1 → (s.power.dormant = true → i < 8) → Does (.watchdogExpiry t i regs trace) s t (.fw :: .reqs :: .newel :: .parts :: .lands :: .cnt :: .gal :: recAreas) (fun q =>
      s.restarted q i (if 2 ≤ recent.length then 0 else 1) ∧ (q.proc i).expiries = u.now :: recent ∧ (q.proc i).state = (if 2 ≤ recent.length then 3 else 2) ∧
      (∃ b, (q.proc i).snaps.head? = some b ∧ b.length = 4096) ∧
      (8 ≤ i → ∀ k r, s.req? k = some r → r.cur ≠ none → (∃ l ∈ r.homes, landDie l = i - 8) → s.doubts q k 2) ∧
      (recent.length < 2 → q.parts = s.parts ∧ q.gal = s.gal ∧ q.fw.state = s.fw.state ∧ (4 ≤ i → i < 8 → q.reqs = s.reqs)) ∧
      (2 ≤ recent.length →
        (i < 4 → ∀ p f, p < 16 → fnPort f = i → bitW (SMap.at s.binds f 0) 0 = true → bitW (SMap.at s.binds f 0) (16 + p) = true → i ∈ (q.part p).fencedBy) ∧
        (i = 4 → q.fw.state = 5) ∧
        (4 < i → i < 8 → ∀ k, k < 3 → (q.galPort (3 * (i - 4) + k)).state = 0) ∧
        (8 ≤ i → ∀ p, p < 16 → bitW (s.reg (Reg.partCtrl p)) 0 = true → (∃ w, w < 6 ∧ bitW (s.reg (Reg.partWings p)) (6 * (i - 8) + w) = true) → i ∈ (q.part p).fencedBy)))) ∧
    ((s.proc i).state = 2 → Does (.processorReady t i) s t [.fw] (fun q => q.proc i = { s.proc i with state := 1 } ∧ ∀ j, j ≠ i → q.proc j = s.proc j)) ∧
    ((s.proc i).state ≠ 2 → Does (.processorReady t i) s t [] (fun q => q.fw = s.fw))

/-- PROCESSOR (R478): a running processor other than MFP-0 restarts with a snapshot, and its requests are doubted; the restart does not count in RECENT and does
not fail it. MFP-0, or one that is not running, is ignored with RST_STATUS.IGNORED. -/
def Obligations.ProcessorCommand : Prop :=
  ∀ (t f i : Nat) (s : State), s.ownerAt t f →
    let u := s.advance t
    (i ≠ 4 → (s.proc i).state = 1 → Does (.processor t f i 0) s t (.fw :: .reqs :: .power :: recAreas) (fun q =>
      s.restarted q i 1 ∧ (q.proc i).state = 2 ∧ (q.proc i).expiries = (s.proc i).expiries ∧ q.procWord i / 4 % 4 = u.procWord i / 4 % 4 ∧
      (∃ b, (q.proc i).snaps.head? = some b ∧ b.length = 4096) ∧ q.flt.seq = (s.flt.seq + 1) % 2 ^ 32 ∧
      (8 ≤ i → ∀ k r, s.req? k = some r → r.cur ≠ none → (∃ l ∈ r.homes, landDie l = i - 8) → s.doubts q k 2))) ∧
    (i = 4 ∨ (s.proc i).state ≠ 1 → Does (.processor t f i 0) s t [.regs, .power] (fun q => bitW (q.reg Reg.rstStatus) 0 = true ∧ s.regsBut q [Reg.rstStatus]))

/-! ## Landings, edges, scrubbing, injections -/

/-- DECLARE_LANDING_DEAD and LANDING_HANG take a physical landing out of use (R441 to R444, R454): the first by the owner's command, the second when a task has
run longer than HANG_MS. SELF_TEST_COMPLETE: a landing under test that passes takes the lowest logical ID of its die without a landing, or joins the spares;
one that fails is dead, and during firmware start it is declared dead (R446). SPARE_PERIODIC_TEST: an idle spare that fails is dead; one that passes is as
before (R443). -/
def Obligations.LandingFaults : Prop :=
  (∀ (t f l d p k : Nat) (x : RunTask) (s : State),
      let u := s.advance t
      let areas := Area.lands :: .reqs :: .parts :: .power :: recAreas
      (s.ownerAt t f → d < s.member.halls → p < 52 → (s.phys (physKey d p)).state ≠ 2 → Does (.declareLandingDead t f d p) s t areas (fun q => s.died q (physKey d p))) ∧
      (s.ownerAt t f → d < s.member.halls → p < 52 → (s.phys (physKey d p)).state = 2 → Does (.declareLandingDead t f d p) s t [.power] (fun q => q.flt = s.flt)) ∧
      (s.running = true → (s.land l).phys = some k → (s.phys k).state ≠ 2 → x ∈ (s.land l).running → x.start + bitsW (s.reg Reg.fltPolicy) 31 24 * 1000000 < u.now →
        Does (.landingHang t l) s t areas (fun q => s.died q k))) ∧
  (∀ (t d p code : Nat) (s : State), s.running = true → d < s.member.halls → p < 52 →
      let k := physKey d p
      let areas := Area.lands :: .reqs :: .parts :: .power :: recAreas
      ((s.phys k).state = 3 → Does (.selfTestComplete t d p 0) s t areas (fun q => q.reqs = s.reqs ∧ s.recorded q ∧
        (∀ l, s.shortId d = some l → (q.phys k).state = 0 ∧ (q.phys k).logical = some l ∧ (q.land l).phys = some k) ∧
        (s.shortId d = none → (q.phys k).state = 1 ∧ (q.phys k).logical = none ∧ q.lands = s.lands))) ∧
      (code ≠ 0 → (s.phys k).state = 3 → Does (.selfTestComplete t d p code) s t recAreas (fun q => (q.phys k).state = 2 ∧ s.recorded q)) ∧
      (code ≠ 0 → (s.phys k).state = 0 ∨ (s.phys k).state = 1 → s.fw.state = 2 → Does (.selfTestComplete t d p code) s t areas (fun q => s.died q k)) ∧
      (code ≠ 0 → (s.phys k).state = 1 → (s.phys k).reserved = none → (s.phys k).logical = none → Does (.sparePeriodicTest t d p code) s t recAreas (fun q => (q.phys k).state = 2)) ∧
      Does (.sparePeriodicTest t d p 0) s t [] (fun q => q.flt = s.flt))

/-- EDGE_FENCED fences a present edge once, writes a record, and doubts each request with a transfer over it with cause bit 4 (R23). STALE_SPEAKER drops and
counts transfers of an old generation (R445). INJECT_RESIDUE and INJECT_ECC arm a logical landing, and have no effect while the block is locked (R454,
R551). LANDING_BECOMES_LENDER gives a landing of a partition that has run no task for IDLE_TREADS Treads copies of the named T2 data, within the share of
its store that MEM_LEND permits (R105; that they stand one after another at the end of the store, and that a gated landing or one whose revoked loans are
still read takes none, is log entry 56's choice). -/
def Obligations.FaultEvents : Prop :=
  (∀ (t e d p g n : Nat) (ks : List Nat) (s : State), s.running = true →
      (edgePresent s.member e = true → bitN s.flt.edges e = false → Does (.edgeFenced t e ks) s t (.reqs :: recAreas) (fun q =>
        q.flt.edges = s.flt.edges + 2 ^ e ∧ bitW (q.reg Reg.fltStatus) 3 = true ∧ s.recorded q ∧ (∀ k ∈ ks, s.doubts q k 4) ∧ (ks = [] → q.reqs = s.reqs))) ∧
      (edgePresent s.member e = false ∨ bitN s.flt.edges e = true → Does (.edgeFenced t e ks) s t [] (fun q => q.flt = s.flt)) ∧
      (d < s.member.halls → p < 52 → g ≠ (s.phys (physKey d p)).gen → n ≠ 0 → Does (.staleSpeaker t d p g n) s t [.flt, .regs] (fun q =>
        (q.phys (physKey d p)).heard = (s.phys (physKey d p)).heard + n ∧ q.flt.stale = min (2 ^ 32 - 1) (s.flt.stale + n) ∧ q.flt.seq = s.flt.seq ∧
        bitW (q.reg Reg.fltStatus) 2 = true ∧ s.regsBut q [Reg.fltStatus]))) ∧
  (∀ (t f l : Nat) (x : Bool) (loans : List Loan) (s : State),
      let y := s.land l
      let len := (loans.map Loan.len).foldl (· + ·) 0
      let room := bitsW (s.reg Reg.memLend) 11 8 * 524288
      let ks := placeLoans (4194304 - room) loans
      (s.ownerAt t f → l < s.member.landings → bitW (s.reg Reg.fltLock) 0 = false →
        Does (.injectResidue t f l x) s t [.lands, .power] (fun q => q.land l = { s.land l with injRes := some x } ∧ ∀ j, j ≠ l → q.land j = s.land j) ∧
        Does (.injectEcc t f l x) s t [.lands, .power] (fun q => q.land l = { s.land l with injEcc := some x } ∧ ∀ j, j ≠ l → q.land j = s.land j)) ∧
      (bitW (s.reg Reg.fltLock) 0 = true → Does (.injectResidue t f l x) s t [] (fun q => q.lands = s.lands) ∧ Does (.injectEcc t f l x) s t [] (fun q => q.lands = s.lands)) ∧
      (s.running = true →
        let able := bitW (s.reg Reg.memLend) 0 = true ∧ l < s.member.landings ∧ y.phys ≠ none ∧ s.landPart l ≠ none ∧ y.running = [] ∧ y.gated = false ∧ y.draining = [] ∧
          y.idleFrom + bitsW (s.reg Reg.memLend) 7 4 * s.newel.len ≤ (s.advance t).now ∧ len ≤ room
        (able → Does (.landingBecomesLender t l loans) s t [.lands] (fun q =>
          { q.land l with store := [], resid := [] } = { y with lender := true, loans := ks, store := [], resid := [] } ∧ (∀ j, j ≠ l → q.land j = s.land j) ∧
          (s.storesWf = true → (∀ k ∈ ks, q.t0 l k.at_ k.len = s.t2 k.src k.len) ∧
            ∀ a, a < 4194304 - room ∨ 4194304 - room + len ≤ a → Memory.read (q.land l).store a = Memory.read y.store a))) ∧
        (¬ able → Does (.landingBecomesLender t l loans) s t [] (fun q => q.lands = s.lands))))

/-- PATROL_SCRUB: a corrected error counts in the store's corrected count; an uncorrectable one counts, writes a record, and a second one in an HBM granule
within the window retires it (R117, R447). In Dormant scrubbing pauses (R472). -/
def Obligations.Scrubbing : Prop :=
  ∀ (t : Nat) (x : ScrubFinding) (rest : List ScrubFinding) (s : State), s.running = true →
    let i := eccIndex x.store
    let up := fun (q : State) (o : Nat) => bitsW (q.reg o) 31 0 = min (2 ^ 32 - 1) (bitsW (s.reg o) 31 0 + 1)
    (s.power.dormant = true ∨ rest = [] → Does (.patrolScrub t rest) s t [] (fun q => q.regs = s.regs)) ∧
    (s.power.dormant = false → Does (.patrolScrub t (x :: rest)) s t recAreas (fun q => rest = [] →
      (x.corrected = true → x.store ≠ 2 → up q (Reg.memEccCount (i - 1)) ∧ q.flt = s.flt) ∧
      (x.corrected = false → up q (Reg.memEccCount i) ∧ (x.store ≠ 4 → s.recorded q)) ∧
      (x.corrected = false → x.store = 4 → ∀ g, g = x.addr / 2097152 → s.inWindow (SMap.at s.flt.granules g []) ≠ [] → x.addr / 2097152 ∉ s.flt.retired → t ≤ s.now →
        g ∈ q.flt.retired ∧ bitW (q.reg Reg.fltStatus) 6 = true)))

/-! ## Resets -/

/-- FUNCTION_LEVEL_RESET (R381): the function is under reset, its vectors are masked with nothing pending, its reservations are freed, its requests that wait
are gone without a completion and one whose step runs writes nothing when it ends. FLR_COMPLETE and FLR_TIMEOUT (R382) end it with every register of the
function at its reset value, the second after 10 ms with every request dropped. VF_ENABLE_WRITE: VF Enable with at most 63 virtual functions that leave the
module at 252 or fewer takes effect (R337); more is refused with a record; clearing it removes them and their bindings (R377, R383). PORT_FUNDAMENTAL_RESET,
PORT_HOT_RESET and PORT_LINK_DOWN reset every function of the port, take its link down and note the cause; on the owner port the admin rings and the
Aperture base go back to their reset values (R371, R383, R475). -/
def Obligations.FunctionResets : Prop :=
  (∀ (t f slot : Nat) (r : Req) (s : State),
      let u := s.advance t
      let areas := [Area.fns, .reqs, .sessions, .parts, .lands, .cnt, .arcades, .regs, .binds, .objs]
      (u.reach f = true → s.inFlr f = false → Does (.functionLevelReset t f) s t areas (fun q =>
        (q.fnOf f).flr = some u.now ∧ (∀ n, (q.ring f n).reserved = 0 ∧ (q.ring f n).cfg = (s.ring f n).cfg) ∧ (∀ v, (q.vec f v).masked = true ∧ (q.vec f v).pend = false ∧ (q.vec f v).opened = none) ∧
        (fnVf f = 0 → (q.fnOf f).vfEnable = false ∧ (q.fnOf f).numVfs = 0) ∧
        (s.req? slot = some r → r.fn = f → r.peer = none → r.phase ∈ [.waiting, .jobWait, .syncWait, .afterRing, .closing, .cancelling, .unloading, .balustrade, .commit] → q.req? slot = none) ∧
        (s.req? slot = some r → r.fn = f → r.peer = none → r.phase = .running → u.tokensQueued slot = [] → ∃ r', q.req? slot = some r' ∧ r'.suppress = true ∧ r'.stages = []) ∧
        (s.req? slot = some r → r.fn = f → r.peer = none → r.phase = .running → ∀ l, (q.land l).batch.all (fun b => b.2.all fun x => x.slot != slot) = true))) ∧
      (s.running = true → s.inFlr f = true → u.reqsOfFn f = [] → Does (.flrComplete t f) s t [.fns, .sessions] (fun q =>
        (∃ x, q.fnOf f = { doeAbsent := x }) ∧ SMap.but s.fns q.fns f)) ∧
      (∀ t0, s.running = true → (s.fnOf f).flr = some t0 → t0 + 10000000 ≤ u.now → Does (.flrTimeout t f) s t [.fns, .sessions, .reqs, .parts, .lands, .cnt, .arcades, .objs] (fun q =>
        (∃ x, q.fnOf f = { doeAbsent := x }) ∧ SMap.but s.fns q.fns f ∧ (s.req? slot = some r → r.fn = f → r.peer = none → q.req? slot = none)))) ∧
  (∀ (t f n : Nat) (s : State), (s.advance t).reach f = true → fnVf f = 0 →
      ((s.fnOf f).vfEnable = false → n ≤ 63 → s.vfTotal + n ≤ 252 → Does (.vfEnableWrite t f true n) s t [.fns] (fun q =>
        q.fnOf f = { s.fnOf f with vfEnable := true, numVfs := n } ∧ SMap.but s.fns q.fns f)) ∧
      ((s.fnOf f).vfEnable = false → 63 < n ∨ 252 < s.vfTotal + n → Does (.vfEnableWrite t f true n) s t recAreas (fun q => (q.fnOf f).vfEnable = false ∧ s.recorded q)) ∧
      ((s.fnOf f).vfEnable = true → Does (.vfEnableWrite t f true n) s t [] (fun q => q.fns = s.fns)) ∧
      ((s.fnOf f).vfEnable = true → Does (.vfEnableWrite t f false n) s t [.fns, .reqs, .sessions, .parts, .lands, .cnt, .arcades, .regs, .binds, .objs] (fun q =>
        (q.fnOf f).vfEnable = false ∧ (q.fnOf f).numVfs = 0 ∧ ∀ i, i < (s.fnOf f).numVfs → SMap.find q.binds (f + 16 * (i + 1)) = none))) ∧
  (∀ (t p : Nat) (s : State), s.running = true → p < s.member.ports →
      let areas := [Area.fns, .reqs, .sessions, .parts, .lands, .cnt, .arcades, .regs, .binds, .objs, .ports, .admin]
      let reset := fun (q : State) (cause : Nat) => (q.port p).linkUp = false ∧ (q.port p).last = cause ∧ (∀ j, j ≠ p → q.port j = s.port j) ∧
        (∀ k, k < s.pfCount p → q.inFlr (fnId p k 0) = true) ∧ (p = s.ownerPort → q.admin = {}) ∧ (p ≠ s.ownerPort → q.admin = s.admin)
      Does (.portFundamentalReset t p) s t areas (fun q => reset q 1 ∧ (q.port p).perst = true) ∧
      ((s.port p).linkUp = true → Does (.portHotReset t p) s t areas (fun q => reset q 2 ∧ (q.port p).perst = (s.port p).perst)) ∧
      ((s.port p).linkUp = true → Does (.portLinkDown t p) s t areas (fun q => reset q 3 ∧ (q.port p).perst = (s.port p).perst)))

/-- MODULE and MODRST_N_ASSERT begin a module reset, which SUPPLY_RESET makes a cold one (R465, R475, R476, R480): requests, sessions, tenants, objects and
firmware are lost, the store, the fuses and the sticky registers are kept. A locked block ignores MODULE (R483), a pulse below 150 ns is ignored, and one
between 150 ns and 200 ns either is or is not taken (R525). MODULE_RESET_END, MODRST_N_RELEASE and POWER_OK: the module leaves reset and the boot ROM runs
(R476, R494, R527, R529); while MODRST_N holds it the first has no effect and the last leaves it in reset, and a reset that the pin started lasts at least
10 µs. -/
def Obligations.ModuleResets : Prop :=
  (∀ (t f w vin : Nat) (en : Bool) (s : State),
      let begun := fun (q : State) (pin : Bool) => s.wiped q false ∧ q.rst = some { start := 0, byPin := pin, cold := false } ∧ q.running = false ∧
        (q.reg Reg.rstCause).toNat = (if pin then 2 else 3) ∧ bitsW (q.reg Reg.rstCounts) 15 0 = min 65535 (bitsW (s.reg Reg.rstCounts) 15 0 + 1)
      (s.ownerAt t f → bitW (s.reg Reg.rstLock) 0 = false → ∃ q, exec (.module t f 0x5A) s = .next q ∧ begun q false) ∧
      (s.ownerAt t f → bitW (s.reg Reg.rstLock) 0 = true → Does (.module t f 0x5A) s t [.regs] (fun q => bitW (q.reg Reg.rstStatus) 0 = true ∧ s.regsBut q [Reg.rstStatus])) ∧
      (200 ≤ w → s.power.phase = .up → s.rst = none → ∃ q, exec (.modrstNAssert t w) s = .next q ∧ begun q true ∧ q.power.modrst = true) ∧
      (w < 150 → Does (.modrstNAssert t w) s t [] (fun q => q.power = s.power)) ∧
      (150 ≤ w → w < 200 → s.power.phase = .up → s.rst = none → ∃ q, exec (.modrstNAssert t w) s = .next q ∧ q.fresh = s.fresh + 1 ∧ (begun q true ∨ (s.advance t).onlyIn q [.fresh])) ∧
      (en = true ∨ vin < 5000 → ∃ q, exec (.supplyReset t vin en) s = .next q ∧ s.wiped q true ∧ q.power.phase = .off ∧ q.power.vin = vin ∧ q.power.warn = none ∧ q.power.tripped = false ∧
        q.power.enOpen = en ∧ ∀ o, q.reg o = regReset s.member o)) ∧
  (∀ (t : Nat) (x : ResetRun) (s : State),
      let areas := [Area.config, .store, .gal, .flt, .regs, .newel, .clock, .reset, .power]
      (s.rst = some x → s.power.modrst = false → x.byPin = false ∨ x.cold = true ∨ x.start + 10000 ≤ (s.advance t).now → Does (.moduleResetEnd t) s t areas (fun q => s.booted q ∧ q.power = s.power)) ∧
      (s.rst = some x → s.power.modrst = true ∨ (x.byPin = true ∧ x.cold = false ∧ (s.advance t).now < x.start + 10000) → Does (.moduleResetEnd t) s t [] (fun q => q.rst = s.rst)) ∧
      (s.rst = some x → x.byPin = true → s.power.phase = .up → x.cold = true ∨ x.start + 10000 ≤ (s.advance t).now →
          Does (.modrstNRelease t) s t areas (fun q => s.booted q ∧ q.power = { s.power with modrst := false })) ∧
        (s.rst = some x → x.byPin = true → x.cold = false → (s.advance t).now < x.start + 10000 →
          Does (.modrstNRelease t) s t [.power] (fun q => q.rst = some x ∧ q.power = { s.power with modrst := false })) ∧
      (s.power.phase = .rails → s.power.modrst = false → Does (.powerOk t) s t areas (fun q => s.booted q ∧ q.power.phase = .up)) ∧
      (s.power.phase = .rails → s.power.modrst = true → Does (.powerOk t) s t [.reset, .power] (fun q => q.power.phase = .up ∧ ∃ y, q.rst = some y ∧ y.byPin = true ∧ q.running = false)))

/-- PARTITION (R384, R477): the partition is in reset; a request of it whose step runs ends with CANCELLED_BY_RESET and goes to the Balustrade from the next
boundary on, its counters are freed, its cached entries are dropped. One that is not enabled, or already in reset, is ignored with RST_STATUS.IGNORED.
PARTITION_RESET_COMPLETE marks the end of the firmware's part once no request of it is left and no landing of it is under test. -/
def Obligations.PartitionResets : Prop :=
  ∀ (t f p slot : Nat) (r : Req) (s : State),
    (s.ownerAt t f → p < 16 → bitW (s.reg (Reg.partCtrl p)) 0 = true → (s.part p).resetting = false →
      Does (.partition t f p 0) s t (.syncs :: .objs :: .hbm :: .alc :: .flt :: .regs :: .power :: endAreas) (fun q =>
        (q.part p).resetting = true ∧ (q.part p).backlog = [] ∧
        (s.req? slot = some r → r.part = p → r.opc ≠ 0x13 → r.phase = .running → r.stopped = false → ∃ r', q.req? slot = some r' ∧ r'.ending = some 0x31 ∧ r'.phase = .ready ∧ r'.stages = []) ∧
        (∀ i, (s.sync i).live = true → (s.sync i).part = p → q.sync i = { s.sync i with live := false, gen := ((s.sync i).gen + 1) % 256 }) ∧
        (∀ i, (s.sync i).part ≠ p → q.sync i = s.sync i) ∧ (∀ c ∈ q.objs.caches, c.part ≠ p) ∧ (∀ c ∈ q.objs.prefs, c.part ≠ p) ∧ q.objs.indexes = s.objs.indexes ∧
        (∀ l ∈ s.partLands p, (q.land l).injRes = none ∧ (q.land l).injEcc = none))) ∧
    (s.ownerAt t f → p < 16 → bitW (s.reg (Reg.partCtrl p)) 0 = false ∨ (s.part p).resetting = true →
      Does (.partition t f p 0) s t [.regs, .power] (fun q => bitW (q.reg Reg.rstStatus) 0 = true ∧ s.regsBut q [Reg.rstStatus])) ∧
    (s.running = true → (s.part p).resetting = true → (∀ e ∈ s.reqs, e.2.part ≠ p) → (∀ e ∈ s.flt.phys, e.2.state = 3 → s.physIn p e.2 = false) → (∀ i, (s.proc i).state ≠ 2) →
      Does (.partitionResetComplete t p) s t [.parts] (fun q => (q.part p).resetDone = true ∧ (∀ i ∈ (q.part p).fencedBy, (s.proc i).state = 3) ∧ ∀ j, j ≠ p → q.part j = s.part j)) ∧
    (s.running = true → (∃ e ∈ s.reqs, e.2.part = p) → Does (.partitionResetComplete t p) s t [] (fun q => q.parts = s.parts))

/-! ## The Aperture -/

/-- APERTURE_WRITE stores its bytes at the Aperture base plus the offset, those beyond the HBM not, and every other byte of the HBM is as before; APERTURE_READ
answers the bytes of T2, all ones beyond the HBM, and Completer Abort with a record for a line that cannot be corrected (R341, R117). -/
def Obligations.ApertureAccess : Prop :=
  ∀ (t f off len b : Nat) (d : List Byte) (s : State), s.ownerAt t f →
    let a := bitsW s.admin.aptBase 39 21 * 2097152 + off
    (off + d.length ≤ 2 ^ 36 → Does (.apertureWrite t f off d) s t [.hbm, .alc, .power] (fun q => s.hbmOutside q [(a, min d.length (s.member.hbmBytes - a))] ∧
      (s.memWf = true → a + d.length ≤ s.member.hbmBytes → Memory.readN q.hbm a d.length = d))) ∧
    (off + len ≤ 2 ^ 36 → a + len ≤ s.member.hbmBytes → Does (.apertureRead t f off len none) s t [.out, .power] (fun q =>
      q.out = .aptData f off (some (s.t2 a len)) :: s.out)) ∧
    (off + len ≤ 2 ^ 36 → s.member.hbmBytes ≤ a → Does (.apertureRead t f off len none) s t [.out, .power] (fun q =>
      q.out = .aptData f off (some (List.replicate len 0xFF#8)) :: s.out)) ∧
    (off + len ≤ 2 ^ 36 → Does (.apertureRead t f off len (some b)) s t (.power :: recAreas) (fun q => s.sent q (.aptData f off none) ∧ s.recorded q))

/-! ## Loadable units, memory and tenant registers -/

/-- MP_DATA_WRITE, TBL_DATA_WRITE and WALK_DATA_WRITE stage a word at the selected index, which moves on by one; a micro-program's word past place 64, or a
second word at a walker program's place 127, is discarded and the staging overflows (R84, R90, R111, R118). A table's index wraps after 1,023 (log entry
24). MP_COMMIT, MP_CLEAR, TBL_COMMIT, TBL_CLEAR, WALK_COMMIT and WALK_CLEAR answer in their unit's status (R85, R90, R91, R111); walker programs 0 to 15
fail with error 8 (log entry 24). NORM_COMMIT and NORM_CLEAR answer in TXT_NORM_STATUS: 5 locked, 4 in use, else the image's first failed check, or the slot
waits for the boundary (R156, R158, R173). -/
def Obligations.LoadableUnits : Prop :=
  (∀ (t f : Nat) (v : Word) (s : State), s.ownerAt t f →
      let i := bitsW (s.reg Reg.sfuMpSel) 14 8
      let j := bitsW (s.reg Reg.sfuTblSel) 19 10
      let k := bitsW (s.reg Reg.memWalkSel) 14 8
      let areas := [Area.regs, .units, .power]
      (i < 65 → Does (.mpDataWrite t f v) s t areas (fun q => q.units = { s.units with mp := { s.units.mp with staged := SMap.put s.units.mp.staged i v } } ∧
        bitsW (q.reg Reg.sfuMpSel) 14 8 = i + 1 ∧ bitsW (q.reg Reg.sfuMpSel) 7 0 = bitsW (s.reg Reg.sfuMpSel) 7 0 ∧ s.regsBut q [Reg.sfuMpSel])) ∧
      (65 ≤ i → Does (.mpDataWrite t f v) s t areas (fun q => q.units = { s.units with mp := { s.units.mp with overrun := true } } ∧ q.regs = s.regs)) ∧
      Does (.tblDataWrite t f v) s t areas (fun q => q.units = { s.units with tbl := { s.units.tbl with staged := SMap.put s.units.tbl.staged j (v &&& 0xFFFFFFFF) } } ∧
        bitsW (q.reg Reg.sfuTblSel) 19 10 = (j + 1) % 1024 ∧ s.regsBut q [Reg.sfuTblSel]) ∧
      (k < 127 → Does (.walkDataWrite t f v) s t areas (fun q => q.units = { s.units with walk := { s.units.walk with staged := SMap.put s.units.walk.staged k v } } ∧
        bitsW (q.reg Reg.memWalkSel) 14 8 = k + 1 ∧ s.regsBut q [Reg.memWalkSel])) ∧
      (k = 127 → SMap.find s.units.walk.staged 127 = none → Does (.walkDataWrite t f v) s t areas (fun q =>
        q.units = { s.units with walk := { s.units.walk with staged := SMap.put s.units.walk.staged 127 v } } ∧ q.regs = s.regs)) ∧
      (k = 127 → SMap.find s.units.walk.staged 127 ≠ none → Does (.walkDataWrite t f v) s t areas (fun q => q.units = { s.units with walk := { s.units.walk with overrun := true } } ∧ q.regs = s.regs))) ∧
  (∀ (t f : Nat) (s : State), s.ownerAt t f →
      let areas := [Area.units, .power]
      let sfu := bitW (s.reg Reg.sfuLock) 0
      let mem := bitW (s.reg Reg.memLock) 0
      let i := bitsW (s.reg Reg.sfuMpSel) 7 0
      let j := bitsW (s.reg Reg.sfuTblSel) 4 0
      let k := bitsW (s.reg Reg.memWalkSel) 5 0
      let n := bitsW (s.reg Reg.txtNormSel) 2 0
      let u := s.units
      let src := s.regN Reg.txtNormSrc / 4096 * 4096
      let b := Memory.readN s.hbm src (min (leNat (Memory.readN s.hbm (src + 56) 4)) 4194304)
      let e := normErr (Blob.slice b 0 (max 64 b.length))
      Does (.mpCommit t f) s t areas (fun q => u.mp.answered q.units.mp sfu ((s.listed 2).contains i) i (some s.mpCheck) ∧ { q.units with mp := u.mp } = u) ∧
      Does (.mpClear t f) s t areas (fun q => u.mp.answered q.units.mp sfu ((s.listed 2).contains i) i none ∧ { q.units with mp := u.mp } = u) ∧
      Does (.tblCommit t f) s t areas (fun q => u.tbl.answered q.units.tbl sfu (s.tableUsed j) j (some s.tblCheck) ∧ { q.units with tbl := u.tbl } = u) ∧
      Does (.tblClear t f) s t areas (fun q => u.tbl.answered q.units.tbl sfu (s.tableUsed j) j none ∧ { q.units with tbl := u.tbl } = u) ∧
      (16 ≤ k → Does (.walkCommit t f) s t areas (fun q => u.walk.answered q.units.walk mem ((s.listed 3).contains k) k (some s.walkCheck) ∧ { q.units with walk := u.walk } = u) ∧
        Does (.walkClear t f) s t areas (fun q => u.walk.answered q.units.walk mem ((s.listed 3).contains k) k none ∧ { q.units with walk := u.walk } = u)) ∧
      (k < 16 → ∀ c ∈ [Instr.walkCommit t f, .walkClear t f], Does c s t areas (fun q => q.units = { u with walk := { u.walk with status := statusWord 3 8 0 } })) ∧
      (bitW (s.reg Reg.txtLock) 0 = true → ∀ c ∈ [Instr.normCommit t f, .normClear t f], Does c s t areas (fun q => q.units = { u with normStatus := statusWord 3 5 0 })) ∧
      (bitW (s.reg Reg.txtLock) 0 = false → s.normUsed n = true → ∀ c ∈ [Instr.normCommit t f, .normClear t f], Does c s t areas (fun q => q.units = { u with normStatus := statusWord 3 4 0 })) ∧
      (bitW (s.reg Reg.txtLock) 0 = false → s.normUsed n = false →
        Does (.normClear t f) s t areas (fun q => q.units = { u with normStatus := 1, normPend := SMap.put u.normPend n none }) ∧
        (e ≠ 0 → Does (.normCommit t f) s t areas (fun q => q.units = { u with normStatus := statusWord 3 e 0 })) ∧
        (Blob.u32 b 0 ≠ 0x4C4E524D → e = 1) ∧ e ≤ 3 ∧
        (e = 0 → 64 ≤ Blob.u32 b 56 ∧ Blob.u32 b 56 ≤ 4194304 ∧ normSecsOk b = true ∧
          Does (.normCommit t f) s t areas (fun q => q.units = { u with normStatus := 1, normPend := SMap.put u.normPend n (some b) }))))

/-- ECC_COUNT_CLEAR clears the counts whose bits are set (R118). ALC_PIN_WRITE holds the pins for the boundary (R98); PIN_REGION_WRITE writes a region's word,
and a word without VALID no content (R119); PC_SET_WRITE writes a set's pseudo-channels on a die where the set holds nothing on it (R102). Each is refused
with its bit of MEM_STATUS. -/
def Obligations.MemoryRegisters : Prop :=
  ∀ (t f i d : Nat) (v : Word) (s : State),
    let areas := [Area.regs, .staged, .power]
    let pins := BitVec.ofNat 64 (bitsW v 15 0)
    let old := s.reg (Reg.memPinRegion i)
    let w := (v &&& 0xFFFFFFFF00FFFF37) ||| (if bitW v 0 && bitW old 0 then old &&& 0x1000000 else 0)
    let m := v.toNat &&& dieChannels s.member d
    let clash := ∃ k, k < 16 ∧ k ≠ i ∧ (s.regN (Reg.memPcSet (8 * k + d)) &&& m) ≠ 0
    let refused := fun (q : State) (b : Nat) => bitW (q.reg Reg.memStatus) b = true ∧ s.regsBut q [Reg.memStatus] ∧ q.staged = s.staged
    (s.ownerAt t f → Does (.eccCountClear t f v) s t areas (fun q => (∀ j, j < 8 → q.reg (Reg.memEccCount j) = if bitW v j then 0 else s.reg (Reg.memEccCount j)) ∧
      s.regsBut q ((List.range 8).map Reg.memEccCount) ∧ q.staged = s.staged)) ∧
    (s.rwlAt t f Reg.memLock → i < s.member.alcoves →
      (s.pinRefused i (bitsW v 15 0) = false → Does (.alcPinWrite t f i v) s t areas (fun q => SMap.find q.staged (Reg.memAlcPin i) = some pins ∧ SMap.but s.staged q.staged (Reg.memAlcPin i) ∧ q.regs = s.regs)) ∧
      (s.pinRefused i (bitsW v 15 0) = true → Does (.alcPinWrite t f i v) s t areas (fun q => refused q 0))) ∧
    (s.rwlAt t f Reg.memLock → i < 32 →
      (bitW w 0 = false ∨ s.regionBad i w = false → Does (.pinRegionWrite t f i v) s t (.hbm :: .alc :: areas) (fun q =>
        q.reg (Reg.memPinRegion i) = w ∧ s.regsBut q [Reg.memPinRegion i] ∧ q.staged = s.staged ∧ (bitW w 0 = false → q.hbm = s.hbm ∧ q.alc = s.alc))) ∧
      (bitW w 0 = true → s.regionBad i w = true → Does (.pinRegionWrite t f i v) s t areas (fun q => refused q 2))) ∧
    (s.rwlAt t f Reg.memLock → i < 16 → d < s.member.halls →
      (clash → Does (.pcSetWrite t f i d v) s t areas (fun q => refused q 1)) ∧
      (¬ clash → s.usedOn i d ≠ 0 → Does (.pcSetWrite t f i d v) s t areas (fun q => q.regs = s.regs ∧ q.staged = s.staged)) ∧
      (¬ clash → s.usedOn i d = 0 → Does (.pcSetWrite t f i d v) s t areas (fun q => q.regN (Reg.memPcSet (8 * i + d)) = m ∧ s.regsBut q [Reg.memPcSet (8 * i + d)] ∧ q.staged = s.staged)))

/-- PART_REGISTER_WRITE holds an accepted value for the boundary, or refuses it with its bit of PART_STATUS (R148): a change of an enabled partition's Wings or
kind, a disable with requests in flight, a Wing that another partition has. TEN_REGISTER_WRITE does the same for a tenant's settings and a function's
binding (R376, R378, R379); TEN_REFILL marks the selected tenant for the next refill. -/
def Obligations.TenantRegisters : Prop :=
  ∀ (t f off p g : Nat) (v : Word) (r : RegRow) (i : Nat) (s : State),
    let areas := [Area.regs, .staged, .power]
    let held := fun (q : State) (k : Nat) (x : Word) => SMap.find q.staged k = some x ∧ SMap.but s.staged q.staged k ∧ q.regs = s.regs
    let bits := fun (q : State) (o b : Nat) => bitW (q.reg o) b = true ∧ s.regsBut q [o] ∧ q.staged = s.staged
    let n := bitsW (s.reg Reg.tenSel) 11 0
    (s.rwlAt t f Reg.partLock → partOff off = true → regAt off = some (r, i) → (off % 0x100 = 0x30 → s.member.speculates = true) →
      (s.partRefused off v = none → Does (.partRegisterWrite t f off v) s t areas (fun q => held q off (v &&& BitVec.ofNat 64 r.mask))) ∧
      (∀ b, s.partRefused off v = some b → Does (.partRegisterWrite t f off v) s t areas (fun q => bits q Reg.partStatus b))) ∧
    (p < 16 → bitW (s.reg (Reg.partCtrl p)) 0 = true → s.partRefused (Reg.partWings p) v = some 1 ∧
      (bitW v 1 ≠ bitW (s.reg (Reg.partCtrl p)) 1 ∨ (bitW v 0 = false ∧ s.inFlight p ≠ 0) → s.partRefused (Reg.partCtrl p) v = some 1)) ∧
    (p < 16 → g < 16 → g ≠ p → bitW (s.reg (Reg.partCtrl p)) 0 = false → (s.regN (Reg.partWings g) &&& v.toNat) ≠ 0 → s.partRefused (Reg.partWings p) v = some 0) ∧
    (s.rwlAt t f Reg.tenLock →
      (bitsW v 31 0 ≤ bitsW v 63 32 → bitsW v 63 32 ≠ 0 → bitsW v 63 32 < 2 ^ 31 → Does (.tenRegisterWrite t f Reg.tenRate v) s t areas (fun q => held q (tenKey n 0) v)) ∧
      (bitsW v 63 32 < bitsW v 31 0 → Does (.tenRegisterWrite t f Reg.tenRate v) s t areas (fun q => bits q Reg.tenStatus 0)) ∧
      Does (.tenRegisterWrite t f Reg.tenCfg v) s t areas (fun q => held q (tenKey n 8) (v &&& 0xFFFF0003)) ∧
      (g < 1024 → s.tenRefused (0x22000 + 8 * g) v = 0 → Does (.tenRegisterWrite t f (0x22000 + 8 * g) v) s t areas (fun q => held q (0x22000 + 8 * g) (v &&& 0x0FFF0FFFFFFF0001))) ∧
      (g < 1024 → g = s.ownerPort → Does (.tenRegisterWrite t f (0x22000 + 8 * g) v) s t areas (fun q => bits q Reg.tenStatus 1))) ∧
    (s.ownerAt t f → bitW v 0 = true → Does (.tenRefill t f v) s t [.tenants, .power] (fun q => q.tenant n = { s.tenant n with refill := true } ∧ ∀ j, j ≠ n → q.tenant j = s.tenant j))

/-! ## Time -/

/-- NEWEL_TREAD_WRITE holds a length of 5 to 500 µs for a boundary and ignores others (R411); NEWEL_CTRL_WRITE selects the source, and source 0 puts the servo
into FREE_RUN at once (R407); NEWEL_TIME_READ answers the counter and latches a fraction, a free value (R404); PPS_OUT_EDGE gives its pulse at each whole
second while the output is enabled (R406, R412). -/
def Obligations.NewelRegisters : Prop :=
  ∀ (t f : Nat) (v : Word) (s : State),
    let u := s.advance t
    let len := bitsW v 8 0
    (s.rwlAt t f Reg.newelLock → 5 ≤ len → len ≤ 500 → Does (.newelTreadWrite t f v) s t [.regs, .newel, .power] (fun q =>
      q.newel.pend = some (1000 * len) ∧ q.newel.len = s.newel.len ∧ q.regN Reg.newelTread = len ∧ s.regsBut q [Reg.newelTread])) ∧
    (len < 5 ∨ 500 < len → Does (.newelTreadWrite t f v) s t [] (fun q => q.newel = u.newel)) ∧
    (s.rwlAt t f Reg.newelLock → Does (.newelCtrlWrite t f v) s t [.regs, .newel, .power] (fun q => q.reg Reg.newelCtrl = v &&& 0xF3 ∧ s.regsBut q [Reg.newelCtrl] ∧
      (bitsW v 1 0 = 0 → q.newel.servo = 0 ∧ q.newel.holdFrom = none) ∧ (bitsW v 1 0 ≠ 0 → q.newel = u.newel))) ∧
    (u.reach f = true → fnVf f = 0 → Does (.newelTimeRead t f) s t [.newel, .fresh, .out] (fun q => q.out = .regData f Reg.newelTime (BitVec.ofNat 64 u.now) :: s.out ∧
      q.fresh = s.fresh + 1 ∧ { q.newel with fracReg := 0 } = { u.newel with fracReg := 0 })) ∧
    (s.running = true → bitW (s.reg Reg.newelPpsOut) 16 = true → u.now % 1000000000 = 0 → Does (.ppsOutEdge t) s t [.out] (fun q =>
      q.out = .ppsOut (u.now / 1000000000) (bitsW (s.reg Reg.newelPpsOut) 9 0) :: s.out)) ∧
    (bitW (s.reg Reg.newelPpsOut) 16 = false ∨ u.now % 1000000000 ≠ 0 → Does (.ppsOutEdge t) s t [] (fun q => q.out = s.out))

/-- PTP_DELAY_RESP, PPS_IN_EDGE and GALLERY_TIME_EXCHANGE complete a measurement of the offset from the selected source (R405, R406): the servo and the counter
follow R407 and R408. PTP_ANNOUNCE enters a master, and NEWEL_MASTER names the best: none has a lower rank (R406). PTP_SYNC of the master stamps its arrival
and sends a Delay_Req, and a Follow_Up carries the origin time. SOURCE_TIMEOUT and HOLDOVER_LONG: a silent source puts a LOCKED servo into HOLDOVER (R407),
and 1,000 s of it set a status bit (R409). -/
def Obligations.OffsetMeasurements : Prop :=
  (∀ (t m a b : Nat) (off : Int) (s : State), s.running = true → (s.proc 4).state = 1 →
      let u := s.advance t
      let n := s.newel
      let areas := [Area.clock, .newel, .regs, .cnt]
      let tod := s.reg Reg.newelTod
      let sec := if n.lastPulse ≠ none ∧ tod = n.todSeen then n.pulseSec + 1 else tod.toNat + 1
      (s.timeSrc = 1 → n.master = some m → n.reqT3 = some a → Does (.ptpDelayResp t m a b) s t areas (fun q =>
        u.measured q ((((n.syncT2 : Int) - n.syncT1) - ((b : Int) - a)) / 2) ∧ q.newel.reqT3 = none)) ∧
      (s.timeSrc = 2 → Does (.ppsInEdge t) s t areas (fun q => u.measured q ((u.now : Int) - (sec * 1000000000 : Nat)) ∧ q.newel.lastPulse = some u.now ∧ q.newel.pulseSec = sec ∧
        (n.lastPulse ≠ none → tod = n.todSeen → bitW (q.reg Reg.newelStatus) 3 = true))) ∧
      (s.timeSrc = 3 → s.timePeer = m → (s.peer m).state = 2 → Does (.galleryTimeExchange t m off true) s t areas (fun q => u.measured q off) ∧
        Does (.galleryTimeExchange t m off false) s t [.newel, .regs] (fun q => (n.servo = 2 → q.newel.servo = 3 ∧ q.newel.holdFrom = some u.now ∧ bitW (q.reg Reg.newelStatus) 0 = true) ∧
          (n.servo ≠ 2 → q.newel = u.newel ∧ q.regs = s.regs)))) ∧
  (∀ (t m k iv : Nat) (s : State), s.running = true →
      let u := s.advance t
      let n := s.newel
      ((s.proc 4).state = 1 → Does (.ptpAnnounce t m k iv) s t [.newel, .regs] (fun q => SMap.find q.newel.masters m = some { rank := k, interval := iv } ∧ SMap.but n.masters q.newel.masters m ∧
        (∃ b x, q.newel.master = some b ∧ (b, x) ∈ q.newel.masters ∧ q.regN Reg.newelMaster = b % 2 ^ 64 ∧ ∀ e ∈ q.newel.masters, x.rank ≤ e.2.rank) ∧ s.regsBut q [Reg.newelMaster])) ∧
      (s.timeSrc = 1 → n.master = some m → Does (.ptpSync t m k false) s t [.newel, .out] (fun q =>
          q.newel = { u.newel with syncT1 := k, syncT2 := u.now, reqT3 := some u.now } ∧ q.out = .ptpDelayReq u.now :: s.out) ∧
        Does (.ptpSync t m k true) s t [.newel] (fun q => q.newel = { u.newel with syncT1 := k })) ∧
      (s.timeSrc ≠ 1 ∨ n.master ≠ some m → Does (.ptpSync t m k false) s t [] (fun q => q.newel = u.newel)) ∧
      (s.timeSrc = 2 → n.lastPulse.getD 0 + 1500000000 ≤ u.now → n.servo = 2 → Does (.sourceTimeout t) s t [.newel, .regs] (fun q =>
        q.newel.servo = 3 ∧ q.newel.holdFrom = some u.now ∧ bitW (q.reg Reg.newelStatus) 0 = true ∧ s.regsBut q [Reg.newelStatus])) ∧
      (s.timeSrc = 1 → n.syncT2 + 3 * (match n.master with | some x => (SMap.at n.masters x {}).interval | none => 0) ≤ u.now → Does (.sourceTimeout t) s t [.newel, .regs] (fun q =>
        q.newel.master = none ∧ q.newel.masters = [] ∧ bitW (q.reg Reg.newelStatus) 4 = true ∧ (n.servo = 2 → q.newel.servo = 3))) ∧
      (∀ h, n.servo = 3 → n.holdFrom = some h → h + 1000000000000 ≤ u.now → Does (.holdoverLong t) s t [.newel, .regs] (fun q => q.newel = { u.newel with holdLong := true } ∧
        bitW (q.reg Reg.newelStatus) 2 = true ∧ s.regsBut q [Reg.newelStatus])))

/-! ## Counters -/

/-- FREEZE, UNFREEZE, SNAPSHOT and CLEAR act on every landing of the module at once (R510): frozen cycle counts stand, a snapshot copies the counts, a clear
sets them to 0 and empties the sampling buffers; scheduled actions that are due by then apply before (R512). EVSEL_WRITE selects an event and sets its
counter to 0, and is refused for a code that no event has (R506, R507, R514). PROG_COUNTER_WRAP: a counter that passes 2^48 - 1 wraps and sets its CNT_OVF
bit (R506); frozen, it stands. SAMPLE_WRITE fills the next place of the buffer, or only counts where the buffer is full and does not wrap (R513).
SCHEDULED_COUNTER_ACTION applies a due entry, which is then disabled or moves on, and waits for the entries that are due before it (R511, R512). -/
def Obligations.CounterEffects : Prop :=
  (∀ (t f l : Nat) (s : State), s.ownerAt t f → l < s.member.landings →
      let u := s.advance t
      let v := u.wakeDormant.schedNow
      let areas := [Area.lands, .cnt, .regs, .power]
      let c := (v.land l).cnt
      ((∀ j, j < 4 → u.schedDue j = false) → v = u.wakeDormant) ∧
      (v.cnt.frozen = false → Does (.freeze t f) s t areas (fun q => q.cnt = { v.cnt with frozen := true } ∧ (q.land l).cnt = { c with cycBase := c.cycles u.now, cycFrom := none })) ∧
      (v.cnt.frozen = true → Does (.freeze t f) s t areas (fun q => q.cnt = v.cnt ∧ q.lands = v.lands) ∧ Does (.unfreeze t f) s t areas (fun q => q.cnt = { v.cnt with frozen := false } ∧
        (landWing l ∉ s.power.wings → s.power.dormant = false → (v.land l).phys ≠ none → (q.land l).cnt = { c with cycBase := c.cycles u.now, cycFrom := some u.now }) ∧
        (landWing l ∈ s.power.wings ∨ s.power.dormant = true ∨ (v.land l).phys = none → (q.land l).cnt = c))) ∧
      Does (.snapshot t f) s t areas (fun q => q.cnt = { v.cnt with snapSeq := (v.cnt.snapSeq + 1) % 65536, snapTime := u.now, snapPart := v.cnt.part } ∧
        (q.land l).cnt = { c with snapCyc := c.cycles u.now, snapProg := c.prog }) ∧
      Does (.clear t f) s t areas (fun q => q.cnt = { v.cnt with part := [] } ∧ (∀ i, SMap.at (q.land l).cnt.prog i 0 = 0) ∧ (q.land l).cnt.cycles u.now = 0 ∧ (q.land l).cnt.ovf = 0 ∧
        (q.land l).cnt.entries = [] ∧ (q.land l).cnt.total = 0 ∧ (q.land l).cnt.evsel = c.evsel ∧ (q.land l).cnt.snapProg = c.snapProg ∧ { q.land l with cnt := c } = v.land l)) ∧
  (∀ (t f l i n : Nat) (v : Word) (e : SampleFields) (s : State),
      let u := s.advance t
      let k := (s.fnOf f).cntSel
      let c := (s.land l).cnt
      let only := fun (q : State) (x : Counters) => q.land l = { s.land l with cnt := x } ∧ ∀ j, j ≠ l → q.land j = s.land j
      let ctl := s.reg (Reg.cntSchedCtrl i)
      (s.ownerAt t f → i < 8 → k < s.member.landings → bitsW v 7 0 ∈ eventCodes → bitsW v 21 20 = 0 → Does (.evselWrite t f i v) s t [.lands, .power] (fun q =>
        SMap.at (q.land k).cnt.evsel i 0 = v.toNat &&& 0x1FF7FFFF ∧ SMap.at (q.land k).cnt.prog i 0 = 0 ∧ (q.land k).cnt.ovf = ((s.land k).cnt.ovf &&& (255 - 2 ^ i)) ∧
        (∀ j, j ≠ i → SMap.find (q.land k).cnt.prog j = SMap.find (s.land k).cnt.prog j) ∧ ∀ j, j ≠ k → q.land j = s.land j)) ∧
      (s.ownerAt t f → i < 8 → bitsW v 7 0 ≠ 0 → bitsW v 7 0 ∉ eventCodes → Does (.evselWrite t f i v) s t [.regs, .power] (fun q => bitW (q.reg Reg.cntStatus) 1 = true ∧ s.regsBut q [Reg.cntStatus])) ∧
      (s.running = true → s.cnt.frozen = false → l < s.member.landings → i < 8 → Does (.progCounterWrap t l i n) s t [.lands] (fun q =>
        let x := SMap.at c.prog i 0 + n
        only q { c with prog := SMap.put c.prog i (x % 2 ^ 48), ovf := if 2 ^ 48 ≤ x then c.ovf ||| 2 ^ i else c.ovf })) ∧
      (s.cnt.frozen = true → Does (.progCounterWrap t l i n) s t [] (fun q => q.lands = s.lands) ∧ Does (.sampleWrite t l e) s t [] (fun q => q.lands = s.lands)) ∧
      (s.running = true → s.cnt.frozen = false → l < s.member.landings → bitN c.smpCfg 31 = true → bitsN c.smpCfg 7 0 = e.event → bitsN c.smpCfg 27 8 ≠ 0 → eventOcc e.event = false →
        (c.entries.length < 1024 ∨ bitN c.smpCfg 28 = true → Does (.sampleWrite t l e) s t [.lands] (fun q => ∃ b, b.length = 32 ∧ Blob.u64 b 0 = u.now % 2 ^ 64 ∧ Blob.u8 b 20 = e.event % 256 ∧
          Blob.u32 b 28 = (c.total + 1) % 2 ^ 32 ∧
          only q { c with total := (c.total + 1) % 2 ^ 32, entries := SMap.put c.entries c.head b, head := (c.head + 1) % 1024, wrapped := c.wrapped || decide (1024 ≤ c.entries.length) })) ∧
        (1024 ≤ c.entries.length → bitN c.smpCfg 28 = false → Does (.sampleWrite t l e) s t [.lands] (fun q => only q { c with total := (c.total + 1) % 2 ^ 32, lost := true }))) ∧
      (s.running = true → i < 4 → bitW ctl 0 = true → bitW ctl 4 = true → bitN s.cnt.late i = false → s.regN (Reg.cntSchedTime i) ≤ u.now → bitsW ctl 3 1 = 3 → u.schedBefore i = [] →
        Does (.scheduledCounterAction t i) s t [.lands, .cnt, .regs] (fun q => q.cnt.snapTime = u.now ∧ q.cnt.snapSeq = (s.cnt.snapSeq + 1) % 65536 ∧
          (bitsW ctl 23 8 = 0 → q.reg (Reg.cntSchedCtrl i) = clrBitW ctl 0 ∧ s.regsBut q [Reg.cntSchedCtrl i]) ∧
          (bitsW ctl 23 8 ≠ 0 → q.regN (Reg.cntSchedTime i) = (s.regN (Reg.cntSchedTime i) + bitsW ctl 23 8 * s.newel.len) % 2 ^ 64 ∧ s.regsBut q [Reg.cntSchedTime i]))) ∧
      (u.schedDue i = false ∨ u.schedBefore i ≠ [] → Does (.scheduledCounterAction t i) s t [] (fun q => q.cnt = s.cnt ∧ q.regs = s.regs)))

/-! ## Register writes -/

/-- REGISTER_WRITE by the owner (R12, R370): a RW or RWL register of an unlocked block takes its writable bits where the value is in range, and keeps its value
where it is not; a lock register's bits only rise; a W1C register loses the bits that are written as ones; a virtual function's offset that no block has is
without effect. -/
def Obligations.RegisterWrites : Prop :=
  ∀ (t f o : Nat) (v : Word) (r : RegRow) (s : State),
    let areas := [Area.regs, .power]
    let one := fun (q : State) (x : Word) => q.reg o = x ∧ s.regsBut q [o]
    (s.ownerAt t f → fnVf f = 0 →
      (o ∈ [Reg.fltPolicy, Reg.pwrCap, Reg.pwrCtrl, Reg.memLend, Reg.galLoss, Reg.idxWarn, Reg.newelPpsOut] → regAt o = some (r, 0) → r.width = 64 ∨ r.width = 32 →
        (∀ l, r.access = .rwl → lockOf o = some l → bitW (s.reg l) 0 = true → Does (.registerWrite t f o 8 v) s t areas (fun q => q.regs = s.regs)) ∧
        ((∀ l, r.access = .rwl → lockOf o = some l → bitW (s.reg l) 0 = false) →
        let w := if r.width = 32 then v &&& 0xFFFFFFFF else v
        (s.valueOk r w = true → Does (.registerWrite t f o 8 v) s t areas (fun q => one q (w &&& BitVec.ofNat 64 r.mask))) ∧
        (s.valueOk r w = false → Does (.registerWrite t f o 8 v) s t areas (fun q => q.regs = s.regs)))) ∧
      (o ∈ [Reg.partLock, Reg.tenLock, Reg.newelLock, Reg.pwrLock, Reg.rstLock, Reg.fltLock, Reg.cntLock, Reg.sfuLock, Reg.galLock, Reg.memLock, Reg.txtLock, Reg.fwLock, Reg.secLock] →
        Does (.registerWrite t f o 4 v) s t areas (fun q => one q (s.reg o ||| (v &&& 1)))) ∧
      (o ∈ [Reg.pwrStatus, Reg.rstStatus, Reg.fltStatus, Reg.galStatus, Reg.memStatus, Reg.partStatus, Reg.tenStatus, Reg.newelStatus, Reg.cntStatus, Reg.idxStatus] → regAt o = some (r, 0) →
        Does (.registerWrite t f o 4 v) s t areas (fun q => one q (s.reg o &&& ~~~((v &&& 0xFFFFFFFF) &&& BitVec.ofNat 64 r.mask))))) ∧
    (fnVf f ≠ 0 → 0x9000 ≤ o → Does (.registerWrite t f o 8 v) s t [] (fun q => q.regs = s.regs))

/-- Isolation: a register write of a function that is not the owner changes no register of the module, no tenant, no object, no other function's rings and
vectors: only its own, and it may start an exit from Dormant (R12, R364, R366, R370, R473). -/
def Obligations.NonOwnerWrites : Prop :=
  ∀ (t f o size : Nat) (v : Word) (s : State), s.isOwner f = false →
    Does (.registerWrite t f o size v) s t [.fns, .power, .out] (fun q => SMap.but s.fns q.fns f ∧ { q.power with waking := s.power.waking } = s.power ∧ ∃ l, q.out = l ++ s.out)

/-! ## Supply, start-up, heat -/

/-- Supply events. SUPPLY_WARNING below 60.00 V starts a warning that marks each request not yet past its Balustrade check, throttles every Hall die to a
quarter and asserts ALERT_N; a fall during a warning continues it (R460 to R463). INPUT_CROSSES_62V starts the hold upward and drops it downward, and
SUPPLY_WARNING_CLEAR after 100 µs of hold ends the warning, counts it and writes its record (R462, R482). OVERVOLTAGE and OVERVOLTAGE_END mark, count and
record the rise through 82.0 V and the fall through 80.0 V (R467). POWER_CAP_EVALUATE (R468): an average above the cap lowers the arrays' issue limit by a
sixteenth, down to 4; one below 95% of it raises the limit by one, up to 16; between the two it stands. The first step below 16 sets PWR_STATUS bit 2 and
counts. -/
def Obligations.SupplyEvents : Prop :=
  (∀ (t vin k h : Nat) (r : Req) (w : SupplyEvent) (s : State),
      let u := s.advance t
      let p := s.power
      let seen := fun q : State => q.power.vin = vin ∧ q.power.vmin = min p.vmin vin
      (p.phase = .up → vin < 6000 → Does (.supplyWarning t vin) s t [.power, .regs, .reqs] (fun q => seen q ∧ q.power.hold = none ∧
        bitW (q.reg Reg.pwrStatus) 0 = true ∧ s.regsBut q [Reg.pwrStatus] ∧ q.alertN = true ∧ q.issueLimit h = min p.capStep 4 ∧
        (s.req? k = some r → q.req? k = some { r with brownout := r.brownout || r.passedAt.isNone }) ∧
        (p.warn = none → q.power.warn = some { start := u.now, extreme := vin, still := (List.range 4).filter u.alcIdle }) ∧ (p.warn = some w → q.power.warn = some { w with extreme := min w.extreme vin }))) ∧
      (p.phase = .up → p.warn = some w → Does (.inputCrosses62v t true vin) s t [.power] (fun q => seen q ∧ q.power.hold = some u.now ∧ q.power.warn = some w) ∧
        Does (.inputCrosses62v t false vin) s t [.power] (fun q => seen q ∧ q.power.hold = none ∧ q.power.warn = some w)) ∧
      (p.warn = some w → p.hold = some h → 6200 ≤ vin → h + 100000 ≤ u.now → Does (.supplyWarningClear t vin) s t (.power :: recAreas) (fun q => seen q ∧
        q.power.warn = none ∧ q.power.hold = none ∧ s.recorded q ∧ q.store.held = [] ∧ bitsW (q.reg Reg.pwrEvents) 15 0 = min 65535 (bitsW (s.reg Reg.pwrEvents) 15 0 + 1) ∧
        bitsW (q.reg Reg.pwrLastEvent) 31 0 = min ((u.now - w.start) / 1000) (2 ^ 32 - 1) ∧ bitsW (q.reg Reg.pwrLastEvent) 47 32 = w.extreme % 65536)) ∧
      (p.warn = some w → p.hold = some h → u.now < h + 100000 → Does (.supplyWarningClear t vin) s t [] (fun q => q.power = p)) ∧
      (p.phase = .up → 8200 ≤ vin → p.overrun = none → Does (.overvoltage t vin) s t [.power, .regs] (fun q => seen q ∧ q.power.overrun = some { start := u.now, extreme := vin } ∧
        bitW (q.reg Reg.pwrStatus) 1 = true ∧ bitsW (q.reg Reg.pwrEvents) 63 48 = min 65535 (bitsW (s.reg Reg.pwrEvents) 63 48 + 1) ∧ s.regsBut q [Reg.pwrStatus, Reg.pwrEvents])) ∧
      (p.phase = .up → 8200 ≤ vin → p.overrun = some w → Does (.overvoltage t vin) s t [.power] (fun q => seen q ∧ q.power.overrun = some { w with extreme := max w.extreme vin })) ∧
      (p.overrun = some w → vin < 8000 → Does (.overvoltageEnd t vin) s t (.power :: recAreas) (fun q => seen q ∧ q.power.overrun = none ∧ s.recorded q ∧
        bitsW (q.reg Reg.pwrLastEvent) 47 32 = w.extreme % 65536))) ∧
  (∀ (t avg iin : Nat) (s : State), s.running = true →
      let cap := bitsW (s.reg Reg.pwrCap) 12 0
      let c := s.power.capStep
      Does (.powerCapEvaluate t avg iin) s t [.power, .regs] (fun q =>
        { q.power with capStep := c } = { s.power with watts := avg, iin := iin } ∧
        (cap < avg → q.power.capStep = max 4 (c - 1)) ∧ (100 * avg < 95 * cap → q.power.capStep = min 16 (c + 1)) ∧
        (95 * cap ≤ 100 * avg → avg ≤ cap → q.power.capStep = c) ∧
        (c = 16 → cap < avg → bitW (q.reg Reg.pwrStatus) 2 = true ∧ bitsW (q.reg Reg.pwrEvents) 31 16 = min 65535 (bitsW (s.reg Reg.pwrEvents) 31 16 + 1) ∧ s.regsBut q [Reg.pwrStatus, Reg.pwrEvents]) ∧
        (c ≠ 16 ∨ avg ≤ cap → q.regs = s.regs)))

/-- The start-up sequence: INPUT_QUALIFY, a crossing of 62.0 V, INPUT_ENABLE and CHARGE_COMPLETE lead from off to the rails (R526, R527). PERST_N_RELEASE ends a
port's reset signal, and HOST_LINK_TRAINED brings its link up with the latency tolerances its host wrote, which with those of the partitions bound the
permitted depth at once (R335, R469, R470, R525). -/
def Obligations.StartUp : Prop :=
  ∀ (t vin p : Nat) (ltr : List LtrVal) (s : State),
    let u := s.advance t
    let w := s.power
    (w.phase = .off → 6200 ≤ vin → Does (.inputQualify t vin) s t [.power] (fun q => q.power = { w with phase := .qualify, since := u.now, vin := vin, vmin := vin })) ∧
    (w.phase = .qualify → Does (.inputCrosses62v t false vin) s t [.power] (fun q => q.power.phase = .off)) ∧
    (w.phase = .off → Does (.inputCrosses62v t true vin) s t [.power] (fun q => q.power.phase = .qualify ∧ q.power.since = u.now)) ∧
    (w.phase = .qualify → Does (.inputEnable t) s t [.power] (fun q => q.power = { w with phase := .charge, since := u.now, enOpen := false })) ∧
    (w.phase = .charge → Does (.chargeComplete t) s t [.power] (fun q => q.power = { w with phase := .rails, since := u.now })) ∧
    (p < s.member.ports → Does (.perstNRelease t p) s t [.ports] (fun q => q.port p = { s.port p with perst := false } ∧ ∀ j, j ≠ p → q.port j = s.port j)) ∧
    (s.running = true → p < s.member.ports → (s.port p).perst = false → Does (.hostLinkTrained t p ltr) s t [.ports, .fns, .power] (fun q =>
      q.port p = { s.port p with linkUp := true } ∧ (∀ j, j ≠ p → q.port j = s.port j) ∧
      (∀ v ∈ ltr, v.pf < s.pfCount p → (∀ x ∈ ltr, x.pf = v.pf → x = v) → let f := fnId p v.pf 0
        q.fnOf f = { s.fnOf f with ltrEn := v.enable, ltrSnoop := v.snoop, ltrNoSnoop := v.noSnoop, relaxed := v.relaxed }) ∧
      q.power = { w with tol := q.tolerance, depth := depthFor q.tolerance (bitsW (s.reg Reg.pwrCtrl) 1 0) } ∧
      (∀ j k, j < s.member.ports → (q.port j).linkUp = true → k < s.pfCount j → (q.fnOf (fnId j k 0)).ltrEn = true →
        q.tolerance ≤ (q.fnOf (fnId j k 0)).ltrSnoop ∧ q.tolerance ≤ (q.fnOf (fnId j k 0)).ltrNoSnoop))) ∧
    ((s.port p).perst = true → Does (.hostLinkTrained t p ltr) s t [] (fun q => q.ports = s.ports))

/-- Thermal conditions (R532, R534): DIE_WARN at 95 °C, DIE_THROTTLE at 105 °C of a die or 95 °C of a stack, COOLANT_HIGH at 45 °C and LEAK begin a condition
and write its record, or raise the highest temperature of one that stands; a throttled die, and with the coolant high every die, issues at a quarter (R533).
DIE_TRIP takes every link down and stops the module, and THERMAL_CONDITION_CLEAR ends any condition but a trip with a second record. -/
def Obligations.ThermalConditions : Prop :=
  ∀ (t k x v h : Nat) (s : State),
    let u := s.advance t
    let w := s.power
    let stands := w.thermal.any (fun c => c.kind == k && c.site == x) = true
    let shown := fun q : State =>
      (k = 2 → x = h → h < 8 → q.issueLimit h ≤ 4) ∧ (k = 3 → q.issueLimit h ≤ 4) ∧ (k ∈ [2, 3, 5] → q.alertN = true) ∧ (k = 5 → q.leakN = true)
    let begun := fun (c : Instr) =>
      (¬ stands → Does c s t (.power :: recAreas) (fun q => q.power = { w with thermal := w.thermal ++ [{ kind := k, site := x, start := u.now, peak := v }] } ∧ s.recorded q ∧ shown q)) ∧
      (stands → Does c s t [.power] (fun q => { q.power with thermal := [] } = { w with thermal := [] } ∧
        (∀ c ∈ w.thermal, (if c.kind = k ∧ c.site = x then { c with peak := max c.peak v } else c) ∈ q.power.thermal) ∧ q.power.thermal.length = w.thermal.length))
    (s.running = true →
      (k = 1 → x < 16 → sitePresent s.member x = true → 95 ≤ v → begun (.dieWarn t x v)) ∧ (k = 2 → sitePresent s.member x = true → (if x < 16 then 105 else 95) ≤ v → begun (.dieThrottle t x v)) ∧
      (k = 3 → x = 0xFF → 45 ≤ v → begun (.coolantHigh t v)) ∧ (k = 5 → x = 0xFF → v = 0 → begun (.leak t)) ∧
      (v < 95 ∨ sitePresent s.member x = false → Does (.dieWarn t x v) s t [] (fun q => q.power = w)) ∧
      (k ≠ 4 → stands → Does (.thermalConditionClear t k x) s t (.power :: recAreas) (fun q =>
        q.power = { w with thermal := w.thermal.filter fun c => !(c.kind == k && c.site == x) } ∧ s.recorded q))) ∧
    (Does (.thermalConditionClear t 4 x) s t [] (fun q => q.power = w)) ∧
    (w.phase = .up → w.tripped = false → sitePresent s.member x = true → (if x < 16 then 115 else 105) ≤ v → Does (.dieTrip t x v) s t (.power :: .ports :: .gal :: recAreas) (fun q =>
      q.power.tripped = true ∧ q.thermN = true ∧ q.running = false ∧ s.recorded q ∧ (∀ p, (q.port p).linkUp = false) ∧ ∀ p, (q.galPort p).state = 0))

/-! ## Power states -/

/-- Quiet and Still (R471): LANDING_CLOCK_GATE gates a landing idle for 1 µs at depth 1 or more where no deque of its partition holds two tasks; WING_POWER_GATE
takes power from a Wing in no enabled partition, or at depth 2 whose landings were all gated for 16 Treads (R149), never during a supply warning (R461): its
stores and loans are lost and its cycle counts stop (R480, R505). STILL_EXIT_COMPLETE gives it back to a woken Wing. Dormant (R472, R473, R481, R482):
DORMANT_ENTRY at depth 3, with the module quiet for the idle time, stops the Hall firmware processors and the cycle counts, and counts;
DORMANT_EXIT_COMPLETE after an exit was started runs them again and sets every enabled tenant's own budget to its burst and its surplus to 0; landing
stores, loans and Alcove lines are lost. WAKE starts the exits, CLEAR_MIN sets the lowest voltage to the present one, and STORE_TOKEN_ADD adds a token, up
to 4 (R499). -/
def Obligations.PowerStates : Prop :=
  (∀ (t l w : Nat) (s : State),
      let u := s.advance t
      let d := s.land l
      let mine := wingLands w
      (s.running = true → l < s.member.landings → 1 ≤ s.power.depth → d.queued = 0 → d.running = [] → d.gated = false → d.idleFrom + 1000 ≤ u.now → s.crowded l = false →
        Does (.landingClockGate t l) s t [.lands] (fun q => q.land l = { d with gated := true, gatedFor := 0 } ∧ ∀ j, j ≠ l → q.land j = s.land j)) ∧
      (s.power.depth = 0 ∨ d.running ≠ [] ∨ u.now < d.idleFrom + 1000 ∨ s.crowded l = true → Does (.landingClockGate t l) s t [] (fun q => q.lands = s.lands)) ∧
      (s.running = true → w < s.member.wings → s.power.warn = none → w ∉ s.power.wings →
        (s.wingUsed w = false ∨ (2 ≤ s.power.depth ∧ ∀ k ∈ mine, (s.land k).gated = true ∧ 16 ≤ (s.land k).gatedFor)) →
        Does (.wingPowerGate t w) s t [.power, .lands] (fun q => q.power.wings = w :: s.power.wings ∧ (∀ k, k ∉ mine → q.land k = s.land k) ∧
          ∀ k ∈ mine, q.land k = { (s.land k).loseStore with cnt := if s.cnt.frozen then (s.land k).cnt
            else { (s.land k).cnt with cycBase := (s.land k).cnt.cycles u.now, cycFrom := none } })) ∧
      (s.power.warn ≠ none ∨ w ∈ s.power.wings → Does (.wingPowerGate t w) s t [] (fun q => q.power = s.power)) ∧
      (w ∈ s.power.wings → w ∈ s.power.wingWake → Does (.stillExitComplete t w) s t [.power, .lands] (fun q =>
        w ∉ q.power.wings ∧ w ∉ q.power.wingWake ∧ (∀ x, x ≠ w → (x ∈ q.power.wings ↔ x ∈ s.power.wings)) ∧ (∀ k, k ∉ mine → q.land k = s.land k) ∧
        ∀ k ∈ mine, (q.land k).gated = false ∧ (q.land k).idleFrom = u.now ∧ (s.cnt.frozen = false → (s.land k).phys ≠ none → s.power.dormant = false → (q.land k).cnt.cycFrom = some u.now))) ∧
      (w ∉ s.power.wingWake → Does (.stillExitComplete t w) s t [] (fun q => q.power = s.power))) ∧
  (∀ (t f h k : Nat) (x : Tenant) (s : State),
      let u := s.advance t
      let w := s.power
      let idle := bitsW (s.reg Reg.pwrCtrl) 15 8 * 10000000
      (∀ i, w.idleFrom = some i → s.running = true → w.dormant = false → w.depth = 3 → s.quiet = true → i + idle ≤ u.now → w.activeTo ≤ u.now →
        Does (.dormantEntry t) s t [.power, .fw, .regs, .lands] (fun q => q.power = { w with dormant := true, waking := none } ∧
            (∀ l, { q.land l with cnt := (s.land l).cnt } = s.land l ∧ (s.cnt.frozen = false → l < s.member.landings → (q.land l).cnt = (s.land l).cnt.stopCyc u.now)) ∧
          (h < s.member.halls → (q.proc (8 + h)).state = if (s.proc (8 + h)).state = 1 then 0 else (s.proc (8 + h)).state) ∧ (h < 8 → q.proc h = s.proc h) ∧
          bitsW (q.reg Reg.pwrEvents) 47 32 = min 65535 (bitsW (s.reg Reg.pwrEvents) 47 32 + 1) ∧ s.regsBut q [Reg.pwrEvents])) ∧
      (w.depth ≠ 3 ∨ s.quiet = false ∨ w.idleFrom = none → Does (.dormantEntry t) s t [] (fun q => q.power = w)) ∧
      (s.running = true → w.dormant = true → w.waking ≠ none → Does (.dormantExitComplete t) s t [.power, .fw, .tenants, .lands, .alc] (fun q =>
        q.power = { w with dormant := false, waking := none, idleFrom := none, activeTo := u.now + idle } ∧
        (h < s.member.halls → (q.proc (8 + h)).state = if (s.proc (8 + h)).state = 0 then 1 else (s.proc (8 + h)).state) ∧
        (SMap.find s.tenants k = some x → SMap.find q.tenants k = some (if bitW x.cfg 0 then { x with own := bitsW x.rate 63 32, surplus := 0 } else x)) ∧
        (∀ l, { q.land l with cnt := (s.land l).cnt } = (s.land l).loseStore ∧ (s.cnt.frozen = true → (q.land l).cnt = (s.land l).cnt) ∧
            (s.cnt.frozen = false → l < s.member.landings → (s.land l).phys ≠ none → landWing l ∉ w.wings → (q.land l).cnt.cycFrom = some u.now)) ∧ q.alc.sets = [] ∧ q.alc.fills = [])) ∧
      (w.dormant = false ∨ w.waking = none → Does (.dormantExitComplete t) s t [] (fun q => q.power = w)) ∧
      (s.ownerAt t f → Does (.wake t f) s t [.power] (fun q => q.power.wingWake = w.wings ∧ (w.dormant = true → w.waking = none → q.power.waking = some u.now)) ∧
        Does (.clearMin t f) s t [.power] (fun q => q.power.vmin = w.vin ∧ q.power.vin = w.vin)) ∧
      (s.running = true → s.store.due ≤ u.now → Does (.storeTokenAdd t) s t [.store] (fun q =>
        q.store = { s.store with tokens := min 4 (s.store.tokens + 1), next := s.store.due + 1800000000000 })) ∧
      (u.now < s.store.due → Does (.storeTokenAdd t) s t [] (fun q => q.store = s.store)))

/-! ## The Gallery -/

/-- Gallery links. GALLERY_LINK_TRAINED puts a port in HELLO and sends the module's HELLO (R394); GALLERY_LANE_LOSS retrains at four lanes where that is
allowed, or takes the port down (R389); RETRAIN_PORT trains it again (R403). FLIT_ERROR asks for a replay; REPLAY_REQUEST replays, and the 16th replay of
one flit takes the port down to retrain (R391). HELLO (R394, R396, R402): one that fails a check sends the port to REFUSED with GAL_STATUS bit 0 for another
group, bit 1 for another interface, bit 2 for a duplicate module ID; one that passes brings the port up at its width, and its peer joins with its
generation, or is told the generation that this module expects where that is later. The duplicate of a peer reached by another port is log entry 13's. -/
def Obligations.GalleryLinks : Prop :=
  (∀ (t f p n : Nat) (s : State), s.galPortOk p = true →
      let g := s.galPort p
      let up := g.state = 2 ∨ g.state = 3
      let x4 := bitW (s.reg (Reg.galPortCtrl p)) 1
      let only := fun (q : State) (x : GalPort) => q.galPort p = x ∧ (∀ j, j ≠ p → q.galPort j = s.galPort j) ∧ q.gal.peers = s.gal.peers ∧ q.gal.ownGen = s.gal.ownGen
      let times := if g.replaySeq = n then g.replays + 1 else 1
      ((s.proc (4 + p / 3)).state = 1 → n = 8 ∨ x4 = true → Does (.galleryLinkTrained t p n) s t [.gal, .out] (fun q => only q { g with state := 1, lanes := n } ∧ q.out = .galPort p s.helloMsg :: s.out)) ∧
      (n ≠ 8 → x4 = false → Does (.galleryLinkTrained t p n) s t [] (fun q => q.gal = s.gal)) ∧
      (up ∨ g.state = 1 → (x4 = true → Does (.galleryLaneLoss t p true) s t [.gal] (fun q => only q { g with state := 1, lanes := 4 } ∧ q.gal.reroute = true)) ∧
        Does (.galleryLaneLoss t p false) s t [.gal, .regs] (fun q => only q { g with state := 0, lanes := 0, replays := 0 } ∧ q.gal.reroute = true ∧
          bitW (q.reg Reg.galStatus) 6 = true ∧ s.regsBut q [Reg.galStatus])) ∧
      (s.ownerAt t f → Does (.retrainPort t f p) s t [.gal, .power] (fun q => only q { g with state := 1, lanes := 0 } ∧ q.gal.reroute = true)) ∧
      (up → Does (.flitError t p n) s t [.out] (fun q => q.out = .galPort p (.replayRequest n) :: s.out)) ∧
      (up → times < 16 → Does (.replayRequest t p n) s t [.gal, .out] (fun q =>
        only q { g with replaySeq := n, replays := times, replayed := min 65535 (g.replayed + 1) } ∧ q.out = .galPort p (.replayFrom n) :: s.out)) ∧
      (up → 16 ≤ times → Does (.replayRequest t p n) s t [.gal, .regs] (fun q => (q.galPort p).state = 1 ∧ (q.galPort p).lanes = 0 ∧ q.gal.reroute = true ∧
        bitW (q.reg Reg.galStatus) 6 = true ∧ s.regsBut q [Reg.galStatus])) ∧
      (¬ up → Does (.flitError t p n) s t [] (fun q => q.out = s.out) ∧ Does (.replayRequest t p n) s t [] (fun q => q.gal = s.gal))) ∧
  (∀ (t p : Nat) (m : HelloMsg) (s : State), s.galPortOk p = true → (s.galPort p).state ≠ 0 → (s.galPort p).state ≠ 4 →
      let g := s.galPort p
      let x := s.peer m.moduleId
      let bad := s.helloRefusal p m
      (bad ≠ 0 → Does (.hello t p m) s t [.gal, .regs] (fun q => (q.galPort p).state = 4 ∧ q.gal.peers = s.gal.peers ∧
        (m.groupTag ≠ s.gal.groupTag → bitW (q.reg Reg.galStatus) 0 = true) ∧
        (m.behaviour ≠ s.fuses.behaviour ∨ m.ifVersion / 65536 ≠ s.fw.ifVer / 65536 → bitW (q.reg Reg.galStatus) 1 = true) ∧
        (m.moduleId = s.gal.moduleId → bitW (q.reg Reg.galStatus) 2 = true) ∧ s.regsBut q [Reg.galStatus])) ∧
      (bad = 0 ↔ m.groupTag = s.gal.groupTag ∧ m.behaviour = s.fuses.behaviour ∧ m.ifVersion / 65536 = s.fw.ifVer / 65536 ∧ m.moduleId ≠ s.gal.moduleId ∧
        ¬ (x.state = 2 ∧ x.port ≠ p ∧ x.order ≠ m.orderCode)) ∧
      (bad = 0 → genLater x.expGen m.gen = false → Does (.hello t p m) s t [.gal] (fun q =>
        q.galPort p = { g with state := if g.lanes = 8 then 2 else 3, peer := m.moduleId, peerPort := m.peerPort } ∧ (∀ j, j ≠ p → q.galPort j = s.galPort j) ∧
        q.peer m.moduleId = { x with state := if x.state = 2 then 2 else 1, expGen := m.gen, lastFlit := (s.advance t).now, order := m.orderCode } ∧
        ∀ j, j ≠ m.moduleId → q.peer j = s.peer j)) ∧
      (bad = 0 → genLater x.expGen m.gen = true → Does (.hello t p m) s t [.gal, .out] (fun q =>
        (q.galPort p).state = (if g.lanes = 8 then 2 else 3) ∧ q.gal.peers = s.gal.peers ∧ q.out = .galPort p (.expected x.expGen) :: s.out)) ∧
      (∀ a b, a < 256 → b < 256 → (genLater a b = true ↔ a ≠ b ∧ (a + 256 - b) % 256 ≤ 127)))

/-- Peers. HEARTBEAT_SEND sends one heartbeat to each present peer, and HEARTBEAT and PEER_DIRECTORY refresh a peer (R398, R400); flits of an unexpected
generation are dropped and counted by HEARTBEAT and STALE_FLIT_DROP (R396). PEER_LOSS_TIMEOUT and DECLARE_PEER_LOST mark a present peer for the next
boundary (R400, R403), and LOSS_NOTICE adopts a later generation (R396). -/
def Obligations.Peers : Prop :=
  ∀ (t f p j g n : Nat) (m : LossMsg) (d : PeerDir) (s : State), s.running = true →
    let u := s.advance t
    let x := s.peer p
    let only := fun (q : State) (k : Nat) (y : Peer) => q.peer k = y ∧ (∀ i, i ≠ k → q.peer i = s.peer i) ∧ { q.gal with peers := [], stale := 0 } = { s.gal with peers := [], stale := 0 }
    let dropped := fun (q : State) (c : Nat) => only q p { x with stale := x.stale + c } ∧ q.gal.stale = min (2 ^ 32 - 1) (s.gal.stale + c) ∧
      bitW (q.reg Reg.galStatus) 4 = true ∧ s.regsBut q [Reg.galStatus]
    let port := s.galPortOk j = true ∧ ((s.galPort j).state = 2 ∨ (s.galPort j).state = 3)
    let later := fun a b => if genLater a b then a else b
    (Does (.heartbeatSend t) s t [.out] (fun q => ∃ l, q.out = l ++ s.out ∧ (∀ k, .gal k 3 .heartbeat ∈ l ↔ k ∈ s.presentPeers) ∧ l.length = s.presentPeers.length)) ∧
    (port → p < 16 → g = x.expGen → Does (.heartbeat t j p g) s t [.gal] (fun q => only q p { x with lastFlit := u.now } ∧ q.gal.stale = s.gal.stale)) ∧
    (port → p < 16 → g ≠ x.expGen → Does (.heartbeat t j p g) s t [.gal, .regs] (fun q => dropped q 1)) ∧
    (s.gal.enabled = true → p < 16 → g ≠ x.expGen → n ≠ 0 → Does (.staleFlitDrop t p g n) s t [.gal, .regs] (fun q => dropped q n)) ∧
    (x.state = 2 → x.lastFlit + 1000 * bitsW (s.reg Reg.galLoss) 19 0 ≤ u.now → Does (.peerLossTimeout t p) s t [.gal] (fun q => only q p { x with timedOut := true })) ∧
    (x.state ≠ 2 ∨ u.now < x.lastFlit + 1000 * bitsW (s.reg Reg.galLoss) 19 0 → Does (.peerLossTimeout t p) s t [] (fun q => q.gal = s.gal)) ∧
    (s.ownerAt t f → p < 16 → x.state = 2 → Does (.declarePeerLost t f p) s t [.gal, .power] (fun q => only q p { x with declare := true })) ∧
    (s.gal.enabled = true → p < 16 → m.about < 16 →
      (m.about = s.gal.moduleId → Does (.lossNotice t p m) s t [.gal] (fun q => q.gal = { s.gal with ownGen := later m.gen s.gal.ownGen })) ∧
      (m.about ≠ s.gal.moduleId → Does (.lossNotice t p m) s t [.gal] (fun q => only q m.about { s.peer m.about with expGen := later m.gen (s.peer m.about).expGen }))) ∧
    (x.state = 2 → Does (.peerDirectory t p d) s t [.gal] (fun q => q.peer p = { x with ready := d.ready, accept := d.accept, links := d.links, lastFlit := u.now } ∧ (∀ i, i ≠ p → q.peer i = s.peer i) ∧
      q.gal.reroute = (s.gal.reroute || d.links != x.links) ∧ { q.gal with peers := [], reroute := false } = { s.gal with peers := [], reroute := false }))

/-- SUB_REQUEST of a present peer is admitted as a request of its own that keeps the peer's tag, and waits for the boundary (R397, R398). SUB_REQUEST_POOL and
GALLERY_RESPONSE bring a peer's pool, its refusal, cause bits, read data or acknowledgements to the request that asked (R392, R397, R398, R434); a message
that fails its end-to-end check doubts it with cause bit 6, counts and records (R391). -/
def Obligations.PeerRequests : Prop :=
  ∀ (t p k causes n : Nat) (direct : Bool) (m : SubReq) (pool : List Cand) (counts : List Nat) (data : Blob) (r : Req) (s : State), s.running = true → (s.peer p).state = 2 →
    let u := s.advance t
    let live := fun q : State => (q.peer p).lastFlit = u.now
    let gave := fun (q : State) (g : Req → Prop) => live q ∧ (∃ r', q.req? k = some r' ∧ r'.desc = r.desc ∧ r'.phase = r.phase ∧ g r') ∧ SMap.but s.reqs q.reqs k
    let settled := r.needs.filter (· != p)
    -- a running request waits for the boundary after its step, any other goes to its Balustrade step at once (R29)
    let waits := fun r' : Req => r'.stages = [] ∧ (r.phase = .running → r'.phase = .ready) ∧ (r.phase = .waiting → r'.phase = .balustrade)
    (m.part < 16 → m.query ≠ [] → Does (.subRequest t p m) s t [.gal, .power, .reqs, .order] (fun q => live q ∧ q.nextOrder = s.nextOrder + 1 ∧
      ∃ i r', 65536 ≤ i ∧ s.req? i = none ∧ q.req? i = some r' ∧ r'.peer = some (p, m.tag) ∧ r'.part = m.part ∧ r'.xs.query = m.query ∧ r'.phase = .waiting ∧
        r'.compat = m.compat ∧ Req.tenant r' = m.tenant % 4096 ∧ SMap.but s.reqs q.reqs i)) ∧
    (s.req? k = some r →
      (r.phase = .running → ∀ y, SMap.find r.xs.peers p = some y → y.pool = none →
        (causes = 0 → Does (.subRequestPool t p k pool causes true counts) s t [.gal, .reqs] (fun q => gave q fun r' =>
          (SMap.at r'.xs.peers p {}).pool = some pool ∧ (SMap.at r'.xs.peers p {}).counts = counts ∧ r'.needs = settled ∧ r'.doubt = r.doubt)) ∧
        (causes ≠ 0 → Does (.subRequestPool t p k pool causes true counts) s t [.gal, .reqs] (fun q => gave q fun r' =>
          (SMap.at r'.xs.peers p {}).pool = some pool ∧ r'.doubt = (r.doubt ||| (causes ||| 1024)) ∧ r'.stages = [])) ∧
        Does (.subRequestPool t p k pool causes false counts) s t (.gal :: .reqs :: recAreas) (fun q => gave q (fun r' => r'.doubt.testBit 6 = true ∧ r'.stages = []) ∧ s.recorded q ∧
          (q.galPort (s.peer p).port).e2e = min 65535 ((s.galPort (s.peer p).port).e2e + 1)) ∧
        Does (.galleryResponse t p (.subStatus k false causes) true) s t [.gal, .reqs] (fun q => gave q fun r' =>
          (SMap.at r'.xs.peers p {}).pool = some [] ∧ r'.needs = settled ∧ (causes ≠ 0 → r'.doubt = (r.doubt ||| (causes ||| 1024)) ∧ r'.stages = []))) ∧
      Does (.galleryResponse t p (.addAck k n direct) true) s t [.gal, .reqs] (fun q => gave q fun r' => r' = { r with xs := { r.xs with tab := { r.xs.tab with deltas := ackAdds direct n r.xs.tab.deltas } } }) ∧
      (∀ rest, r.xs.tab.acquire = p :: rest → Does (.galleryResponse t p (.stageAck k) true) s t [.gal, .reqs, .out] (fun q => gave q (fun r' =>
        r' = { r with xs := { r.xs with tab := { r.xs.tab with acquire := rest } } }) ∧
        q.out = (match rest with | m :: _ => [OutMsg.gal m 0 (.table { tag := k, table := r.objId, crc := (s.tabAt r.objId).crc, row := 0, work := .acquire })] | [] => []) ++ s.out)) ∧
      (r.xs.tab.acquire = [] → Does (.galleryResponse t p (.stageAck k) true) s t [.gal, .reqs] (fun q => gave q fun r' =>
        r' = { r with xs := { r.xs with tab := { r.xs.tab with applying := r.xs.tab.applying.filter (· != p) } } })) ∧
      (r.cur ≠ some .fetch → r.xs.t3Sent.any (fun e => e.1 == n) = true → r.xs.t3Got.any (fun e => e.1 == n) = false → Does (.galleryResponse t p (.t3Data k n data) true) s t [.gal, .reqs] (fun q =>
        gave q fun r' => r' = { r with xs := { r.xs with t3Got := r.xs.t3Got ++ [(n, data)] } })) ∧
      (r.opc ∈ [0x20, 0x21, 0x22] → r.phase ≠ .epoch → r.stopped = false → Does (.galleryResponse t p (.subStatus k true causes) true) s t [.gal, .reqs, .lands, .parts, .cnt, .arcades] (fun q =>
        live q ∧ ∃ r', q.req? k = some r' ∧ r'.ending = some 0x28 ∧ r'.writes = [] ∧ waits r')) ∧
      (r.opc = 0x02 → Does (.galleryResponse t p (.subStatus k true causes) true) s t [.gal, .reqs, .lands, .parts, .cnt, .arcades] (fun q =>
        live q ∧ ∃ r', q.req? k = some r' ∧ r'.peerLost = true ∧ r'.doubt.testBit 7 = true ∧ waits r'))) ∧
    (∀ (a : Delta) (l : List Delta), ackAdds direct 0 l = l ∧ (a.sent = true → a.done = false → ackAdds direct (n + 1) (a :: l) = { a with done := true, direct := direct } :: ackAdds direct n l) ∧
      (a.sent = false ∨ a.done = true → ackAdds direct (n + 1) (a :: l) = a :: ackAdds direct (n + 1) l))

/-! ## Attestation -/

/-- The SPDM responder (R485 to R490): on an open transport, with MFP-0 running, each request is answered. GET_VERSION gives versions 1.2 and 1.3 and begins a
negotiation; GET_CAPABILITIES and NEGOTIATE_ALGORITHMS carry it on; then GET_DIGESTS, GET_CERTIFICATE, CHALLENGE and GET_MEASUREMENTS are answered, and
before it, or in another version, refused. Any other request is UnsupportedRequest. Codes and layouts are the standards' (log entry 30). DOE_DISCOVERY
answers that the mailbox carries Discovery and SPDM of vendor 0x0001 (R487), and a failed MFP-0 sets DOE Error (R489): its SPDM requests are not answered.
While MFP-0 restarts, or with no firmware running, every SPDM request is Busy (R489), and a transport that SEC_SPDM_CTRL closes answers nothing (R487). -/
def Obligations.SpdmResponses : Prop :=
  (∀ (t : Nat) (e : SpdmEnd) (req : List Byte) (s : State), s.spdmOpen e = true → (s.proc 4).state = 1 → s.fw.state = 3 →
      let v := Blob.u8 req 0
      let stage := s.spdmStage e % 16
      let areas := [Area.spdm, .fresh, .out]
      let reply := fun (q : State) (code : Nat) (g : Blob → Prop) => ∃ b, q.out = .spdm e b :: s.out ∧ Blob.u8 b 1 = code ∧ q.spdm.answered = min (2 ^ 32 - 1) (s.spdm.answered + 1) ∧ g b
      let right := fun (q : State) (code : Nat) (g : Blob → Prop) => reply q code (fun b => Blob.u8 b 0 = v ∧ g b) ∧ q.spdm.errors = min (2 ^ 32 - 1) s.spdm.errors
      let errs := fun (q : State) (code : Nat) => reply q 0x7F (fun b => Blob.u8 b 2 = code) ∧ q.spdm.errors = min (2 ^ 32 - 1) (s.spdm.errors + 1) ∧ q.spdm.stage = s.spdm.stage
      let len := s.certChain.length
      let off := Blob.u16 req 4
      let op := Blob.u8 req 3
      Does (.spdmGetVersion t e) s t [.spdm, .out] (fun q => reply q 0x04 (fun b => Blob.u8 b 5 = 2 ∧ Blob.u16 b 6 = 0x1200 ∧ Blob.u16 b 8 = 0x1300) ∧ q.spdmStage e = 1) ∧
      (1 ≤ stage → v = 0x12 ∨ v = 0x13 → Does (.spdmGetCapabilities t e req) s t areas (fun q => right q 0x61 (fun b => Blob.u32 b 8 = 0x16) ∧ q.spdmStage e = 16 * v + 2)) ∧
      (stage = 0 → Does (.spdmGetCapabilities t e req) s t areas (fun q => errs q 0x04)) ∧
      (2 ≤ stage → v = s.spdmVer e →
        (bitN (Blob.u32 req 8) 9 = true → bitN (Blob.u32 req 12) 6 = true → Does (.spdmNegotiateAlgorithms t e req) s t areas (fun q =>
          right q 0x63 (fun b => b.length = 36 ∧ Blob.u32 b 8 = 0x80 ∧ Blob.u32 b 12 = 0x200 ∧ Blob.u32 b 16 = 0x40) ∧ q.spdmStage e = 16 * v + 3)) ∧
        (bitN (Blob.u32 req 8) 9 = false ∨ bitN (Blob.u32 req 12) 6 = false → Does (.spdmNegotiateAlgorithms t e req) s t areas (fun q => errs q 0x01))) ∧
      (3 ≤ stage → v = s.spdmVer e →
        Does (.spdmGetDigests t e req) s t areas (fun q => right q 0x01 (fun b => b.drop 4 = sm3 s.certChain)) ∧
        (Blob.u8 req 2 % 16 = 0 → off < len → Does (.spdmGetCertificate t e req) s t areas (fun q =>
          right q 0x02 (fun b => b.drop 8 = (s.certChain.drop off).take (min (Blob.u16 req 6) (len - off))))) ∧
        (Blob.u8 req 2 % 16 ≠ 0 ∨ len ≤ off → Does (.spdmGetCertificate t e req) s t areas (fun q => errs q 0x01)) ∧
        (Blob.u8 req 2 % 16 = 0 → Does (.spdmChallenge t e req) s t areas (fun q => right q 0x03 (fun b => Blob.u8 b 3 = 1 ∧ ∃ l, b.drop 4 = sm3 s.certChain ++ l) ∧ q.fresh = s.fresh + 1)) ∧
        (Blob.u8 req 2 % 16 ≠ 0 → Does (.spdmChallenge t e req) s t areas (fun q => errs q 0x01)) ∧
        (op ≤ 12 ∨ op = 0xFF → Does (.spdmGetMeasurements t e req) s t areas (fun q =>
          right q 0x60 (fun b => Blob.u8 b 2 = (if op = 0 then 12 else 0) ∧ Blob.u8 b 4 = (if op = 0 then 0 else if op = 0xFF then 12 else 1)))) ∧
        (12 < op → op ≠ 0xFF → Does (.spdmGetMeasurements t e req) s t areas (fun q => errs q 0x01))) ∧
      (stage < 3 → ∀ c ∈ [Instr.spdmGetDigests t e req, .spdmGetCertificate t e req, .spdmChallenge t e req, .spdmGetMeasurements t e req], Does c s t areas (fun q => errs q 0x04)) ∧
      (3 ≤ stage → v ≠ s.spdmVer e → ∀ c ∈ [Instr.spdmGetDigests t e req, .spdmGetCertificate t e req, .spdmChallenge t e req, .spdmGetMeasurements t e req], Does c s t areas (fun q => errs q 0x41)) ∧
      Does (.spdmUnsupported t e req) s t areas (fun q => errs q 0x07)) ∧
  (∀ (t f i : Nat) (e : SpdmEnd) (req : List Byte) (s : State),
      let all := [Instr.spdmGetVersion t e, .spdmGetCapabilities t e req, .spdmNegotiateAlgorithms t e req, .spdmGetDigests t e req, .spdmGetCertificate t e req, .spdmChallenge t e req,
        .spdmGetMeasurements t e req, .spdmUnsupported t e req]
      (fnVf f = 0 → s.spdmOpen (.doe f) = true → (s.proc 4).state ≠ 3 → Does (.doeDiscovery t f i) s t [.out] (fun q =>
        q.out = .doe f (leBytes 4 (if i = 0 then 0x01000001 else if i = 1 then 0x00010001 else 0x0000FFFF)) :: s.out)) ∧
      (fnVf f = 0 → s.spdmOpen (.doe f) = true → (s.proc 4).state = 3 → Does (.doeDiscovery t f i) s t [.out] (fun q => q.out = .doeError f :: s.out)) ∧
      (s.spdmOpen e = true → (s.proc 4).state = 3 → ∀ c ∈ all, Does c s t [.out] (fun q => (∀ pf, e = .doe pf → q.out = .doeError pf :: s.out) ∧ (e = .mctp → q.out = s.out))) ∧
      (s.spdmOpen e = true → (s.proc 4).state ≠ 3 → (s.fw.state ≠ 3 ∨ (s.proc 4).state ≠ 1) → ∀ c ∈ all, Does c s t [.spdm, .out] (fun q =>
        (∃ b, q.out = .spdm e b :: s.out ∧ Blob.u8 b 1 = 0x7F ∧ Blob.u8 b 2 = 3) ∧ q.spdm.stage = s.spdm.stage ∧ q.spdm.errors = min (2 ^ 32 - 1) (s.spdm.errors + 1))) ∧
      (s.spdmOpen e = false → ∀ c ∈ all, Does c s t [] (fun q => q.out = s.out)))

/-! ## Filters -/

/-- The filter of a retrieval (R222): an entry passes when, under FILTER, the masked attribute word equals FILTER_VALUE and, under RANGE, its field lies from
RANGE_LO to RANGE_HI. -/
def Obligations.FilterPasses : Prop :=
  ∀ (d : Blob) (a : Nat),
    let filter := bitN (Blob.u8 d 72) 1
    let range := bitN (Blob.u8 d 72) 2
    let f := (a >>> Blob.u8 d 84) &&& (2 ^ Blob.u8 d 85 - 1)
    passes d a = true ↔ (filter = false ∨ a &&& Blob.u32 d 76 = Blob.u32 d 80) ∧ (range = false ∨ (Blob.u32 d 88 ≤ f ∧ f ≤ Blob.u32 d 92))
end

