-- ==== Sys2Proof/Laws/State.lean ====
section
/-! SUPPORT. One lemma per field for each update of State: what the update leaves as it was. -/

namespace Sys2Proof.Machine

variable (s : State)

/-! `State.advance` changes `newel` alone. -/
@[simp] theorem State.advance_member (t : Nat) : (State.advance t s).member = s.member := rfl
@[simp] theorem State.advance_fuses (t : Nat) : (State.advance t s).fuses = s.fuses := rfl
@[simp] theorem State.advance_ownerPort (t : Nat) : (State.advance t s).ownerPort = s.ownerPort := rfl
@[simp] theorem State.advance_bifurc (t : Nat) : (State.advance t s).bifurc = s.bifurc := rfl
@[simp] theorem State.advance_regs (t : Nat) : (State.advance t s).regs = s.regs := rfl
@[simp] theorem State.advance_staged (t : Nat) : (State.advance t s).staged = s.staged := rfl
@[simp] theorem State.advance_power (t : Nat) : (State.advance t s).power = s.power := rfl
@[simp] theorem State.advance_rst (t : Nat) : (State.advance t s).rst = s.rst := rfl
@[simp] theorem State.advance_ports (t : Nat) : (State.advance t s).ports = s.ports := rfl
@[simp] theorem State.advance_fns (t : Nat) : (State.advance t s).fns = s.fns := rfl
@[simp] theorem State.advance_admin (t : Nat) : (State.advance t s).admin = s.admin := rfl
@[simp] theorem State.advance_fw (t : Nat) : (State.advance t s).fw = s.fw := rfl
@[simp] theorem State.advance_store (t : Nat) : (State.advance t s).store = s.store := rfl
@[simp] theorem State.advance_spdm (t : Nat) : (State.advance t s).spdm = s.spdm := rfl
@[simp] theorem State.advance_gal (t : Nat) : (State.advance t s).gal = s.gal := rfl
@[simp] theorem State.advance_hostMem (t : Nat) : (State.advance t s).hostMem = s.hostMem := rfl
@[simp] theorem State.advance_hbm (t : Nat) : (State.advance t s).hbm = s.hbm := rfl
@[simp] theorem State.advance_lands (t : Nat) : (State.advance t s).lands = s.lands := rfl
@[simp] theorem State.advance_flt (t : Nat) : (State.advance t s).flt = s.flt := rfl
@[simp] theorem State.advance_alc (t : Nat) : (State.advance t s).alc = s.alc := rfl
@[simp] theorem State.advance_arcades (t : Nat) : (State.advance t s).arcades = s.arcades := rfl
@[simp] theorem State.advance_cnt (t : Nat) : (State.advance t s).cnt = s.cnt := rfl
@[simp] theorem State.advance_parts (t : Nat) : (State.advance t s).parts = s.parts := rfl
@[simp] theorem State.advance_tenants (t : Nat) : (State.advance t s).tenants = s.tenants := rfl
@[simp] theorem State.advance_binds (t : Nat) : (State.advance t s).binds = s.binds := rfl
@[simp] theorem State.advance_sessions (t : Nat) : (State.advance t s).sessions = s.sessions := rfl
@[simp] theorem State.advance_syncs (t : Nat) : (State.advance t s).syncs = s.syncs := rfl
@[simp] theorem State.advance_reqs (t : Nat) : (State.advance t s).reqs = s.reqs := rfl
@[simp] theorem State.advance_nextOrder (t : Nat) : (State.advance t s).nextOrder = s.nextOrder := rfl
@[simp] theorem State.advance_objs (t : Nat) : (State.advance t s).objs = s.objs := rfl
@[simp] theorem State.advance_units (t : Nat) : (State.advance t s).units = s.units := rfl
@[simp] theorem State.advance_fresh (t : Nat) : (State.advance t s).fresh = s.fresh := rfl
@[simp] theorem State.advance_out (t : Nat) : (State.advance t s).out = s.out := rfl
@[simp] theorem State.advance_pending (t : Nat) : (State.advance t s).pending = s.pending := rfl

/-! `State.setReg` changes `regs` alone. -/
@[simp] theorem State.setReg_member (o : Nat) (v : Word) : (s.setReg o v).member = s.member := rfl
@[simp] theorem State.setReg_fuses (o : Nat) (v : Word) : (s.setReg o v).fuses = s.fuses := rfl
@[simp] theorem State.setReg_ownerPort (o : Nat) (v : Word) : (s.setReg o v).ownerPort = s.ownerPort := rfl
@[simp] theorem State.setReg_bifurc (o : Nat) (v : Word) : (s.setReg o v).bifurc = s.bifurc := rfl
@[simp] theorem State.setReg_staged (o : Nat) (v : Word) : (s.setReg o v).staged = s.staged := rfl
@[simp] theorem State.setReg_newel (o : Nat) (v : Word) : (s.setReg o v).newel = s.newel := rfl
@[simp] theorem State.setReg_power (o : Nat) (v : Word) : (s.setReg o v).power = s.power := rfl
@[simp] theorem State.setReg_rst (o : Nat) (v : Word) : (s.setReg o v).rst = s.rst := rfl
@[simp] theorem State.setReg_ports (o : Nat) (v : Word) : (s.setReg o v).ports = s.ports := rfl
@[simp] theorem State.setReg_fns (o : Nat) (v : Word) : (s.setReg o v).fns = s.fns := rfl
@[simp] theorem State.setReg_admin (o : Nat) (v : Word) : (s.setReg o v).admin = s.admin := rfl
@[simp] theorem State.setReg_fw (o : Nat) (v : Word) : (s.setReg o v).fw = s.fw := rfl
@[simp] theorem State.setReg_store (o : Nat) (v : Word) : (s.setReg o v).store = s.store := rfl
@[simp] theorem State.setReg_spdm (o : Nat) (v : Word) : (s.setReg o v).spdm = s.spdm := rfl
@[simp] theorem State.setReg_gal (o : Nat) (v : Word) : (s.setReg o v).gal = s.gal := rfl
@[simp] theorem State.setReg_hostMem (o : Nat) (v : Word) : (s.setReg o v).hostMem = s.hostMem := rfl
@[simp] theorem State.setReg_hbm (o : Nat) (v : Word) : (s.setReg o v).hbm = s.hbm := rfl
@[simp] theorem State.setReg_lands (o : Nat) (v : Word) : (s.setReg o v).lands = s.lands := rfl
@[simp] theorem State.setReg_flt (o : Nat) (v : Word) : (s.setReg o v).flt = s.flt := rfl
@[simp] theorem State.setReg_alc (o : Nat) (v : Word) : (s.setReg o v).alc = s.alc := rfl
@[simp] theorem State.setReg_arcades (o : Nat) (v : Word) : (s.setReg o v).arcades = s.arcades := rfl
@[simp] theorem State.setReg_cnt (o : Nat) (v : Word) : (s.setReg o v).cnt = s.cnt := rfl
@[simp] theorem State.setReg_parts (o : Nat) (v : Word) : (s.setReg o v).parts = s.parts := rfl
@[simp] theorem State.setReg_tenants (o : Nat) (v : Word) : (s.setReg o v).tenants = s.tenants := rfl
@[simp] theorem State.setReg_binds (o : Nat) (v : Word) : (s.setReg o v).binds = s.binds := rfl
@[simp] theorem State.setReg_sessions (o : Nat) (v : Word) : (s.setReg o v).sessions = s.sessions := rfl
@[simp] theorem State.setReg_syncs (o : Nat) (v : Word) : (s.setReg o v).syncs = s.syncs := rfl
@[simp] theorem State.setReg_reqs (o : Nat) (v : Word) : (s.setReg o v).reqs = s.reqs := rfl
@[simp] theorem State.setReg_nextOrder (o : Nat) (v : Word) : (s.setReg o v).nextOrder = s.nextOrder := rfl
@[simp] theorem State.setReg_objs (o : Nat) (v : Word) : (s.setReg o v).objs = s.objs := rfl
@[simp] theorem State.setReg_units (o : Nat) (v : Word) : (s.setReg o v).units = s.units := rfl
@[simp] theorem State.setReg_fresh (o : Nat) (v : Word) : (s.setReg o v).fresh = s.fresh := rfl
@[simp] theorem State.setReg_out (o : Nat) (v : Word) : (s.setReg o v).out = s.out := rfl
@[simp] theorem State.setReg_pending (o : Nat) (v : Word) : (s.setReg o v).pending = s.pending := rfl

/-! `State.setRegN` changes `regs` alone. -/
@[simp] theorem State.setRegN_member (o v : Nat) : (s.setRegN o v).member = s.member := rfl
@[simp] theorem State.setRegN_fuses (o v : Nat) : (s.setRegN o v).fuses = s.fuses := rfl
@[simp] theorem State.setRegN_ownerPort (o v : Nat) : (s.setRegN o v).ownerPort = s.ownerPort := rfl
@[simp] theorem State.setRegN_bifurc (o v : Nat) : (s.setRegN o v).bifurc = s.bifurc := rfl
@[simp] theorem State.setRegN_staged (o v : Nat) : (s.setRegN o v).staged = s.staged := rfl
@[simp] theorem State.setRegN_newel (o v : Nat) : (s.setRegN o v).newel = s.newel := rfl
@[simp] theorem State.setRegN_power (o v : Nat) : (s.setRegN o v).power = s.power := rfl
@[simp] theorem State.setRegN_rst (o v : Nat) : (s.setRegN o v).rst = s.rst := rfl
@[simp] theorem State.setRegN_ports (o v : Nat) : (s.setRegN o v).ports = s.ports := rfl
@[simp] theorem State.setRegN_fns (o v : Nat) : (s.setRegN o v).fns = s.fns := rfl
@[simp] theorem State.setRegN_admin (o v : Nat) : (s.setRegN o v).admin = s.admin := rfl
@[simp] theorem State.setRegN_fw (o v : Nat) : (s.setRegN o v).fw = s.fw := rfl
@[simp] theorem State.setRegN_store (o v : Nat) : (s.setRegN o v).store = s.store := rfl
@[simp] theorem State.setRegN_spdm (o v : Nat) : (s.setRegN o v).spdm = s.spdm := rfl
@[simp] theorem State.setRegN_gal (o v : Nat) : (s.setRegN o v).gal = s.gal := rfl
@[simp] theorem State.setRegN_hostMem (o v : Nat) : (s.setRegN o v).hostMem = s.hostMem := rfl
@[simp] theorem State.setRegN_hbm (o v : Nat) : (s.setRegN o v).hbm = s.hbm := rfl
@[simp] theorem State.setRegN_lands (o v : Nat) : (s.setRegN o v).lands = s.lands := rfl
@[simp] theorem State.setRegN_flt (o v : Nat) : (s.setRegN o v).flt = s.flt := rfl
@[simp] theorem State.setRegN_alc (o v : Nat) : (s.setRegN o v).alc = s.alc := rfl
@[simp] theorem State.setRegN_arcades (o v : Nat) : (s.setRegN o v).arcades = s.arcades := rfl
@[simp] theorem State.setRegN_cnt (o v : Nat) : (s.setRegN o v).cnt = s.cnt := rfl
@[simp] theorem State.setRegN_parts (o v : Nat) : (s.setRegN o v).parts = s.parts := rfl
@[simp] theorem State.setRegN_tenants (o v : Nat) : (s.setRegN o v).tenants = s.tenants := rfl
@[simp] theorem State.setRegN_binds (o v : Nat) : (s.setRegN o v).binds = s.binds := rfl
@[simp] theorem State.setRegN_sessions (o v : Nat) : (s.setRegN o v).sessions = s.sessions := rfl
@[simp] theorem State.setRegN_syncs (o v : Nat) : (s.setRegN o v).syncs = s.syncs := rfl
@[simp] theorem State.setRegN_reqs (o v : Nat) : (s.setRegN o v).reqs = s.reqs := rfl
@[simp] theorem State.setRegN_nextOrder (o v : Nat) : (s.setRegN o v).nextOrder = s.nextOrder := rfl
@[simp] theorem State.setRegN_objs (o v : Nat) : (s.setRegN o v).objs = s.objs := rfl
@[simp] theorem State.setRegN_units (o v : Nat) : (s.setRegN o v).units = s.units := rfl
@[simp] theorem State.setRegN_fresh (o v : Nat) : (s.setRegN o v).fresh = s.fresh := rfl
@[simp] theorem State.setRegN_out (o v : Nat) : (s.setRegN o v).out = s.out := rfl
@[simp] theorem State.setRegN_pending (o v : Nat) : (s.setRegN o v).pending = s.pending := rfl

/-! `State.orReg` changes `regs` alone. -/
@[simp] theorem State.orReg_member (o b : Nat) : (s.orReg o b).member = s.member := rfl
@[simp] theorem State.orReg_fuses (o b : Nat) : (s.orReg o b).fuses = s.fuses := rfl
@[simp] theorem State.orReg_ownerPort (o b : Nat) : (s.orReg o b).ownerPort = s.ownerPort := rfl
@[simp] theorem State.orReg_bifurc (o b : Nat) : (s.orReg o b).bifurc = s.bifurc := rfl
@[simp] theorem State.orReg_staged (o b : Nat) : (s.orReg o b).staged = s.staged := rfl
@[simp] theorem State.orReg_newel (o b : Nat) : (s.orReg o b).newel = s.newel := rfl
@[simp] theorem State.orReg_power (o b : Nat) : (s.orReg o b).power = s.power := rfl
@[simp] theorem State.orReg_rst (o b : Nat) : (s.orReg o b).rst = s.rst := rfl
@[simp] theorem State.orReg_ports (o b : Nat) : (s.orReg o b).ports = s.ports := rfl
@[simp] theorem State.orReg_fns (o b : Nat) : (s.orReg o b).fns = s.fns := rfl
@[simp] theorem State.orReg_admin (o b : Nat) : (s.orReg o b).admin = s.admin := rfl
@[simp] theorem State.orReg_fw (o b : Nat) : (s.orReg o b).fw = s.fw := rfl
@[simp] theorem State.orReg_store (o b : Nat) : (s.orReg o b).store = s.store := rfl
@[simp] theorem State.orReg_spdm (o b : Nat) : (s.orReg o b).spdm = s.spdm := rfl
@[simp] theorem State.orReg_gal (o b : Nat) : (s.orReg o b).gal = s.gal := rfl
@[simp] theorem State.orReg_hostMem (o b : Nat) : (s.orReg o b).hostMem = s.hostMem := rfl
@[simp] theorem State.orReg_hbm (o b : Nat) : (s.orReg o b).hbm = s.hbm := rfl
@[simp] theorem State.orReg_lands (o b : Nat) : (s.orReg o b).lands = s.lands := rfl
@[simp] theorem State.orReg_flt (o b : Nat) : (s.orReg o b).flt = s.flt := rfl
@[simp] theorem State.orReg_alc (o b : Nat) : (s.orReg o b).alc = s.alc := rfl
@[simp] theorem State.orReg_arcades (o b : Nat) : (s.orReg o b).arcades = s.arcades := rfl
@[simp] theorem State.orReg_cnt (o b : Nat) : (s.orReg o b).cnt = s.cnt := rfl
@[simp] theorem State.orReg_parts (o b : Nat) : (s.orReg o b).parts = s.parts := rfl
@[simp] theorem State.orReg_tenants (o b : Nat) : (s.orReg o b).tenants = s.tenants := rfl
@[simp] theorem State.orReg_binds (o b : Nat) : (s.orReg o b).binds = s.binds := rfl
@[simp] theorem State.orReg_sessions (o b : Nat) : (s.orReg o b).sessions = s.sessions := rfl
@[simp] theorem State.orReg_syncs (o b : Nat) : (s.orReg o b).syncs = s.syncs := rfl
@[simp] theorem State.orReg_reqs (o b : Nat) : (s.orReg o b).reqs = s.reqs := rfl
@[simp] theorem State.orReg_nextOrder (o b : Nat) : (s.orReg o b).nextOrder = s.nextOrder := rfl
@[simp] theorem State.orReg_objs (o b : Nat) : (s.orReg o b).objs = s.objs := rfl
@[simp] theorem State.orReg_units (o b : Nat) : (s.orReg o b).units = s.units := rfl
@[simp] theorem State.orReg_fresh (o b : Nat) : (s.orReg o b).fresh = s.fresh := rfl
@[simp] theorem State.orReg_out (o b : Nat) : (s.orReg o b).out = s.out := rfl
@[simp] theorem State.orReg_pending (o b : Nat) : (s.orReg o b).pending = s.pending := rfl

/-! `State.satField` changes `regs` alone. -/
@[simp] theorem State.satField_member (o hi lo n : Nat) : (s.satField o hi lo n).member = s.member := rfl
@[simp] theorem State.satField_fuses (o hi lo n : Nat) : (s.satField o hi lo n).fuses = s.fuses := rfl
@[simp] theorem State.satField_ownerPort (o hi lo n : Nat) : (s.satField o hi lo n).ownerPort = s.ownerPort := rfl
@[simp] theorem State.satField_bifurc (o hi lo n : Nat) : (s.satField o hi lo n).bifurc = s.bifurc := rfl
@[simp] theorem State.satField_staged (o hi lo n : Nat) : (s.satField o hi lo n).staged = s.staged := rfl
@[simp] theorem State.satField_newel (o hi lo n : Nat) : (s.satField o hi lo n).newel = s.newel := rfl
@[simp] theorem State.satField_power (o hi lo n : Nat) : (s.satField o hi lo n).power = s.power := rfl
@[simp] theorem State.satField_rst (o hi lo n : Nat) : (s.satField o hi lo n).rst = s.rst := rfl
@[simp] theorem State.satField_ports (o hi lo n : Nat) : (s.satField o hi lo n).ports = s.ports := rfl
@[simp] theorem State.satField_fns (o hi lo n : Nat) : (s.satField o hi lo n).fns = s.fns := rfl
@[simp] theorem State.satField_admin (o hi lo n : Nat) : (s.satField o hi lo n).admin = s.admin := rfl
@[simp] theorem State.satField_fw (o hi lo n : Nat) : (s.satField o hi lo n).fw = s.fw := rfl
@[simp] theorem State.satField_store (o hi lo n : Nat) : (s.satField o hi lo n).store = s.store := rfl
@[simp] theorem State.satField_spdm (o hi lo n : Nat) : (s.satField o hi lo n).spdm = s.spdm := rfl
@[simp] theorem State.satField_gal (o hi lo n : Nat) : (s.satField o hi lo n).gal = s.gal := rfl
@[simp] theorem State.satField_hostMem (o hi lo n : Nat) : (s.satField o hi lo n).hostMem = s.hostMem := rfl
@[simp] theorem State.satField_hbm (o hi lo n : Nat) : (s.satField o hi lo n).hbm = s.hbm := rfl
@[simp] theorem State.satField_lands (o hi lo n : Nat) : (s.satField o hi lo n).lands = s.lands := rfl
@[simp] theorem State.satField_flt (o hi lo n : Nat) : (s.satField o hi lo n).flt = s.flt := rfl
@[simp] theorem State.satField_alc (o hi lo n : Nat) : (s.satField o hi lo n).alc = s.alc := rfl
@[simp] theorem State.satField_arcades (o hi lo n : Nat) : (s.satField o hi lo n).arcades = s.arcades := rfl
@[simp] theorem State.satField_cnt (o hi lo n : Nat) : (s.satField o hi lo n).cnt = s.cnt := rfl
@[simp] theorem State.satField_parts (o hi lo n : Nat) : (s.satField o hi lo n).parts = s.parts := rfl
@[simp] theorem State.satField_tenants (o hi lo n : Nat) : (s.satField o hi lo n).tenants = s.tenants := rfl
@[simp] theorem State.satField_binds (o hi lo n : Nat) : (s.satField o hi lo n).binds = s.binds := rfl
@[simp] theorem State.satField_sessions (o hi lo n : Nat) : (s.satField o hi lo n).sessions = s.sessions := rfl
@[simp] theorem State.satField_syncs (o hi lo n : Nat) : (s.satField o hi lo n).syncs = s.syncs := rfl
@[simp] theorem State.satField_reqs (o hi lo n : Nat) : (s.satField o hi lo n).reqs = s.reqs := rfl
@[simp] theorem State.satField_nextOrder (o hi lo n : Nat) : (s.satField o hi lo n).nextOrder = s.nextOrder := rfl
@[simp] theorem State.satField_objs (o hi lo n : Nat) : (s.satField o hi lo n).objs = s.objs := rfl
@[simp] theorem State.satField_units (o hi lo n : Nat) : (s.satField o hi lo n).units = s.units := rfl
@[simp] theorem State.satField_fresh (o hi lo n : Nat) : (s.satField o hi lo n).fresh = s.fresh := rfl
@[simp] theorem State.satField_out (o hi lo n : Nat) : (s.satField o hi lo n).out = s.out := rfl
@[simp] theorem State.satField_pending (o hi lo n : Nat) : (s.satField o hi lo n).pending = s.pending := rfl

/-! `State.setFn` changes `fns` alone. -/
@[simp] theorem State.setFn_member (f : Nat) (x : Fn) : (s.setFn f x).member = s.member := rfl
@[simp] theorem State.setFn_fuses (f : Nat) (x : Fn) : (s.setFn f x).fuses = s.fuses := rfl
@[simp] theorem State.setFn_ownerPort (f : Nat) (x : Fn) : (s.setFn f x).ownerPort = s.ownerPort := rfl
@[simp] theorem State.setFn_bifurc (f : Nat) (x : Fn) : (s.setFn f x).bifurc = s.bifurc := rfl
@[simp] theorem State.setFn_regs (f : Nat) (x : Fn) : (s.setFn f x).regs = s.regs := rfl
@[simp] theorem State.setFn_staged (f : Nat) (x : Fn) : (s.setFn f x).staged = s.staged := rfl
@[simp] theorem State.setFn_newel (f : Nat) (x : Fn) : (s.setFn f x).newel = s.newel := rfl
@[simp] theorem State.setFn_power (f : Nat) (x : Fn) : (s.setFn f x).power = s.power := rfl
@[simp] theorem State.setFn_rst (f : Nat) (x : Fn) : (s.setFn f x).rst = s.rst := rfl
@[simp] theorem State.setFn_ports (f : Nat) (x : Fn) : (s.setFn f x).ports = s.ports := rfl
@[simp] theorem State.setFn_admin (f : Nat) (x : Fn) : (s.setFn f x).admin = s.admin := rfl
@[simp] theorem State.setFn_fw (f : Nat) (x : Fn) : (s.setFn f x).fw = s.fw := rfl
@[simp] theorem State.setFn_store (f : Nat) (x : Fn) : (s.setFn f x).store = s.store := rfl
@[simp] theorem State.setFn_spdm (f : Nat) (x : Fn) : (s.setFn f x).spdm = s.spdm := rfl
@[simp] theorem State.setFn_gal (f : Nat) (x : Fn) : (s.setFn f x).gal = s.gal := rfl
@[simp] theorem State.setFn_hostMem (f : Nat) (x : Fn) : (s.setFn f x).hostMem = s.hostMem := rfl
@[simp] theorem State.setFn_hbm (f : Nat) (x : Fn) : (s.setFn f x).hbm = s.hbm := rfl
@[simp] theorem State.setFn_lands (f : Nat) (x : Fn) : (s.setFn f x).lands = s.lands := rfl
@[simp] theorem State.setFn_flt (f : Nat) (x : Fn) : (s.setFn f x).flt = s.flt := rfl
@[simp] theorem State.setFn_alc (f : Nat) (x : Fn) : (s.setFn f x).alc = s.alc := rfl
@[simp] theorem State.setFn_arcades (f : Nat) (x : Fn) : (s.setFn f x).arcades = s.arcades := rfl
@[simp] theorem State.setFn_cnt (f : Nat) (x : Fn) : (s.setFn f x).cnt = s.cnt := rfl
@[simp] theorem State.setFn_parts (f : Nat) (x : Fn) : (s.setFn f x).parts = s.parts := rfl
@[simp] theorem State.setFn_tenants (f : Nat) (x : Fn) : (s.setFn f x).tenants = s.tenants := rfl
@[simp] theorem State.setFn_binds (f : Nat) (x : Fn) : (s.setFn f x).binds = s.binds := rfl
@[simp] theorem State.setFn_sessions (f : Nat) (x : Fn) : (s.setFn f x).sessions = s.sessions := rfl
@[simp] theorem State.setFn_syncs (f : Nat) (x : Fn) : (s.setFn f x).syncs = s.syncs := rfl
@[simp] theorem State.setFn_reqs (f : Nat) (x : Fn) : (s.setFn f x).reqs = s.reqs := rfl
@[simp] theorem State.setFn_nextOrder (f : Nat) (x : Fn) : (s.setFn f x).nextOrder = s.nextOrder := rfl
@[simp] theorem State.setFn_objs (f : Nat) (x : Fn) : (s.setFn f x).objs = s.objs := rfl
@[simp] theorem State.setFn_units (f : Nat) (x : Fn) : (s.setFn f x).units = s.units := rfl
@[simp] theorem State.setFn_fresh (f : Nat) (x : Fn) : (s.setFn f x).fresh = s.fresh := rfl
@[simp] theorem State.setFn_out (f : Nat) (x : Fn) : (s.setFn f x).out = s.out := rfl
@[simp] theorem State.setFn_pending (f : Nat) (x : Fn) : (s.setFn f x).pending = s.pending := rfl

/-! `State.updFn` changes `fns` alone. -/
@[simp] theorem State.updFn_member (f : Nat) (g : Fn → Fn) : (s.updFn f g).member = s.member := rfl
@[simp] theorem State.updFn_fuses (f : Nat) (g : Fn → Fn) : (s.updFn f g).fuses = s.fuses := rfl
@[simp] theorem State.updFn_ownerPort (f : Nat) (g : Fn → Fn) : (s.updFn f g).ownerPort = s.ownerPort := rfl
@[simp] theorem State.updFn_bifurc (f : Nat) (g : Fn → Fn) : (s.updFn f g).bifurc = s.bifurc := rfl
@[simp] theorem State.updFn_regs (f : Nat) (g : Fn → Fn) : (s.updFn f g).regs = s.regs := rfl
@[simp] theorem State.updFn_staged (f : Nat) (g : Fn → Fn) : (s.updFn f g).staged = s.staged := rfl
@[simp] theorem State.updFn_newel (f : Nat) (g : Fn → Fn) : (s.updFn f g).newel = s.newel := rfl
@[simp] theorem State.updFn_power (f : Nat) (g : Fn → Fn) : (s.updFn f g).power = s.power := rfl
@[simp] theorem State.updFn_rst (f : Nat) (g : Fn → Fn) : (s.updFn f g).rst = s.rst := rfl
@[simp] theorem State.updFn_ports (f : Nat) (g : Fn → Fn) : (s.updFn f g).ports = s.ports := rfl
@[simp] theorem State.updFn_admin (f : Nat) (g : Fn → Fn) : (s.updFn f g).admin = s.admin := rfl
@[simp] theorem State.updFn_fw (f : Nat) (g : Fn → Fn) : (s.updFn f g).fw = s.fw := rfl
@[simp] theorem State.updFn_store (f : Nat) (g : Fn → Fn) : (s.updFn f g).store = s.store := rfl
@[simp] theorem State.updFn_spdm (f : Nat) (g : Fn → Fn) : (s.updFn f g).spdm = s.spdm := rfl
@[simp] theorem State.updFn_gal (f : Nat) (g : Fn → Fn) : (s.updFn f g).gal = s.gal := rfl
@[simp] theorem State.updFn_hostMem (f : Nat) (g : Fn → Fn) : (s.updFn f g).hostMem = s.hostMem := rfl
@[simp] theorem State.updFn_hbm (f : Nat) (g : Fn → Fn) : (s.updFn f g).hbm = s.hbm := rfl
@[simp] theorem State.updFn_lands (f : Nat) (g : Fn → Fn) : (s.updFn f g).lands = s.lands := rfl
@[simp] theorem State.updFn_flt (f : Nat) (g : Fn → Fn) : (s.updFn f g).flt = s.flt := rfl
@[simp] theorem State.updFn_alc (f : Nat) (g : Fn → Fn) : (s.updFn f g).alc = s.alc := rfl
@[simp] theorem State.updFn_arcades (f : Nat) (g : Fn → Fn) : (s.updFn f g).arcades = s.arcades := rfl
@[simp] theorem State.updFn_cnt (f : Nat) (g : Fn → Fn) : (s.updFn f g).cnt = s.cnt := rfl
@[simp] theorem State.updFn_parts (f : Nat) (g : Fn → Fn) : (s.updFn f g).parts = s.parts := rfl
@[simp] theorem State.updFn_tenants (f : Nat) (g : Fn → Fn) : (s.updFn f g).tenants = s.tenants := rfl
@[simp] theorem State.updFn_binds (f : Nat) (g : Fn → Fn) : (s.updFn f g).binds = s.binds := rfl
@[simp] theorem State.updFn_sessions (f : Nat) (g : Fn → Fn) : (s.updFn f g).sessions = s.sessions := rfl
@[simp] theorem State.updFn_syncs (f : Nat) (g : Fn → Fn) : (s.updFn f g).syncs = s.syncs := rfl
@[simp] theorem State.updFn_reqs (f : Nat) (g : Fn → Fn) : (s.updFn f g).reqs = s.reqs := rfl
@[simp] theorem State.updFn_nextOrder (f : Nat) (g : Fn → Fn) : (s.updFn f g).nextOrder = s.nextOrder := rfl
@[simp] theorem State.updFn_objs (f : Nat) (g : Fn → Fn) : (s.updFn f g).objs = s.objs := rfl
@[simp] theorem State.updFn_units (f : Nat) (g : Fn → Fn) : (s.updFn f g).units = s.units := rfl
@[simp] theorem State.updFn_fresh (f : Nat) (g : Fn → Fn) : (s.updFn f g).fresh = s.fresh := rfl
@[simp] theorem State.updFn_out (f : Nat) (g : Fn → Fn) : (s.updFn f g).out = s.out := rfl
@[simp] theorem State.updFn_pending (f : Nat) (g : Fn → Fn) : (s.updFn f g).pending = s.pending := rfl

/-! `State.updPort` changes `ports` alone. -/
@[simp] theorem State.updPort_member (p : Nat) (g : Port → Port) : (s.updPort p g).member = s.member := rfl
@[simp] theorem State.updPort_fuses (p : Nat) (g : Port → Port) : (s.updPort p g).fuses = s.fuses := rfl
@[simp] theorem State.updPort_ownerPort (p : Nat) (g : Port → Port) : (s.updPort p g).ownerPort = s.ownerPort := rfl
@[simp] theorem State.updPort_bifurc (p : Nat) (g : Port → Port) : (s.updPort p g).bifurc = s.bifurc := rfl
@[simp] theorem State.updPort_regs (p : Nat) (g : Port → Port) : (s.updPort p g).regs = s.regs := rfl
@[simp] theorem State.updPort_staged (p : Nat) (g : Port → Port) : (s.updPort p g).staged = s.staged := rfl
@[simp] theorem State.updPort_newel (p : Nat) (g : Port → Port) : (s.updPort p g).newel = s.newel := rfl
@[simp] theorem State.updPort_power (p : Nat) (g : Port → Port) : (s.updPort p g).power = s.power := rfl
@[simp] theorem State.updPort_rst (p : Nat) (g : Port → Port) : (s.updPort p g).rst = s.rst := rfl
@[simp] theorem State.updPort_fns (p : Nat) (g : Port → Port) : (s.updPort p g).fns = s.fns := rfl
@[simp] theorem State.updPort_admin (p : Nat) (g : Port → Port) : (s.updPort p g).admin = s.admin := rfl
@[simp] theorem State.updPort_fw (p : Nat) (g : Port → Port) : (s.updPort p g).fw = s.fw := rfl
@[simp] theorem State.updPort_store (p : Nat) (g : Port → Port) : (s.updPort p g).store = s.store := rfl
@[simp] theorem State.updPort_spdm (p : Nat) (g : Port → Port) : (s.updPort p g).spdm = s.spdm := rfl
@[simp] theorem State.updPort_gal (p : Nat) (g : Port → Port) : (s.updPort p g).gal = s.gal := rfl
@[simp] theorem State.updPort_hostMem (p : Nat) (g : Port → Port) : (s.updPort p g).hostMem = s.hostMem := rfl
@[simp] theorem State.updPort_hbm (p : Nat) (g : Port → Port) : (s.updPort p g).hbm = s.hbm := rfl
@[simp] theorem State.updPort_lands (p : Nat) (g : Port → Port) : (s.updPort p g).lands = s.lands := rfl
@[simp] theorem State.updPort_flt (p : Nat) (g : Port → Port) : (s.updPort p g).flt = s.flt := rfl
@[simp] theorem State.updPort_alc (p : Nat) (g : Port → Port) : (s.updPort p g).alc = s.alc := rfl
@[simp] theorem State.updPort_arcades (p : Nat) (g : Port → Port) : (s.updPort p g).arcades = s.arcades := rfl
@[simp] theorem State.updPort_cnt (p : Nat) (g : Port → Port) : (s.updPort p g).cnt = s.cnt := rfl
@[simp] theorem State.updPort_parts (p : Nat) (g : Port → Port) : (s.updPort p g).parts = s.parts := rfl
@[simp] theorem State.updPort_tenants (p : Nat) (g : Port → Port) : (s.updPort p g).tenants = s.tenants := rfl
@[simp] theorem State.updPort_binds (p : Nat) (g : Port → Port) : (s.updPort p g).binds = s.binds := rfl
@[simp] theorem State.updPort_sessions (p : Nat) (g : Port → Port) : (s.updPort p g).sessions = s.sessions := rfl
@[simp] theorem State.updPort_syncs (p : Nat) (g : Port → Port) : (s.updPort p g).syncs = s.syncs := rfl
@[simp] theorem State.updPort_reqs (p : Nat) (g : Port → Port) : (s.updPort p g).reqs = s.reqs := rfl
@[simp] theorem State.updPort_nextOrder (p : Nat) (g : Port → Port) : (s.updPort p g).nextOrder = s.nextOrder := rfl
@[simp] theorem State.updPort_objs (p : Nat) (g : Port → Port) : (s.updPort p g).objs = s.objs := rfl
@[simp] theorem State.updPort_units (p : Nat) (g : Port → Port) : (s.updPort p g).units = s.units := rfl
@[simp] theorem State.updPort_fresh (p : Nat) (g : Port → Port) : (s.updPort p g).fresh = s.fresh := rfl
@[simp] theorem State.updPort_out (p : Nat) (g : Port → Port) : (s.updPort p g).out = s.out := rfl
@[simp] theorem State.updPort_pending (p : Nat) (g : Port → Port) : (s.updPort p g).pending = s.pending := rfl

/-! `State.send` changes `out` alone. -/
@[simp] theorem State.send_member (m : OutMsg) : (s.send m).member = s.member := rfl
@[simp] theorem State.send_fuses (m : OutMsg) : (s.send m).fuses = s.fuses := rfl
@[simp] theorem State.send_ownerPort (m : OutMsg) : (s.send m).ownerPort = s.ownerPort := rfl
@[simp] theorem State.send_bifurc (m : OutMsg) : (s.send m).bifurc = s.bifurc := rfl
@[simp] theorem State.send_regs (m : OutMsg) : (s.send m).regs = s.regs := rfl
@[simp] theorem State.send_staged (m : OutMsg) : (s.send m).staged = s.staged := rfl
@[simp] theorem State.send_newel (m : OutMsg) : (s.send m).newel = s.newel := rfl
@[simp] theorem State.send_power (m : OutMsg) : (s.send m).power = s.power := rfl
@[simp] theorem State.send_rst (m : OutMsg) : (s.send m).rst = s.rst := rfl
@[simp] theorem State.send_ports (m : OutMsg) : (s.send m).ports = s.ports := rfl
@[simp] theorem State.send_fns (m : OutMsg) : (s.send m).fns = s.fns := rfl
@[simp] theorem State.send_admin (m : OutMsg) : (s.send m).admin = s.admin := rfl
@[simp] theorem State.send_fw (m : OutMsg) : (s.send m).fw = s.fw := rfl
@[simp] theorem State.send_store (m : OutMsg) : (s.send m).store = s.store := rfl
@[simp] theorem State.send_spdm (m : OutMsg) : (s.send m).spdm = s.spdm := rfl
@[simp] theorem State.send_gal (m : OutMsg) : (s.send m).gal = s.gal := rfl
@[simp] theorem State.send_hostMem (m : OutMsg) : (s.send m).hostMem = s.hostMem := rfl
@[simp] theorem State.send_hbm (m : OutMsg) : (s.send m).hbm = s.hbm := rfl
@[simp] theorem State.send_lands (m : OutMsg) : (s.send m).lands = s.lands := rfl
@[simp] theorem State.send_flt (m : OutMsg) : (s.send m).flt = s.flt := rfl
@[simp] theorem State.send_alc (m : OutMsg) : (s.send m).alc = s.alc := rfl
@[simp] theorem State.send_arcades (m : OutMsg) : (s.send m).arcades = s.arcades := rfl
@[simp] theorem State.send_cnt (m : OutMsg) : (s.send m).cnt = s.cnt := rfl
@[simp] theorem State.send_parts (m : OutMsg) : (s.send m).parts = s.parts := rfl
@[simp] theorem State.send_tenants (m : OutMsg) : (s.send m).tenants = s.tenants := rfl
@[simp] theorem State.send_binds (m : OutMsg) : (s.send m).binds = s.binds := rfl
@[simp] theorem State.send_sessions (m : OutMsg) : (s.send m).sessions = s.sessions := rfl
@[simp] theorem State.send_syncs (m : OutMsg) : (s.send m).syncs = s.syncs := rfl
@[simp] theorem State.send_reqs (m : OutMsg) : (s.send m).reqs = s.reqs := rfl
@[simp] theorem State.send_nextOrder (m : OutMsg) : (s.send m).nextOrder = s.nextOrder := rfl
@[simp] theorem State.send_objs (m : OutMsg) : (s.send m).objs = s.objs := rfl
@[simp] theorem State.send_units (m : OutMsg) : (s.send m).units = s.units := rfl
@[simp] theorem State.send_fresh (m : OutMsg) : (s.send m).fresh = s.fresh := rfl
@[simp] theorem State.send_pending (m : OutMsg) : (s.send m).pending = s.pending := rfl

/-! `State.setRing` changes `fns` alone. -/
@[simp] theorem State.setRing_member (f n : Nat) (r : Ring) : (s.setRing f n r).member = s.member := rfl
@[simp] theorem State.setRing_fuses (f n : Nat) (r : Ring) : (s.setRing f n r).fuses = s.fuses := rfl
@[simp] theorem State.setRing_ownerPort (f n : Nat) (r : Ring) : (s.setRing f n r).ownerPort = s.ownerPort := rfl
@[simp] theorem State.setRing_bifurc (f n : Nat) (r : Ring) : (s.setRing f n r).bifurc = s.bifurc := rfl
@[simp] theorem State.setRing_regs (f n : Nat) (r : Ring) : (s.setRing f n r).regs = s.regs := rfl
@[simp] theorem State.setRing_staged (f n : Nat) (r : Ring) : (s.setRing f n r).staged = s.staged := rfl
@[simp] theorem State.setRing_newel (f n : Nat) (r : Ring) : (s.setRing f n r).newel = s.newel := rfl
@[simp] theorem State.setRing_power (f n : Nat) (r : Ring) : (s.setRing f n r).power = s.power := rfl
@[simp] theorem State.setRing_rst (f n : Nat) (r : Ring) : (s.setRing f n r).rst = s.rst := rfl
@[simp] theorem State.setRing_ports (f n : Nat) (r : Ring) : (s.setRing f n r).ports = s.ports := rfl
@[simp] theorem State.setRing_admin (f n : Nat) (r : Ring) : (s.setRing f n r).admin = s.admin := rfl
@[simp] theorem State.setRing_fw (f n : Nat) (r : Ring) : (s.setRing f n r).fw = s.fw := rfl
@[simp] theorem State.setRing_store (f n : Nat) (r : Ring) : (s.setRing f n r).store = s.store := rfl
@[simp] theorem State.setRing_spdm (f n : Nat) (r : Ring) : (s.setRing f n r).spdm = s.spdm := rfl
@[simp] theorem State.setRing_gal (f n : Nat) (r : Ring) : (s.setRing f n r).gal = s.gal := rfl
@[simp] theorem State.setRing_hostMem (f n : Nat) (r : Ring) : (s.setRing f n r).hostMem = s.hostMem := rfl
@[simp] theorem State.setRing_hbm (f n : Nat) (r : Ring) : (s.setRing f n r).hbm = s.hbm := rfl
@[simp] theorem State.setRing_lands (f n : Nat) (r : Ring) : (s.setRing f n r).lands = s.lands := rfl
@[simp] theorem State.setRing_flt (f n : Nat) (r : Ring) : (s.setRing f n r).flt = s.flt := rfl
@[simp] theorem State.setRing_alc (f n : Nat) (r : Ring) : (s.setRing f n r).alc = s.alc := rfl
@[simp] theorem State.setRing_arcades (f n : Nat) (r : Ring) : (s.setRing f n r).arcades = s.arcades := rfl
@[simp] theorem State.setRing_cnt (f n : Nat) (r : Ring) : (s.setRing f n r).cnt = s.cnt := rfl
@[simp] theorem State.setRing_parts (f n : Nat) (r : Ring) : (s.setRing f n r).parts = s.parts := rfl
@[simp] theorem State.setRing_tenants (f n : Nat) (r : Ring) : (s.setRing f n r).tenants = s.tenants := rfl
@[simp] theorem State.setRing_binds (f n : Nat) (r : Ring) : (s.setRing f n r).binds = s.binds := rfl
@[simp] theorem State.setRing_sessions (f n : Nat) (r : Ring) : (s.setRing f n r).sessions = s.sessions := rfl
@[simp] theorem State.setRing_syncs (f n : Nat) (r : Ring) : (s.setRing f n r).syncs = s.syncs := rfl
@[simp] theorem State.setRing_reqs (f n : Nat) (r : Ring) : (s.setRing f n r).reqs = s.reqs := rfl
@[simp] theorem State.setRing_nextOrder (f n : Nat) (r : Ring) : (s.setRing f n r).nextOrder = s.nextOrder := rfl
@[simp] theorem State.setRing_objs (f n : Nat) (r : Ring) : (s.setRing f n r).objs = s.objs := rfl
@[simp] theorem State.setRing_units (f n : Nat) (r : Ring) : (s.setRing f n r).units = s.units := rfl
@[simp] theorem State.setRing_fresh (f n : Nat) (r : Ring) : (s.setRing f n r).fresh = s.fresh := rfl
@[simp] theorem State.setRing_out (f n : Nat) (r : Ring) : (s.setRing f n r).out = s.out := rfl
@[simp] theorem State.setRing_pending (f n : Nat) (r : Ring) : (s.setRing f n r).pending = s.pending := rfl

/-! `State.setVec` changes `fns` alone. -/
@[simp] theorem State.setVec_member (f v : Nat) (x : Vec) : (s.setVec f v x).member = s.member := rfl
@[simp] theorem State.setVec_fuses (f v : Nat) (x : Vec) : (s.setVec f v x).fuses = s.fuses := rfl
@[simp] theorem State.setVec_ownerPort (f v : Nat) (x : Vec) : (s.setVec f v x).ownerPort = s.ownerPort := rfl
@[simp] theorem State.setVec_bifurc (f v : Nat) (x : Vec) : (s.setVec f v x).bifurc = s.bifurc := rfl
@[simp] theorem State.setVec_regs (f v : Nat) (x : Vec) : (s.setVec f v x).regs = s.regs := rfl
@[simp] theorem State.setVec_staged (f v : Nat) (x : Vec) : (s.setVec f v x).staged = s.staged := rfl
@[simp] theorem State.setVec_newel (f v : Nat) (x : Vec) : (s.setVec f v x).newel = s.newel := rfl
@[simp] theorem State.setVec_power (f v : Nat) (x : Vec) : (s.setVec f v x).power = s.power := rfl
@[simp] theorem State.setVec_rst (f v : Nat) (x : Vec) : (s.setVec f v x).rst = s.rst := rfl
@[simp] theorem State.setVec_ports (f v : Nat) (x : Vec) : (s.setVec f v x).ports = s.ports := rfl
@[simp] theorem State.setVec_admin (f v : Nat) (x : Vec) : (s.setVec f v x).admin = s.admin := rfl
@[simp] theorem State.setVec_fw (f v : Nat) (x : Vec) : (s.setVec f v x).fw = s.fw := rfl
@[simp] theorem State.setVec_store (f v : Nat) (x : Vec) : (s.setVec f v x).store = s.store := rfl
@[simp] theorem State.setVec_spdm (f v : Nat) (x : Vec) : (s.setVec f v x).spdm = s.spdm := rfl
@[simp] theorem State.setVec_gal (f v : Nat) (x : Vec) : (s.setVec f v x).gal = s.gal := rfl
@[simp] theorem State.setVec_hostMem (f v : Nat) (x : Vec) : (s.setVec f v x).hostMem = s.hostMem := rfl
@[simp] theorem State.setVec_hbm (f v : Nat) (x : Vec) : (s.setVec f v x).hbm = s.hbm := rfl
@[simp] theorem State.setVec_lands (f v : Nat) (x : Vec) : (s.setVec f v x).lands = s.lands := rfl
@[simp] theorem State.setVec_flt (f v : Nat) (x : Vec) : (s.setVec f v x).flt = s.flt := rfl
@[simp] theorem State.setVec_alc (f v : Nat) (x : Vec) : (s.setVec f v x).alc = s.alc := rfl
@[simp] theorem State.setVec_arcades (f v : Nat) (x : Vec) : (s.setVec f v x).arcades = s.arcades := rfl
@[simp] theorem State.setVec_cnt (f v : Nat) (x : Vec) : (s.setVec f v x).cnt = s.cnt := rfl
@[simp] theorem State.setVec_parts (f v : Nat) (x : Vec) : (s.setVec f v x).parts = s.parts := rfl
@[simp] theorem State.setVec_tenants (f v : Nat) (x : Vec) : (s.setVec f v x).tenants = s.tenants := rfl
@[simp] theorem State.setVec_binds (f v : Nat) (x : Vec) : (s.setVec f v x).binds = s.binds := rfl
@[simp] theorem State.setVec_sessions (f v : Nat) (x : Vec) : (s.setVec f v x).sessions = s.sessions := rfl
@[simp] theorem State.setVec_syncs (f v : Nat) (x : Vec) : (s.setVec f v x).syncs = s.syncs := rfl
@[simp] theorem State.setVec_reqs (f v : Nat) (x : Vec) : (s.setVec f v x).reqs = s.reqs := rfl
@[simp] theorem State.setVec_nextOrder (f v : Nat) (x : Vec) : (s.setVec f v x).nextOrder = s.nextOrder := rfl
@[simp] theorem State.setVec_objs (f v : Nat) (x : Vec) : (s.setVec f v x).objs = s.objs := rfl
@[simp] theorem State.setVec_units (f v : Nat) (x : Vec) : (s.setVec f v x).units = s.units := rfl
@[simp] theorem State.setVec_fresh (f v : Nat) (x : Vec) : (s.setVec f v x).fresh = s.fresh := rfl
@[simp] theorem State.setVec_out (f v : Nat) (x : Vec) : (s.setVec f v x).out = s.out := rfl
@[simp] theorem State.setVec_pending (f v : Nat) (x : Vec) : (s.setVec f v x).pending = s.pending := rfl

/-! `State.setLand` changes `lands` alone. -/
@[simp] theorem State.setLand_member (l : Nat) (x : Landing) : (s.setLand l x).member = s.member := rfl
@[simp] theorem State.setLand_fuses (l : Nat) (x : Landing) : (s.setLand l x).fuses = s.fuses := rfl
@[simp] theorem State.setLand_ownerPort (l : Nat) (x : Landing) : (s.setLand l x).ownerPort = s.ownerPort := rfl
@[simp] theorem State.setLand_bifurc (l : Nat) (x : Landing) : (s.setLand l x).bifurc = s.bifurc := rfl
@[simp] theorem State.setLand_regs (l : Nat) (x : Landing) : (s.setLand l x).regs = s.regs := rfl
@[simp] theorem State.setLand_staged (l : Nat) (x : Landing) : (s.setLand l x).staged = s.staged := rfl
@[simp] theorem State.setLand_newel (l : Nat) (x : Landing) : (s.setLand l x).newel = s.newel := rfl
@[simp] theorem State.setLand_power (l : Nat) (x : Landing) : (s.setLand l x).power = s.power := rfl
@[simp] theorem State.setLand_rst (l : Nat) (x : Landing) : (s.setLand l x).rst = s.rst := rfl
@[simp] theorem State.setLand_ports (l : Nat) (x : Landing) : (s.setLand l x).ports = s.ports := rfl
@[simp] theorem State.setLand_fns (l : Nat) (x : Landing) : (s.setLand l x).fns = s.fns := rfl
@[simp] theorem State.setLand_admin (l : Nat) (x : Landing) : (s.setLand l x).admin = s.admin := rfl
@[simp] theorem State.setLand_fw (l : Nat) (x : Landing) : (s.setLand l x).fw = s.fw := rfl
@[simp] theorem State.setLand_store (l : Nat) (x : Landing) : (s.setLand l x).store = s.store := rfl
@[simp] theorem State.setLand_spdm (l : Nat) (x : Landing) : (s.setLand l x).spdm = s.spdm := rfl
@[simp] theorem State.setLand_gal (l : Nat) (x : Landing) : (s.setLand l x).gal = s.gal := rfl
@[simp] theorem State.setLand_hostMem (l : Nat) (x : Landing) : (s.setLand l x).hostMem = s.hostMem := rfl
@[simp] theorem State.setLand_hbm (l : Nat) (x : Landing) : (s.setLand l x).hbm = s.hbm := rfl
@[simp] theorem State.setLand_flt (l : Nat) (x : Landing) : (s.setLand l x).flt = s.flt := rfl
@[simp] theorem State.setLand_alc (l : Nat) (x : Landing) : (s.setLand l x).alc = s.alc := rfl
@[simp] theorem State.setLand_arcades (l : Nat) (x : Landing) : (s.setLand l x).arcades = s.arcades := rfl
@[simp] theorem State.setLand_cnt (l : Nat) (x : Landing) : (s.setLand l x).cnt = s.cnt := rfl
@[simp] theorem State.setLand_parts (l : Nat) (x : Landing) : (s.setLand l x).parts = s.parts := rfl
@[simp] theorem State.setLand_tenants (l : Nat) (x : Landing) : (s.setLand l x).tenants = s.tenants := rfl
@[simp] theorem State.setLand_binds (l : Nat) (x : Landing) : (s.setLand l x).binds = s.binds := rfl
@[simp] theorem State.setLand_sessions (l : Nat) (x : Landing) : (s.setLand l x).sessions = s.sessions := rfl
@[simp] theorem State.setLand_syncs (l : Nat) (x : Landing) : (s.setLand l x).syncs = s.syncs := rfl
@[simp] theorem State.setLand_reqs (l : Nat) (x : Landing) : (s.setLand l x).reqs = s.reqs := rfl
@[simp] theorem State.setLand_nextOrder (l : Nat) (x : Landing) : (s.setLand l x).nextOrder = s.nextOrder := rfl
@[simp] theorem State.setLand_objs (l : Nat) (x : Landing) : (s.setLand l x).objs = s.objs := rfl
@[simp] theorem State.setLand_units (l : Nat) (x : Landing) : (s.setLand l x).units = s.units := rfl
@[simp] theorem State.setLand_fresh (l : Nat) (x : Landing) : (s.setLand l x).fresh = s.fresh := rfl
@[simp] theorem State.setLand_out (l : Nat) (x : Landing) : (s.setLand l x).out = s.out := rfl
@[simp] theorem State.setLand_pending (l : Nat) (x : Landing) : (s.setLand l x).pending = s.pending := rfl

/-! `State.updLand` changes `lands` alone. -/
@[simp] theorem State.updLand_member (l : Nat) (g : Landing → Landing) : (s.updLand l g).member = s.member := rfl
@[simp] theorem State.updLand_fuses (l : Nat) (g : Landing → Landing) : (s.updLand l g).fuses = s.fuses := rfl
@[simp] theorem State.updLand_ownerPort (l : Nat) (g : Landing → Landing) : (s.updLand l g).ownerPort = s.ownerPort := rfl
@[simp] theorem State.updLand_bifurc (l : Nat) (g : Landing → Landing) : (s.updLand l g).bifurc = s.bifurc := rfl
@[simp] theorem State.updLand_regs (l : Nat) (g : Landing → Landing) : (s.updLand l g).regs = s.regs := rfl
@[simp] theorem State.updLand_staged (l : Nat) (g : Landing → Landing) : (s.updLand l g).staged = s.staged := rfl
@[simp] theorem State.updLand_newel (l : Nat) (g : Landing → Landing) : (s.updLand l g).newel = s.newel := rfl
@[simp] theorem State.updLand_power (l : Nat) (g : Landing → Landing) : (s.updLand l g).power = s.power := rfl
@[simp] theorem State.updLand_rst (l : Nat) (g : Landing → Landing) : (s.updLand l g).rst = s.rst := rfl
@[simp] theorem State.updLand_ports (l : Nat) (g : Landing → Landing) : (s.updLand l g).ports = s.ports := rfl
@[simp] theorem State.updLand_fns (l : Nat) (g : Landing → Landing) : (s.updLand l g).fns = s.fns := rfl
@[simp] theorem State.updLand_admin (l : Nat) (g : Landing → Landing) : (s.updLand l g).admin = s.admin := rfl
@[simp] theorem State.updLand_fw (l : Nat) (g : Landing → Landing) : (s.updLand l g).fw = s.fw := rfl
@[simp] theorem State.updLand_store (l : Nat) (g : Landing → Landing) : (s.updLand l g).store = s.store := rfl
@[simp] theorem State.updLand_spdm (l : Nat) (g : Landing → Landing) : (s.updLand l g).spdm = s.spdm := rfl
@[simp] theorem State.updLand_gal (l : Nat) (g : Landing → Landing) : (s.updLand l g).gal = s.gal := rfl
@[simp] theorem State.updLand_hostMem (l : Nat) (g : Landing → Landing) : (s.updLand l g).hostMem = s.hostMem := rfl
@[simp] theorem State.updLand_hbm (l : Nat) (g : Landing → Landing) : (s.updLand l g).hbm = s.hbm := rfl
@[simp] theorem State.updLand_flt (l : Nat) (g : Landing → Landing) : (s.updLand l g).flt = s.flt := rfl
@[simp] theorem State.updLand_alc (l : Nat) (g : Landing → Landing) : (s.updLand l g).alc = s.alc := rfl
@[simp] theorem State.updLand_arcades (l : Nat) (g : Landing → Landing) : (s.updLand l g).arcades = s.arcades := rfl
@[simp] theorem State.updLand_cnt (l : Nat) (g : Landing → Landing) : (s.updLand l g).cnt = s.cnt := rfl
@[simp] theorem State.updLand_parts (l : Nat) (g : Landing → Landing) : (s.updLand l g).parts = s.parts := rfl
@[simp] theorem State.updLand_tenants (l : Nat) (g : Landing → Landing) : (s.updLand l g).tenants = s.tenants := rfl
@[simp] theorem State.updLand_binds (l : Nat) (g : Landing → Landing) : (s.updLand l g).binds = s.binds := rfl
@[simp] theorem State.updLand_sessions (l : Nat) (g : Landing → Landing) : (s.updLand l g).sessions = s.sessions := rfl
@[simp] theorem State.updLand_syncs (l : Nat) (g : Landing → Landing) : (s.updLand l g).syncs = s.syncs := rfl
@[simp] theorem State.updLand_reqs (l : Nat) (g : Landing → Landing) : (s.updLand l g).reqs = s.reqs := rfl
@[simp] theorem State.updLand_nextOrder (l : Nat) (g : Landing → Landing) : (s.updLand l g).nextOrder = s.nextOrder := rfl
@[simp] theorem State.updLand_objs (l : Nat) (g : Landing → Landing) : (s.updLand l g).objs = s.objs := rfl
@[simp] theorem State.updLand_units (l : Nat) (g : Landing → Landing) : (s.updLand l g).units = s.units := rfl
@[simp] theorem State.updLand_fresh (l : Nat) (g : Landing → Landing) : (s.updLand l g).fresh = s.fresh := rfl
@[simp] theorem State.updLand_out (l : Nat) (g : Landing → Landing) : (s.updLand l g).out = s.out := rfl
@[simp] theorem State.updLand_pending (l : Nat) (g : Landing → Landing) : (s.updLand l g).pending = s.pending := rfl

/-! `State.setPhys` changes `flt` alone. -/
@[simp] theorem State.setPhys_member (k : Nat) (x : Phys) : (s.setPhys k x).member = s.member := rfl
@[simp] theorem State.setPhys_fuses (k : Nat) (x : Phys) : (s.setPhys k x).fuses = s.fuses := rfl
@[simp] theorem State.setPhys_ownerPort (k : Nat) (x : Phys) : (s.setPhys k x).ownerPort = s.ownerPort := rfl
@[simp] theorem State.setPhys_bifurc (k : Nat) (x : Phys) : (s.setPhys k x).bifurc = s.bifurc := rfl
@[simp] theorem State.setPhys_regs (k : Nat) (x : Phys) : (s.setPhys k x).regs = s.regs := rfl
@[simp] theorem State.setPhys_staged (k : Nat) (x : Phys) : (s.setPhys k x).staged = s.staged := rfl
@[simp] theorem State.setPhys_newel (k : Nat) (x : Phys) : (s.setPhys k x).newel = s.newel := rfl
@[simp] theorem State.setPhys_power (k : Nat) (x : Phys) : (s.setPhys k x).power = s.power := rfl
@[simp] theorem State.setPhys_rst (k : Nat) (x : Phys) : (s.setPhys k x).rst = s.rst := rfl
@[simp] theorem State.setPhys_ports (k : Nat) (x : Phys) : (s.setPhys k x).ports = s.ports := rfl
@[simp] theorem State.setPhys_fns (k : Nat) (x : Phys) : (s.setPhys k x).fns = s.fns := rfl
@[simp] theorem State.setPhys_admin (k : Nat) (x : Phys) : (s.setPhys k x).admin = s.admin := rfl
@[simp] theorem State.setPhys_fw (k : Nat) (x : Phys) : (s.setPhys k x).fw = s.fw := rfl
@[simp] theorem State.setPhys_store (k : Nat) (x : Phys) : (s.setPhys k x).store = s.store := rfl
@[simp] theorem State.setPhys_spdm (k : Nat) (x : Phys) : (s.setPhys k x).spdm = s.spdm := rfl
@[simp] theorem State.setPhys_gal (k : Nat) (x : Phys) : (s.setPhys k x).gal = s.gal := rfl
@[simp] theorem State.setPhys_hostMem (k : Nat) (x : Phys) : (s.setPhys k x).hostMem = s.hostMem := rfl
@[simp] theorem State.setPhys_hbm (k : Nat) (x : Phys) : (s.setPhys k x).hbm = s.hbm := rfl
@[simp] theorem State.setPhys_lands (k : Nat) (x : Phys) : (s.setPhys k x).lands = s.lands := rfl
@[simp] theorem State.setPhys_alc (k : Nat) (x : Phys) : (s.setPhys k x).alc = s.alc := rfl
@[simp] theorem State.setPhys_arcades (k : Nat) (x : Phys) : (s.setPhys k x).arcades = s.arcades := rfl
@[simp] theorem State.setPhys_cnt (k : Nat) (x : Phys) : (s.setPhys k x).cnt = s.cnt := rfl
@[simp] theorem State.setPhys_parts (k : Nat) (x : Phys) : (s.setPhys k x).parts = s.parts := rfl
@[simp] theorem State.setPhys_tenants (k : Nat) (x : Phys) : (s.setPhys k x).tenants = s.tenants := rfl
@[simp] theorem State.setPhys_binds (k : Nat) (x : Phys) : (s.setPhys k x).binds = s.binds := rfl
@[simp] theorem State.setPhys_sessions (k : Nat) (x : Phys) : (s.setPhys k x).sessions = s.sessions := rfl
@[simp] theorem State.setPhys_syncs (k : Nat) (x : Phys) : (s.setPhys k x).syncs = s.syncs := rfl
@[simp] theorem State.setPhys_reqs (k : Nat) (x : Phys) : (s.setPhys k x).reqs = s.reqs := rfl
@[simp] theorem State.setPhys_nextOrder (k : Nat) (x : Phys) : (s.setPhys k x).nextOrder = s.nextOrder := rfl
@[simp] theorem State.setPhys_objs (k : Nat) (x : Phys) : (s.setPhys k x).objs = s.objs := rfl
@[simp] theorem State.setPhys_units (k : Nat) (x : Phys) : (s.setPhys k x).units = s.units := rfl
@[simp] theorem State.setPhys_fresh (k : Nat) (x : Phys) : (s.setPhys k x).fresh = s.fresh := rfl
@[simp] theorem State.setPhys_out (k : Nat) (x : Phys) : (s.setPhys k x).out = s.out := rfl
@[simp] theorem State.setPhys_pending (k : Nat) (x : Phys) : (s.setPhys k x).pending = s.pending := rfl

/-! `State.updPhys` changes `flt` alone. -/
@[simp] theorem State.updPhys_member (k : Nat) (g : Phys → Phys) : (s.updPhys k g).member = s.member := rfl
@[simp] theorem State.updPhys_fuses (k : Nat) (g : Phys → Phys) : (s.updPhys k g).fuses = s.fuses := rfl
@[simp] theorem State.updPhys_ownerPort (k : Nat) (g : Phys → Phys) : (s.updPhys k g).ownerPort = s.ownerPort := rfl
@[simp] theorem State.updPhys_bifurc (k : Nat) (g : Phys → Phys) : (s.updPhys k g).bifurc = s.bifurc := rfl
@[simp] theorem State.updPhys_regs (k : Nat) (g : Phys → Phys) : (s.updPhys k g).regs = s.regs := rfl
@[simp] theorem State.updPhys_staged (k : Nat) (g : Phys → Phys) : (s.updPhys k g).staged = s.staged := rfl
@[simp] theorem State.updPhys_newel (k : Nat) (g : Phys → Phys) : (s.updPhys k g).newel = s.newel := rfl
@[simp] theorem State.updPhys_power (k : Nat) (g : Phys → Phys) : (s.updPhys k g).power = s.power := rfl
@[simp] theorem State.updPhys_rst (k : Nat) (g : Phys → Phys) : (s.updPhys k g).rst = s.rst := rfl
@[simp] theorem State.updPhys_ports (k : Nat) (g : Phys → Phys) : (s.updPhys k g).ports = s.ports := rfl
@[simp] theorem State.updPhys_fns (k : Nat) (g : Phys → Phys) : (s.updPhys k g).fns = s.fns := rfl
@[simp] theorem State.updPhys_admin (k : Nat) (g : Phys → Phys) : (s.updPhys k g).admin = s.admin := rfl
@[simp] theorem State.updPhys_fw (k : Nat) (g : Phys → Phys) : (s.updPhys k g).fw = s.fw := rfl
@[simp] theorem State.updPhys_store (k : Nat) (g : Phys → Phys) : (s.updPhys k g).store = s.store := rfl
@[simp] theorem State.updPhys_spdm (k : Nat) (g : Phys → Phys) : (s.updPhys k g).spdm = s.spdm := rfl
@[simp] theorem State.updPhys_gal (k : Nat) (g : Phys → Phys) : (s.updPhys k g).gal = s.gal := rfl
@[simp] theorem State.updPhys_hostMem (k : Nat) (g : Phys → Phys) : (s.updPhys k g).hostMem = s.hostMem := rfl
@[simp] theorem State.updPhys_hbm (k : Nat) (g : Phys → Phys) : (s.updPhys k g).hbm = s.hbm := rfl
@[simp] theorem State.updPhys_lands (k : Nat) (g : Phys → Phys) : (s.updPhys k g).lands = s.lands := rfl
@[simp] theorem State.updPhys_alc (k : Nat) (g : Phys → Phys) : (s.updPhys k g).alc = s.alc := rfl
@[simp] theorem State.updPhys_arcades (k : Nat) (g : Phys → Phys) : (s.updPhys k g).arcades = s.arcades := rfl
@[simp] theorem State.updPhys_cnt (k : Nat) (g : Phys → Phys) : (s.updPhys k g).cnt = s.cnt := rfl
@[simp] theorem State.updPhys_parts (k : Nat) (g : Phys → Phys) : (s.updPhys k g).parts = s.parts := rfl
@[simp] theorem State.updPhys_tenants (k : Nat) (g : Phys → Phys) : (s.updPhys k g).tenants = s.tenants := rfl
@[simp] theorem State.updPhys_binds (k : Nat) (g : Phys → Phys) : (s.updPhys k g).binds = s.binds := rfl
@[simp] theorem State.updPhys_sessions (k : Nat) (g : Phys → Phys) : (s.updPhys k g).sessions = s.sessions := rfl
@[simp] theorem State.updPhys_syncs (k : Nat) (g : Phys → Phys) : (s.updPhys k g).syncs = s.syncs := rfl
@[simp] theorem State.updPhys_reqs (k : Nat) (g : Phys → Phys) : (s.updPhys k g).reqs = s.reqs := rfl
@[simp] theorem State.updPhys_nextOrder (k : Nat) (g : Phys → Phys) : (s.updPhys k g).nextOrder = s.nextOrder := rfl
@[simp] theorem State.updPhys_objs (k : Nat) (g : Phys → Phys) : (s.updPhys k g).objs = s.objs := rfl
@[simp] theorem State.updPhys_units (k : Nat) (g : Phys → Phys) : (s.updPhys k g).units = s.units := rfl
@[simp] theorem State.updPhys_fresh (k : Nat) (g : Phys → Phys) : (s.updPhys k g).fresh = s.fresh := rfl
@[simp] theorem State.updPhys_out (k : Nat) (g : Phys → Phys) : (s.updPhys k g).out = s.out := rfl
@[simp] theorem State.updPhys_pending (k : Nat) (g : Phys → Phys) : (s.updPhys k g).pending = s.pending := rfl

/-! `State.updPart` changes `parts` alone. -/
@[simp] theorem State.updPart_member (p : Nat) (g : Part → Part) : (s.updPart p g).member = s.member := rfl
@[simp] theorem State.updPart_fuses (p : Nat) (g : Part → Part) : (s.updPart p g).fuses = s.fuses := rfl
@[simp] theorem State.updPart_ownerPort (p : Nat) (g : Part → Part) : (s.updPart p g).ownerPort = s.ownerPort := rfl
@[simp] theorem State.updPart_bifurc (p : Nat) (g : Part → Part) : (s.updPart p g).bifurc = s.bifurc := rfl
@[simp] theorem State.updPart_regs (p : Nat) (g : Part → Part) : (s.updPart p g).regs = s.regs := rfl
@[simp] theorem State.updPart_staged (p : Nat) (g : Part → Part) : (s.updPart p g).staged = s.staged := rfl
@[simp] theorem State.updPart_newel (p : Nat) (g : Part → Part) : (s.updPart p g).newel = s.newel := rfl
@[simp] theorem State.updPart_power (p : Nat) (g : Part → Part) : (s.updPart p g).power = s.power := rfl
@[simp] theorem State.updPart_rst (p : Nat) (g : Part → Part) : (s.updPart p g).rst = s.rst := rfl
@[simp] theorem State.updPart_ports (p : Nat) (g : Part → Part) : (s.updPart p g).ports = s.ports := rfl
@[simp] theorem State.updPart_fns (p : Nat) (g : Part → Part) : (s.updPart p g).fns = s.fns := rfl
@[simp] theorem State.updPart_admin (p : Nat) (g : Part → Part) : (s.updPart p g).admin = s.admin := rfl
@[simp] theorem State.updPart_fw (p : Nat) (g : Part → Part) : (s.updPart p g).fw = s.fw := rfl
@[simp] theorem State.updPart_store (p : Nat) (g : Part → Part) : (s.updPart p g).store = s.store := rfl
@[simp] theorem State.updPart_spdm (p : Nat) (g : Part → Part) : (s.updPart p g).spdm = s.spdm := rfl
@[simp] theorem State.updPart_gal (p : Nat) (g : Part → Part) : (s.updPart p g).gal = s.gal := rfl
@[simp] theorem State.updPart_hostMem (p : Nat) (g : Part → Part) : (s.updPart p g).hostMem = s.hostMem := rfl
@[simp] theorem State.updPart_hbm (p : Nat) (g : Part → Part) : (s.updPart p g).hbm = s.hbm := rfl
@[simp] theorem State.updPart_lands (p : Nat) (g : Part → Part) : (s.updPart p g).lands = s.lands := rfl
@[simp] theorem State.updPart_flt (p : Nat) (g : Part → Part) : (s.updPart p g).flt = s.flt := rfl
@[simp] theorem State.updPart_alc (p : Nat) (g : Part → Part) : (s.updPart p g).alc = s.alc := rfl
@[simp] theorem State.updPart_arcades (p : Nat) (g : Part → Part) : (s.updPart p g).arcades = s.arcades := rfl
@[simp] theorem State.updPart_cnt (p : Nat) (g : Part → Part) : (s.updPart p g).cnt = s.cnt := rfl
@[simp] theorem State.updPart_tenants (p : Nat) (g : Part → Part) : (s.updPart p g).tenants = s.tenants := rfl
@[simp] theorem State.updPart_binds (p : Nat) (g : Part → Part) : (s.updPart p g).binds = s.binds := rfl
@[simp] theorem State.updPart_sessions (p : Nat) (g : Part → Part) : (s.updPart p g).sessions = s.sessions := rfl
@[simp] theorem State.updPart_syncs (p : Nat) (g : Part → Part) : (s.updPart p g).syncs = s.syncs := rfl
@[simp] theorem State.updPart_reqs (p : Nat) (g : Part → Part) : (s.updPart p g).reqs = s.reqs := rfl
@[simp] theorem State.updPart_nextOrder (p : Nat) (g : Part → Part) : (s.updPart p g).nextOrder = s.nextOrder := rfl
@[simp] theorem State.updPart_objs (p : Nat) (g : Part → Part) : (s.updPart p g).objs = s.objs := rfl
@[simp] theorem State.updPart_units (p : Nat) (g : Part → Part) : (s.updPart p g).units = s.units := rfl
@[simp] theorem State.updPart_fresh (p : Nat) (g : Part → Part) : (s.updPart p g).fresh = s.fresh := rfl
@[simp] theorem State.updPart_out (p : Nat) (g : Part → Part) : (s.updPart p g).out = s.out := rfl
@[simp] theorem State.updPart_pending (p : Nat) (g : Part → Part) : (s.updPart p g).pending = s.pending := rfl

/-! `State.updProc` changes `fw` alone. -/
@[simp] theorem State.updProc_member (i : Nat) (g : Proc → Proc) : (s.updProc i g).member = s.member := rfl
@[simp] theorem State.updProc_fuses (i : Nat) (g : Proc → Proc) : (s.updProc i g).fuses = s.fuses := rfl
@[simp] theorem State.updProc_ownerPort (i : Nat) (g : Proc → Proc) : (s.updProc i g).ownerPort = s.ownerPort := rfl
@[simp] theorem State.updProc_bifurc (i : Nat) (g : Proc → Proc) : (s.updProc i g).bifurc = s.bifurc := rfl
@[simp] theorem State.updProc_regs (i : Nat) (g : Proc → Proc) : (s.updProc i g).regs = s.regs := rfl
@[simp] theorem State.updProc_staged (i : Nat) (g : Proc → Proc) : (s.updProc i g).staged = s.staged := rfl
@[simp] theorem State.updProc_newel (i : Nat) (g : Proc → Proc) : (s.updProc i g).newel = s.newel := rfl
@[simp] theorem State.updProc_power (i : Nat) (g : Proc → Proc) : (s.updProc i g).power = s.power := rfl
@[simp] theorem State.updProc_rst (i : Nat) (g : Proc → Proc) : (s.updProc i g).rst = s.rst := rfl
@[simp] theorem State.updProc_ports (i : Nat) (g : Proc → Proc) : (s.updProc i g).ports = s.ports := rfl
@[simp] theorem State.updProc_fns (i : Nat) (g : Proc → Proc) : (s.updProc i g).fns = s.fns := rfl
@[simp] theorem State.updProc_admin (i : Nat) (g : Proc → Proc) : (s.updProc i g).admin = s.admin := rfl
@[simp] theorem State.updProc_store (i : Nat) (g : Proc → Proc) : (s.updProc i g).store = s.store := rfl
@[simp] theorem State.updProc_spdm (i : Nat) (g : Proc → Proc) : (s.updProc i g).spdm = s.spdm := rfl
@[simp] theorem State.updProc_gal (i : Nat) (g : Proc → Proc) : (s.updProc i g).gal = s.gal := rfl
@[simp] theorem State.updProc_hostMem (i : Nat) (g : Proc → Proc) : (s.updProc i g).hostMem = s.hostMem := rfl
@[simp] theorem State.updProc_hbm (i : Nat) (g : Proc → Proc) : (s.updProc i g).hbm = s.hbm := rfl
@[simp] theorem State.updProc_lands (i : Nat) (g : Proc → Proc) : (s.updProc i g).lands = s.lands := rfl
@[simp] theorem State.updProc_flt (i : Nat) (g : Proc → Proc) : (s.updProc i g).flt = s.flt := rfl
@[simp] theorem State.updProc_alc (i : Nat) (g : Proc → Proc) : (s.updProc i g).alc = s.alc := rfl
@[simp] theorem State.updProc_arcades (i : Nat) (g : Proc → Proc) : (s.updProc i g).arcades = s.arcades := rfl
@[simp] theorem State.updProc_cnt (i : Nat) (g : Proc → Proc) : (s.updProc i g).cnt = s.cnt := rfl
@[simp] theorem State.updProc_parts (i : Nat) (g : Proc → Proc) : (s.updProc i g).parts = s.parts := rfl
@[simp] theorem State.updProc_tenants (i : Nat) (g : Proc → Proc) : (s.updProc i g).tenants = s.tenants := rfl
@[simp] theorem State.updProc_binds (i : Nat) (g : Proc → Proc) : (s.updProc i g).binds = s.binds := rfl
@[simp] theorem State.updProc_sessions (i : Nat) (g : Proc → Proc) : (s.updProc i g).sessions = s.sessions := rfl
@[simp] theorem State.updProc_syncs (i : Nat) (g : Proc → Proc) : (s.updProc i g).syncs = s.syncs := rfl
@[simp] theorem State.updProc_reqs (i : Nat) (g : Proc → Proc) : (s.updProc i g).reqs = s.reqs := rfl
@[simp] theorem State.updProc_nextOrder (i : Nat) (g : Proc → Proc) : (s.updProc i g).nextOrder = s.nextOrder := rfl
@[simp] theorem State.updProc_objs (i : Nat) (g : Proc → Proc) : (s.updProc i g).objs = s.objs := rfl
@[simp] theorem State.updProc_units (i : Nat) (g : Proc → Proc) : (s.updProc i g).units = s.units := rfl
@[simp] theorem State.updProc_fresh (i : Nat) (g : Proc → Proc) : (s.updProc i g).fresh = s.fresh := rfl
@[simp] theorem State.updProc_out (i : Nat) (g : Proc → Proc) : (s.updProc i g).out = s.out := rfl
@[simp] theorem State.updProc_pending (i : Nat) (g : Proc → Proc) : (s.updProc i g).pending = s.pending := rfl

/-! `State.setReq` changes `reqs` alone. -/
@[simp] theorem State.setReq_member (k : Nat) (r : Req) : (s.setReq k r).member = s.member := rfl
@[simp] theorem State.setReq_fuses (k : Nat) (r : Req) : (s.setReq k r).fuses = s.fuses := rfl
@[simp] theorem State.setReq_ownerPort (k : Nat) (r : Req) : (s.setReq k r).ownerPort = s.ownerPort := rfl
@[simp] theorem State.setReq_bifurc (k : Nat) (r : Req) : (s.setReq k r).bifurc = s.bifurc := rfl
@[simp] theorem State.setReq_regs (k : Nat) (r : Req) : (s.setReq k r).regs = s.regs := rfl
@[simp] theorem State.setReq_staged (k : Nat) (r : Req) : (s.setReq k r).staged = s.staged := rfl
@[simp] theorem State.setReq_newel (k : Nat) (r : Req) : (s.setReq k r).newel = s.newel := rfl
@[simp] theorem State.setReq_power (k : Nat) (r : Req) : (s.setReq k r).power = s.power := rfl
@[simp] theorem State.setReq_rst (k : Nat) (r : Req) : (s.setReq k r).rst = s.rst := rfl
@[simp] theorem State.setReq_ports (k : Nat) (r : Req) : (s.setReq k r).ports = s.ports := rfl
@[simp] theorem State.setReq_fns (k : Nat) (r : Req) : (s.setReq k r).fns = s.fns := rfl
@[simp] theorem State.setReq_admin (k : Nat) (r : Req) : (s.setReq k r).admin = s.admin := rfl
@[simp] theorem State.setReq_fw (k : Nat) (r : Req) : (s.setReq k r).fw = s.fw := rfl
@[simp] theorem State.setReq_store (k : Nat) (r : Req) : (s.setReq k r).store = s.store := rfl
@[simp] theorem State.setReq_spdm (k : Nat) (r : Req) : (s.setReq k r).spdm = s.spdm := rfl
@[simp] theorem State.setReq_gal (k : Nat) (r : Req) : (s.setReq k r).gal = s.gal := rfl
@[simp] theorem State.setReq_hostMem (k : Nat) (r : Req) : (s.setReq k r).hostMem = s.hostMem := rfl
@[simp] theorem State.setReq_hbm (k : Nat) (r : Req) : (s.setReq k r).hbm = s.hbm := rfl
@[simp] theorem State.setReq_lands (k : Nat) (r : Req) : (s.setReq k r).lands = s.lands := rfl
@[simp] theorem State.setReq_flt (k : Nat) (r : Req) : (s.setReq k r).flt = s.flt := rfl
@[simp] theorem State.setReq_alc (k : Nat) (r : Req) : (s.setReq k r).alc = s.alc := rfl
@[simp] theorem State.setReq_arcades (k : Nat) (r : Req) : (s.setReq k r).arcades = s.arcades := rfl
@[simp] theorem State.setReq_cnt (k : Nat) (r : Req) : (s.setReq k r).cnt = s.cnt := rfl
@[simp] theorem State.setReq_parts (k : Nat) (r : Req) : (s.setReq k r).parts = s.parts := rfl
@[simp] theorem State.setReq_tenants (k : Nat) (r : Req) : (s.setReq k r).tenants = s.tenants := rfl
@[simp] theorem State.setReq_binds (k : Nat) (r : Req) : (s.setReq k r).binds = s.binds := rfl
@[simp] theorem State.setReq_sessions (k : Nat) (r : Req) : (s.setReq k r).sessions = s.sessions := rfl
@[simp] theorem State.setReq_syncs (k : Nat) (r : Req) : (s.setReq k r).syncs = s.syncs := rfl
@[simp] theorem State.setReq_nextOrder (k : Nat) (r : Req) : (s.setReq k r).nextOrder = s.nextOrder := rfl
@[simp] theorem State.setReq_objs (k : Nat) (r : Req) : (s.setReq k r).objs = s.objs := rfl
@[simp] theorem State.setReq_units (k : Nat) (r : Req) : (s.setReq k r).units = s.units := rfl
@[simp] theorem State.setReq_fresh (k : Nat) (r : Req) : (s.setReq k r).fresh = s.fresh := rfl
@[simp] theorem State.setReq_out (k : Nat) (r : Req) : (s.setReq k r).out = s.out := rfl
@[simp] theorem State.setReq_pending (k : Nat) (r : Req) : (s.setReq k r).pending = s.pending := rfl

/-! `State.updReq` changes `reqs` alone. -/
@[simp] theorem State.updReq_member (k : Nat) (g : Req → Req) : (s.updReq k g).member = s.member := rfl
@[simp] theorem State.updReq_fuses (k : Nat) (g : Req → Req) : (s.updReq k g).fuses = s.fuses := rfl
@[simp] theorem State.updReq_ownerPort (k : Nat) (g : Req → Req) : (s.updReq k g).ownerPort = s.ownerPort := rfl
@[simp] theorem State.updReq_bifurc (k : Nat) (g : Req → Req) : (s.updReq k g).bifurc = s.bifurc := rfl
@[simp] theorem State.updReq_regs (k : Nat) (g : Req → Req) : (s.updReq k g).regs = s.regs := rfl
@[simp] theorem State.updReq_staged (k : Nat) (g : Req → Req) : (s.updReq k g).staged = s.staged := rfl
@[simp] theorem State.updReq_newel (k : Nat) (g : Req → Req) : (s.updReq k g).newel = s.newel := rfl
@[simp] theorem State.updReq_power (k : Nat) (g : Req → Req) : (s.updReq k g).power = s.power := rfl
@[simp] theorem State.updReq_rst (k : Nat) (g : Req → Req) : (s.updReq k g).rst = s.rst := rfl
@[simp] theorem State.updReq_ports (k : Nat) (g : Req → Req) : (s.updReq k g).ports = s.ports := rfl
@[simp] theorem State.updReq_fns (k : Nat) (g : Req → Req) : (s.updReq k g).fns = s.fns := rfl
@[simp] theorem State.updReq_admin (k : Nat) (g : Req → Req) : (s.updReq k g).admin = s.admin := rfl
@[simp] theorem State.updReq_fw (k : Nat) (g : Req → Req) : (s.updReq k g).fw = s.fw := rfl
@[simp] theorem State.updReq_store (k : Nat) (g : Req → Req) : (s.updReq k g).store = s.store := rfl
@[simp] theorem State.updReq_spdm (k : Nat) (g : Req → Req) : (s.updReq k g).spdm = s.spdm := rfl
@[simp] theorem State.updReq_gal (k : Nat) (g : Req → Req) : (s.updReq k g).gal = s.gal := rfl
@[simp] theorem State.updReq_hostMem (k : Nat) (g : Req → Req) : (s.updReq k g).hostMem = s.hostMem := rfl
@[simp] theorem State.updReq_hbm (k : Nat) (g : Req → Req) : (s.updReq k g).hbm = s.hbm := rfl
@[simp] theorem State.updReq_lands (k : Nat) (g : Req → Req) : (s.updReq k g).lands = s.lands := rfl
@[simp] theorem State.updReq_flt (k : Nat) (g : Req → Req) : (s.updReq k g).flt = s.flt := rfl
@[simp] theorem State.updReq_alc (k : Nat) (g : Req → Req) : (s.updReq k g).alc = s.alc := rfl
@[simp] theorem State.updReq_arcades (k : Nat) (g : Req → Req) : (s.updReq k g).arcades = s.arcades := rfl
@[simp] theorem State.updReq_cnt (k : Nat) (g : Req → Req) : (s.updReq k g).cnt = s.cnt := rfl
@[simp] theorem State.updReq_parts (k : Nat) (g : Req → Req) : (s.updReq k g).parts = s.parts := rfl
@[simp] theorem State.updReq_tenants (k : Nat) (g : Req → Req) : (s.updReq k g).tenants = s.tenants := rfl
@[simp] theorem State.updReq_binds (k : Nat) (g : Req → Req) : (s.updReq k g).binds = s.binds := rfl
@[simp] theorem State.updReq_sessions (k : Nat) (g : Req → Req) : (s.updReq k g).sessions = s.sessions := rfl
@[simp] theorem State.updReq_syncs (k : Nat) (g : Req → Req) : (s.updReq k g).syncs = s.syncs := rfl
@[simp] theorem State.updReq_nextOrder (k : Nat) (g : Req → Req) : (s.updReq k g).nextOrder = s.nextOrder := rfl
@[simp] theorem State.updReq_objs (k : Nat) (g : Req → Req) : (s.updReq k g).objs = s.objs := rfl
@[simp] theorem State.updReq_units (k : Nat) (g : Req → Req) : (s.updReq k g).units = s.units := rfl
@[simp] theorem State.updReq_fresh (k : Nat) (g : Req → Req) : (s.updReq k g).fresh = s.fresh := rfl
@[simp] theorem State.updReq_out (k : Nat) (g : Req → Req) : (s.updReq k g).out = s.out := rfl
@[simp] theorem State.updReq_pending (k : Nat) (g : Req → Req) : (s.updReq k g).pending = s.pending := rfl

/-! `State.updNewel` changes `newel` alone. -/
@[simp] theorem State.updNewel_member (g : Newel → Newel) : (s.updNewel g).member = s.member := rfl
@[simp] theorem State.updNewel_fuses (g : Newel → Newel) : (s.updNewel g).fuses = s.fuses := rfl
@[simp] theorem State.updNewel_ownerPort (g : Newel → Newel) : (s.updNewel g).ownerPort = s.ownerPort := rfl
@[simp] theorem State.updNewel_bifurc (g : Newel → Newel) : (s.updNewel g).bifurc = s.bifurc := rfl
@[simp] theorem State.updNewel_regs (g : Newel → Newel) : (s.updNewel g).regs = s.regs := rfl
@[simp] theorem State.updNewel_staged (g : Newel → Newel) : (s.updNewel g).staged = s.staged := rfl
@[simp] theorem State.updNewel_power (g : Newel → Newel) : (s.updNewel g).power = s.power := rfl
@[simp] theorem State.updNewel_rst (g : Newel → Newel) : (s.updNewel g).rst = s.rst := rfl
@[simp] theorem State.updNewel_ports (g : Newel → Newel) : (s.updNewel g).ports = s.ports := rfl
@[simp] theorem State.updNewel_fns (g : Newel → Newel) : (s.updNewel g).fns = s.fns := rfl
@[simp] theorem State.updNewel_admin (g : Newel → Newel) : (s.updNewel g).admin = s.admin := rfl
@[simp] theorem State.updNewel_fw (g : Newel → Newel) : (s.updNewel g).fw = s.fw := rfl
@[simp] theorem State.updNewel_store (g : Newel → Newel) : (s.updNewel g).store = s.store := rfl
@[simp] theorem State.updNewel_spdm (g : Newel → Newel) : (s.updNewel g).spdm = s.spdm := rfl
@[simp] theorem State.updNewel_gal (g : Newel → Newel) : (s.updNewel g).gal = s.gal := rfl
@[simp] theorem State.updNewel_hostMem (g : Newel → Newel) : (s.updNewel g).hostMem = s.hostMem := rfl
@[simp] theorem State.updNewel_hbm (g : Newel → Newel) : (s.updNewel g).hbm = s.hbm := rfl
@[simp] theorem State.updNewel_lands (g : Newel → Newel) : (s.updNewel g).lands = s.lands := rfl
@[simp] theorem State.updNewel_flt (g : Newel → Newel) : (s.updNewel g).flt = s.flt := rfl
@[simp] theorem State.updNewel_alc (g : Newel → Newel) : (s.updNewel g).alc = s.alc := rfl
@[simp] theorem State.updNewel_arcades (g : Newel → Newel) : (s.updNewel g).arcades = s.arcades := rfl
@[simp] theorem State.updNewel_cnt (g : Newel → Newel) : (s.updNewel g).cnt = s.cnt := rfl
@[simp] theorem State.updNewel_parts (g : Newel → Newel) : (s.updNewel g).parts = s.parts := rfl
@[simp] theorem State.updNewel_tenants (g : Newel → Newel) : (s.updNewel g).tenants = s.tenants := rfl
@[simp] theorem State.updNewel_binds (g : Newel → Newel) : (s.updNewel g).binds = s.binds := rfl
@[simp] theorem State.updNewel_sessions (g : Newel → Newel) : (s.updNewel g).sessions = s.sessions := rfl
@[simp] theorem State.updNewel_syncs (g : Newel → Newel) : (s.updNewel g).syncs = s.syncs := rfl
@[simp] theorem State.updNewel_reqs (g : Newel → Newel) : (s.updNewel g).reqs = s.reqs := rfl
@[simp] theorem State.updNewel_nextOrder (g : Newel → Newel) : (s.updNewel g).nextOrder = s.nextOrder := rfl
@[simp] theorem State.updNewel_objs (g : Newel → Newel) : (s.updNewel g).objs = s.objs := rfl
@[simp] theorem State.updNewel_units (g : Newel → Newel) : (s.updNewel g).units = s.units := rfl
@[simp] theorem State.updNewel_fresh (g : Newel → Newel) : (s.updNewel g).fresh = s.fresh := rfl
@[simp] theorem State.updNewel_out (g : Newel → Newel) : (s.updNewel g).out = s.out := rfl
@[simp] theorem State.updNewel_pending (g : Newel → Newel) : (s.updNewel g).pending = s.pending := rfl

/-! `State.updPower` changes `power` alone. -/
@[simp] theorem State.updPower_member (g : Power → Power) : (s.updPower g).member = s.member := rfl
@[simp] theorem State.updPower_fuses (g : Power → Power) : (s.updPower g).fuses = s.fuses := rfl
@[simp] theorem State.updPower_ownerPort (g : Power → Power) : (s.updPower g).ownerPort = s.ownerPort := rfl
@[simp] theorem State.updPower_bifurc (g : Power → Power) : (s.updPower g).bifurc = s.bifurc := rfl
@[simp] theorem State.updPower_regs (g : Power → Power) : (s.updPower g).regs = s.regs := rfl
@[simp] theorem State.updPower_staged (g : Power → Power) : (s.updPower g).staged = s.staged := rfl
@[simp] theorem State.updPower_newel (g : Power → Power) : (s.updPower g).newel = s.newel := rfl
@[simp] theorem State.updPower_rst (g : Power → Power) : (s.updPower g).rst = s.rst := rfl
@[simp] theorem State.updPower_ports (g : Power → Power) : (s.updPower g).ports = s.ports := rfl
@[simp] theorem State.updPower_fns (g : Power → Power) : (s.updPower g).fns = s.fns := rfl
@[simp] theorem State.updPower_admin (g : Power → Power) : (s.updPower g).admin = s.admin := rfl
@[simp] theorem State.updPower_fw (g : Power → Power) : (s.updPower g).fw = s.fw := rfl
@[simp] theorem State.updPower_store (g : Power → Power) : (s.updPower g).store = s.store := rfl
@[simp] theorem State.updPower_spdm (g : Power → Power) : (s.updPower g).spdm = s.spdm := rfl
@[simp] theorem State.updPower_gal (g : Power → Power) : (s.updPower g).gal = s.gal := rfl
@[simp] theorem State.updPower_hostMem (g : Power → Power) : (s.updPower g).hostMem = s.hostMem := rfl
@[simp] theorem State.updPower_hbm (g : Power → Power) : (s.updPower g).hbm = s.hbm := rfl
@[simp] theorem State.updPower_lands (g : Power → Power) : (s.updPower g).lands = s.lands := rfl
@[simp] theorem State.updPower_flt (g : Power → Power) : (s.updPower g).flt = s.flt := rfl
@[simp] theorem State.updPower_alc (g : Power → Power) : (s.updPower g).alc = s.alc := rfl
@[simp] theorem State.updPower_arcades (g : Power → Power) : (s.updPower g).arcades = s.arcades := rfl
@[simp] theorem State.updPower_cnt (g : Power → Power) : (s.updPower g).cnt = s.cnt := rfl
@[simp] theorem State.updPower_parts (g : Power → Power) : (s.updPower g).parts = s.parts := rfl
@[simp] theorem State.updPower_tenants (g : Power → Power) : (s.updPower g).tenants = s.tenants := rfl
@[simp] theorem State.updPower_binds (g : Power → Power) : (s.updPower g).binds = s.binds := rfl
@[simp] theorem State.updPower_sessions (g : Power → Power) : (s.updPower g).sessions = s.sessions := rfl
@[simp] theorem State.updPower_syncs (g : Power → Power) : (s.updPower g).syncs = s.syncs := rfl
@[simp] theorem State.updPower_reqs (g : Power → Power) : (s.updPower g).reqs = s.reqs := rfl
@[simp] theorem State.updPower_nextOrder (g : Power → Power) : (s.updPower g).nextOrder = s.nextOrder := rfl
@[simp] theorem State.updPower_objs (g : Power → Power) : (s.updPower g).objs = s.objs := rfl
@[simp] theorem State.updPower_units (g : Power → Power) : (s.updPower g).units = s.units := rfl
@[simp] theorem State.updPower_fresh (g : Power → Power) : (s.updPower g).fresh = s.fresh := rfl
@[simp] theorem State.updPower_out (g : Power → Power) : (s.updPower g).out = s.out := rfl
@[simp] theorem State.updPower_pending (g : Power → Power) : (s.updPower g).pending = s.pending := rfl

/-! `State.updGal` changes `gal` alone. -/
@[simp] theorem State.updGal_member (g : Gallery → Gallery) : (s.updGal g).member = s.member := rfl
@[simp] theorem State.updGal_fuses (g : Gallery → Gallery) : (s.updGal g).fuses = s.fuses := rfl
@[simp] theorem State.updGal_ownerPort (g : Gallery → Gallery) : (s.updGal g).ownerPort = s.ownerPort := rfl
@[simp] theorem State.updGal_bifurc (g : Gallery → Gallery) : (s.updGal g).bifurc = s.bifurc := rfl
@[simp] theorem State.updGal_regs (g : Gallery → Gallery) : (s.updGal g).regs = s.regs := rfl
@[simp] theorem State.updGal_staged (g : Gallery → Gallery) : (s.updGal g).staged = s.staged := rfl
@[simp] theorem State.updGal_newel (g : Gallery → Gallery) : (s.updGal g).newel = s.newel := rfl
@[simp] theorem State.updGal_power (g : Gallery → Gallery) : (s.updGal g).power = s.power := rfl
@[simp] theorem State.updGal_rst (g : Gallery → Gallery) : (s.updGal g).rst = s.rst := rfl
@[simp] theorem State.updGal_ports (g : Gallery → Gallery) : (s.updGal g).ports = s.ports := rfl
@[simp] theorem State.updGal_fns (g : Gallery → Gallery) : (s.updGal g).fns = s.fns := rfl
@[simp] theorem State.updGal_admin (g : Gallery → Gallery) : (s.updGal g).admin = s.admin := rfl
@[simp] theorem State.updGal_fw (g : Gallery → Gallery) : (s.updGal g).fw = s.fw := rfl
@[simp] theorem State.updGal_store (g : Gallery → Gallery) : (s.updGal g).store = s.store := rfl
@[simp] theorem State.updGal_spdm (g : Gallery → Gallery) : (s.updGal g).spdm = s.spdm := rfl
@[simp] theorem State.updGal_hostMem (g : Gallery → Gallery) : (s.updGal g).hostMem = s.hostMem := rfl
@[simp] theorem State.updGal_hbm (g : Gallery → Gallery) : (s.updGal g).hbm = s.hbm := rfl
@[simp] theorem State.updGal_lands (g : Gallery → Gallery) : (s.updGal g).lands = s.lands := rfl
@[simp] theorem State.updGal_flt (g : Gallery → Gallery) : (s.updGal g).flt = s.flt := rfl
@[simp] theorem State.updGal_alc (g : Gallery → Gallery) : (s.updGal g).alc = s.alc := rfl
@[simp] theorem State.updGal_arcades (g : Gallery → Gallery) : (s.updGal g).arcades = s.arcades := rfl
@[simp] theorem State.updGal_cnt (g : Gallery → Gallery) : (s.updGal g).cnt = s.cnt := rfl
@[simp] theorem State.updGal_parts (g : Gallery → Gallery) : (s.updGal g).parts = s.parts := rfl
@[simp] theorem State.updGal_tenants (g : Gallery → Gallery) : (s.updGal g).tenants = s.tenants := rfl
@[simp] theorem State.updGal_binds (g : Gallery → Gallery) : (s.updGal g).binds = s.binds := rfl
@[simp] theorem State.updGal_sessions (g : Gallery → Gallery) : (s.updGal g).sessions = s.sessions := rfl
@[simp] theorem State.updGal_syncs (g : Gallery → Gallery) : (s.updGal g).syncs = s.syncs := rfl
@[simp] theorem State.updGal_reqs (g : Gallery → Gallery) : (s.updGal g).reqs = s.reqs := rfl
@[simp] theorem State.updGal_nextOrder (g : Gallery → Gallery) : (s.updGal g).nextOrder = s.nextOrder := rfl
@[simp] theorem State.updGal_objs (g : Gallery → Gallery) : (s.updGal g).objs = s.objs := rfl
@[simp] theorem State.updGal_units (g : Gallery → Gallery) : (s.updGal g).units = s.units := rfl
@[simp] theorem State.updGal_fresh (g : Gallery → Gallery) : (s.updGal g).fresh = s.fresh := rfl
@[simp] theorem State.updGal_out (g : Gallery → Gallery) : (s.updGal g).out = s.out := rfl
@[simp] theorem State.updGal_pending (g : Gallery → Gallery) : (s.updGal g).pending = s.pending := rfl

/-! `State.updGalPort` changes `gal` alone. -/
@[simp] theorem State.updGalPort_member (p : Nat) (g : GalPort → GalPort) : (s.updGalPort p g).member = s.member := rfl
@[simp] theorem State.updGalPort_fuses (p : Nat) (g : GalPort → GalPort) : (s.updGalPort p g).fuses = s.fuses := rfl
@[simp] theorem State.updGalPort_ownerPort (p : Nat) (g : GalPort → GalPort) : (s.updGalPort p g).ownerPort = s.ownerPort := rfl
@[simp] theorem State.updGalPort_bifurc (p : Nat) (g : GalPort → GalPort) : (s.updGalPort p g).bifurc = s.bifurc := rfl
@[simp] theorem State.updGalPort_regs (p : Nat) (g : GalPort → GalPort) : (s.updGalPort p g).regs = s.regs := rfl
@[simp] theorem State.updGalPort_staged (p : Nat) (g : GalPort → GalPort) : (s.updGalPort p g).staged = s.staged := rfl
@[simp] theorem State.updGalPort_newel (p : Nat) (g : GalPort → GalPort) : (s.updGalPort p g).newel = s.newel := rfl
@[simp] theorem State.updGalPort_power (p : Nat) (g : GalPort → GalPort) : (s.updGalPort p g).power = s.power := rfl
@[simp] theorem State.updGalPort_rst (p : Nat) (g : GalPort → GalPort) : (s.updGalPort p g).rst = s.rst := rfl
@[simp] theorem State.updGalPort_ports (p : Nat) (g : GalPort → GalPort) : (s.updGalPort p g).ports = s.ports := rfl
@[simp] theorem State.updGalPort_fns (p : Nat) (g : GalPort → GalPort) : (s.updGalPort p g).fns = s.fns := rfl
@[simp] theorem State.updGalPort_admin (p : Nat) (g : GalPort → GalPort) : (s.updGalPort p g).admin = s.admin := rfl
@[simp] theorem State.updGalPort_fw (p : Nat) (g : GalPort → GalPort) : (s.updGalPort p g).fw = s.fw := rfl
@[simp] theorem State.updGalPort_store (p : Nat) (g : GalPort → GalPort) : (s.updGalPort p g).store = s.store := rfl
@[simp] theorem State.updGalPort_spdm (p : Nat) (g : GalPort → GalPort) : (s.updGalPort p g).spdm = s.spdm := rfl
@[simp] theorem State.updGalPort_hostMem (p : Nat) (g : GalPort → GalPort) : (s.updGalPort p g).hostMem = s.hostMem := rfl
@[simp] theorem State.updGalPort_hbm (p : Nat) (g : GalPort → GalPort) : (s.updGalPort p g).hbm = s.hbm := rfl
@[simp] theorem State.updGalPort_lands (p : Nat) (g : GalPort → GalPort) : (s.updGalPort p g).lands = s.lands := rfl
@[simp] theorem State.updGalPort_flt (p : Nat) (g : GalPort → GalPort) : (s.updGalPort p g).flt = s.flt := rfl
@[simp] theorem State.updGalPort_alc (p : Nat) (g : GalPort → GalPort) : (s.updGalPort p g).alc = s.alc := rfl
@[simp] theorem State.updGalPort_arcades (p : Nat) (g : GalPort → GalPort) : (s.updGalPort p g).arcades = s.arcades := rfl
@[simp] theorem State.updGalPort_cnt (p : Nat) (g : GalPort → GalPort) : (s.updGalPort p g).cnt = s.cnt := rfl
@[simp] theorem State.updGalPort_parts (p : Nat) (g : GalPort → GalPort) : (s.updGalPort p g).parts = s.parts := rfl
@[simp] theorem State.updGalPort_tenants (p : Nat) (g : GalPort → GalPort) : (s.updGalPort p g).tenants = s.tenants := rfl
@[simp] theorem State.updGalPort_binds (p : Nat) (g : GalPort → GalPort) : (s.updGalPort p g).binds = s.binds := rfl
@[simp] theorem State.updGalPort_sessions (p : Nat) (g : GalPort → GalPort) : (s.updGalPort p g).sessions = s.sessions := rfl
@[simp] theorem State.updGalPort_syncs (p : Nat) (g : GalPort → GalPort) : (s.updGalPort p g).syncs = s.syncs := rfl
@[simp] theorem State.updGalPort_reqs (p : Nat) (g : GalPort → GalPort) : (s.updGalPort p g).reqs = s.reqs := rfl
@[simp] theorem State.updGalPort_nextOrder (p : Nat) (g : GalPort → GalPort) : (s.updGalPort p g).nextOrder = s.nextOrder := rfl
@[simp] theorem State.updGalPort_objs (p : Nat) (g : GalPort → GalPort) : (s.updGalPort p g).objs = s.objs := rfl
@[simp] theorem State.updGalPort_units (p : Nat) (g : GalPort → GalPort) : (s.updGalPort p g).units = s.units := rfl
@[simp] theorem State.updGalPort_fresh (p : Nat) (g : GalPort → GalPort) : (s.updGalPort p g).fresh = s.fresh := rfl
@[simp] theorem State.updGalPort_out (p : Nat) (g : GalPort → GalPort) : (s.updGalPort p g).out = s.out := rfl
@[simp] theorem State.updGalPort_pending (p : Nat) (g : GalPort → GalPort) : (s.updGalPort p g).pending = s.pending := rfl

/-! `State.updPeer` changes `gal` alone. -/
@[simp] theorem State.updPeer_member (p : Nat) (g : Peer → Peer) : (s.updPeer p g).member = s.member := rfl
@[simp] theorem State.updPeer_fuses (p : Nat) (g : Peer → Peer) : (s.updPeer p g).fuses = s.fuses := rfl
@[simp] theorem State.updPeer_ownerPort (p : Nat) (g : Peer → Peer) : (s.updPeer p g).ownerPort = s.ownerPort := rfl
@[simp] theorem State.updPeer_bifurc (p : Nat) (g : Peer → Peer) : (s.updPeer p g).bifurc = s.bifurc := rfl
@[simp] theorem State.updPeer_regs (p : Nat) (g : Peer → Peer) : (s.updPeer p g).regs = s.regs := rfl
@[simp] theorem State.updPeer_staged (p : Nat) (g : Peer → Peer) : (s.updPeer p g).staged = s.staged := rfl
@[simp] theorem State.updPeer_newel (p : Nat) (g : Peer → Peer) : (s.updPeer p g).newel = s.newel := rfl
@[simp] theorem State.updPeer_power (p : Nat) (g : Peer → Peer) : (s.updPeer p g).power = s.power := rfl
@[simp] theorem State.updPeer_rst (p : Nat) (g : Peer → Peer) : (s.updPeer p g).rst = s.rst := rfl
@[simp] theorem State.updPeer_ports (p : Nat) (g : Peer → Peer) : (s.updPeer p g).ports = s.ports := rfl
@[simp] theorem State.updPeer_fns (p : Nat) (g : Peer → Peer) : (s.updPeer p g).fns = s.fns := rfl
@[simp] theorem State.updPeer_admin (p : Nat) (g : Peer → Peer) : (s.updPeer p g).admin = s.admin := rfl
@[simp] theorem State.updPeer_fw (p : Nat) (g : Peer → Peer) : (s.updPeer p g).fw = s.fw := rfl
@[simp] theorem State.updPeer_store (p : Nat) (g : Peer → Peer) : (s.updPeer p g).store = s.store := rfl
@[simp] theorem State.updPeer_spdm (p : Nat) (g : Peer → Peer) : (s.updPeer p g).spdm = s.spdm := rfl
@[simp] theorem State.updPeer_hostMem (p : Nat) (g : Peer → Peer) : (s.updPeer p g).hostMem = s.hostMem := rfl
@[simp] theorem State.updPeer_hbm (p : Nat) (g : Peer → Peer) : (s.updPeer p g).hbm = s.hbm := rfl
@[simp] theorem State.updPeer_lands (p : Nat) (g : Peer → Peer) : (s.updPeer p g).lands = s.lands := rfl
@[simp] theorem State.updPeer_flt (p : Nat) (g : Peer → Peer) : (s.updPeer p g).flt = s.flt := rfl
@[simp] theorem State.updPeer_alc (p : Nat) (g : Peer → Peer) : (s.updPeer p g).alc = s.alc := rfl
@[simp] theorem State.updPeer_arcades (p : Nat) (g : Peer → Peer) : (s.updPeer p g).arcades = s.arcades := rfl
@[simp] theorem State.updPeer_cnt (p : Nat) (g : Peer → Peer) : (s.updPeer p g).cnt = s.cnt := rfl
@[simp] theorem State.updPeer_parts (p : Nat) (g : Peer → Peer) : (s.updPeer p g).parts = s.parts := rfl
@[simp] theorem State.updPeer_tenants (p : Nat) (g : Peer → Peer) : (s.updPeer p g).tenants = s.tenants := rfl
@[simp] theorem State.updPeer_binds (p : Nat) (g : Peer → Peer) : (s.updPeer p g).binds = s.binds := rfl
@[simp] theorem State.updPeer_sessions (p : Nat) (g : Peer → Peer) : (s.updPeer p g).sessions = s.sessions := rfl
@[simp] theorem State.updPeer_syncs (p : Nat) (g : Peer → Peer) : (s.updPeer p g).syncs = s.syncs := rfl
@[simp] theorem State.updPeer_reqs (p : Nat) (g : Peer → Peer) : (s.updPeer p g).reqs = s.reqs := rfl
@[simp] theorem State.updPeer_nextOrder (p : Nat) (g : Peer → Peer) : (s.updPeer p g).nextOrder = s.nextOrder := rfl
@[simp] theorem State.updPeer_objs (p : Nat) (g : Peer → Peer) : (s.updPeer p g).objs = s.objs := rfl
@[simp] theorem State.updPeer_units (p : Nat) (g : Peer → Peer) : (s.updPeer p g).units = s.units := rfl
@[simp] theorem State.updPeer_fresh (p : Nat) (g : Peer → Peer) : (s.updPeer p g).fresh = s.fresh := rfl
@[simp] theorem State.updPeer_out (p : Nat) (g : Peer → Peer) : (s.updPeer p g).out = s.out := rfl
@[simp] theorem State.updPeer_pending (p : Nat) (g : Peer → Peer) : (s.updPeer p g).pending = s.pending := rfl

/-! `State.updTenant` changes `tenants` alone. -/
@[simp] theorem State.updTenant_member (t : Nat) (g : Tenant → Tenant) : (s.updTenant t g).member = s.member := rfl
@[simp] theorem State.updTenant_fuses (t : Nat) (g : Tenant → Tenant) : (s.updTenant t g).fuses = s.fuses := rfl
@[simp] theorem State.updTenant_ownerPort (t : Nat) (g : Tenant → Tenant) : (s.updTenant t g).ownerPort = s.ownerPort := rfl
@[simp] theorem State.updTenant_bifurc (t : Nat) (g : Tenant → Tenant) : (s.updTenant t g).bifurc = s.bifurc := rfl
@[simp] theorem State.updTenant_regs (t : Nat) (g : Tenant → Tenant) : (s.updTenant t g).regs = s.regs := rfl
@[simp] theorem State.updTenant_staged (t : Nat) (g : Tenant → Tenant) : (s.updTenant t g).staged = s.staged := rfl
@[simp] theorem State.updTenant_newel (t : Nat) (g : Tenant → Tenant) : (s.updTenant t g).newel = s.newel := rfl
@[simp] theorem State.updTenant_power (t : Nat) (g : Tenant → Tenant) : (s.updTenant t g).power = s.power := rfl
@[simp] theorem State.updTenant_rst (t : Nat) (g : Tenant → Tenant) : (s.updTenant t g).rst = s.rst := rfl
@[simp] theorem State.updTenant_ports (t : Nat) (g : Tenant → Tenant) : (s.updTenant t g).ports = s.ports := rfl
@[simp] theorem State.updTenant_fns (t : Nat) (g : Tenant → Tenant) : (s.updTenant t g).fns = s.fns := rfl
@[simp] theorem State.updTenant_admin (t : Nat) (g : Tenant → Tenant) : (s.updTenant t g).admin = s.admin := rfl
@[simp] theorem State.updTenant_fw (t : Nat) (g : Tenant → Tenant) : (s.updTenant t g).fw = s.fw := rfl
@[simp] theorem State.updTenant_store (t : Nat) (g : Tenant → Tenant) : (s.updTenant t g).store = s.store := rfl
@[simp] theorem State.updTenant_spdm (t : Nat) (g : Tenant → Tenant) : (s.updTenant t g).spdm = s.spdm := rfl
@[simp] theorem State.updTenant_gal (t : Nat) (g : Tenant → Tenant) : (s.updTenant t g).gal = s.gal := rfl
@[simp] theorem State.updTenant_hostMem (t : Nat) (g : Tenant → Tenant) : (s.updTenant t g).hostMem = s.hostMem := rfl
@[simp] theorem State.updTenant_hbm (t : Nat) (g : Tenant → Tenant) : (s.updTenant t g).hbm = s.hbm := rfl
@[simp] theorem State.updTenant_lands (t : Nat) (g : Tenant → Tenant) : (s.updTenant t g).lands = s.lands := rfl
@[simp] theorem State.updTenant_flt (t : Nat) (g : Tenant → Tenant) : (s.updTenant t g).flt = s.flt := rfl
@[simp] theorem State.updTenant_alc (t : Nat) (g : Tenant → Tenant) : (s.updTenant t g).alc = s.alc := rfl
@[simp] theorem State.updTenant_arcades (t : Nat) (g : Tenant → Tenant) : (s.updTenant t g).arcades = s.arcades := rfl
@[simp] theorem State.updTenant_cnt (t : Nat) (g : Tenant → Tenant) : (s.updTenant t g).cnt = s.cnt := rfl
@[simp] theorem State.updTenant_parts (t : Nat) (g : Tenant → Tenant) : (s.updTenant t g).parts = s.parts := rfl
@[simp] theorem State.updTenant_binds (t : Nat) (g : Tenant → Tenant) : (s.updTenant t g).binds = s.binds := rfl
@[simp] theorem State.updTenant_sessions (t : Nat) (g : Tenant → Tenant) : (s.updTenant t g).sessions = s.sessions := rfl
@[simp] theorem State.updTenant_syncs (t : Nat) (g : Tenant → Tenant) : (s.updTenant t g).syncs = s.syncs := rfl
@[simp] theorem State.updTenant_reqs (t : Nat) (g : Tenant → Tenant) : (s.updTenant t g).reqs = s.reqs := rfl
@[simp] theorem State.updTenant_nextOrder (t : Nat) (g : Tenant → Tenant) : (s.updTenant t g).nextOrder = s.nextOrder := rfl
@[simp] theorem State.updTenant_objs (t : Nat) (g : Tenant → Tenant) : (s.updTenant t g).objs = s.objs := rfl
@[simp] theorem State.updTenant_units (t : Nat) (g : Tenant → Tenant) : (s.updTenant t g).units = s.units := rfl
@[simp] theorem State.updTenant_fresh (t : Nat) (g : Tenant → Tenant) : (s.updTenant t g).fresh = s.fresh := rfl
@[simp] theorem State.updTenant_out (t : Nat) (g : Tenant → Tenant) : (s.updTenant t g).out = s.out := rfl
@[simp] theorem State.updTenant_pending (t : Nat) (g : Tenant → Tenant) : (s.updTenant t g).pending = s.pending := rfl

/-! `State.updObjs` changes `objs` alone. -/
@[simp] theorem State.updObjs_member (g : Objs → Objs) : (s.updObjs g).member = s.member := rfl
@[simp] theorem State.updObjs_fuses (g : Objs → Objs) : (s.updObjs g).fuses = s.fuses := rfl
@[simp] theorem State.updObjs_ownerPort (g : Objs → Objs) : (s.updObjs g).ownerPort = s.ownerPort := rfl
@[simp] theorem State.updObjs_bifurc (g : Objs → Objs) : (s.updObjs g).bifurc = s.bifurc := rfl
@[simp] theorem State.updObjs_regs (g : Objs → Objs) : (s.updObjs g).regs = s.regs := rfl
@[simp] theorem State.updObjs_staged (g : Objs → Objs) : (s.updObjs g).staged = s.staged := rfl
@[simp] theorem State.updObjs_newel (g : Objs → Objs) : (s.updObjs g).newel = s.newel := rfl
@[simp] theorem State.updObjs_power (g : Objs → Objs) : (s.updObjs g).power = s.power := rfl
@[simp] theorem State.updObjs_rst (g : Objs → Objs) : (s.updObjs g).rst = s.rst := rfl
@[simp] theorem State.updObjs_ports (g : Objs → Objs) : (s.updObjs g).ports = s.ports := rfl
@[simp] theorem State.updObjs_fns (g : Objs → Objs) : (s.updObjs g).fns = s.fns := rfl
@[simp] theorem State.updObjs_admin (g : Objs → Objs) : (s.updObjs g).admin = s.admin := rfl
@[simp] theorem State.updObjs_fw (g : Objs → Objs) : (s.updObjs g).fw = s.fw := rfl
@[simp] theorem State.updObjs_store (g : Objs → Objs) : (s.updObjs g).store = s.store := rfl
@[simp] theorem State.updObjs_spdm (g : Objs → Objs) : (s.updObjs g).spdm = s.spdm := rfl
@[simp] theorem State.updObjs_gal (g : Objs → Objs) : (s.updObjs g).gal = s.gal := rfl
@[simp] theorem State.updObjs_hostMem (g : Objs → Objs) : (s.updObjs g).hostMem = s.hostMem := rfl
@[simp] theorem State.updObjs_hbm (g : Objs → Objs) : (s.updObjs g).hbm = s.hbm := rfl
@[simp] theorem State.updObjs_lands (g : Objs → Objs) : (s.updObjs g).lands = s.lands := rfl
@[simp] theorem State.updObjs_flt (g : Objs → Objs) : (s.updObjs g).flt = s.flt := rfl
@[simp] theorem State.updObjs_alc (g : Objs → Objs) : (s.updObjs g).alc = s.alc := rfl
@[simp] theorem State.updObjs_arcades (g : Objs → Objs) : (s.updObjs g).arcades = s.arcades := rfl
@[simp] theorem State.updObjs_cnt (g : Objs → Objs) : (s.updObjs g).cnt = s.cnt := rfl
@[simp] theorem State.updObjs_parts (g : Objs → Objs) : (s.updObjs g).parts = s.parts := rfl
@[simp] theorem State.updObjs_tenants (g : Objs → Objs) : (s.updObjs g).tenants = s.tenants := rfl
@[simp] theorem State.updObjs_binds (g : Objs → Objs) : (s.updObjs g).binds = s.binds := rfl
@[simp] theorem State.updObjs_sessions (g : Objs → Objs) : (s.updObjs g).sessions = s.sessions := rfl
@[simp] theorem State.updObjs_syncs (g : Objs → Objs) : (s.updObjs g).syncs = s.syncs := rfl
@[simp] theorem State.updObjs_reqs (g : Objs → Objs) : (s.updObjs g).reqs = s.reqs := rfl
@[simp] theorem State.updObjs_nextOrder (g : Objs → Objs) : (s.updObjs g).nextOrder = s.nextOrder := rfl
@[simp] theorem State.updObjs_units (g : Objs → Objs) : (s.updObjs g).units = s.units := rfl
@[simp] theorem State.updObjs_fresh (g : Objs → Objs) : (s.updObjs g).fresh = s.fresh := rfl
@[simp] theorem State.updObjs_out (g : Objs → Objs) : (s.updObjs g).out = s.out := rfl
@[simp] theorem State.updObjs_pending (g : Objs → Objs) : (s.updObjs g).pending = s.pending := rfl

/-! `State.updUnits` changes `units` alone. -/
@[simp] theorem State.updUnits_member (g : Units → Units) : (s.updUnits g).member = s.member := rfl
@[simp] theorem State.updUnits_fuses (g : Units → Units) : (s.updUnits g).fuses = s.fuses := rfl
@[simp] theorem State.updUnits_ownerPort (g : Units → Units) : (s.updUnits g).ownerPort = s.ownerPort := rfl
@[simp] theorem State.updUnits_bifurc (g : Units → Units) : (s.updUnits g).bifurc = s.bifurc := rfl
@[simp] theorem State.updUnits_regs (g : Units → Units) : (s.updUnits g).regs = s.regs := rfl
@[simp] theorem State.updUnits_staged (g : Units → Units) : (s.updUnits g).staged = s.staged := rfl
@[simp] theorem State.updUnits_newel (g : Units → Units) : (s.updUnits g).newel = s.newel := rfl
@[simp] theorem State.updUnits_power (g : Units → Units) : (s.updUnits g).power = s.power := rfl
@[simp] theorem State.updUnits_rst (g : Units → Units) : (s.updUnits g).rst = s.rst := rfl
@[simp] theorem State.updUnits_ports (g : Units → Units) : (s.updUnits g).ports = s.ports := rfl
@[simp] theorem State.updUnits_fns (g : Units → Units) : (s.updUnits g).fns = s.fns := rfl
@[simp] theorem State.updUnits_admin (g : Units → Units) : (s.updUnits g).admin = s.admin := rfl
@[simp] theorem State.updUnits_fw (g : Units → Units) : (s.updUnits g).fw = s.fw := rfl
@[simp] theorem State.updUnits_store (g : Units → Units) : (s.updUnits g).store = s.store := rfl
@[simp] theorem State.updUnits_spdm (g : Units → Units) : (s.updUnits g).spdm = s.spdm := rfl
@[simp] theorem State.updUnits_gal (g : Units → Units) : (s.updUnits g).gal = s.gal := rfl
@[simp] theorem State.updUnits_hostMem (g : Units → Units) : (s.updUnits g).hostMem = s.hostMem := rfl
@[simp] theorem State.updUnits_hbm (g : Units → Units) : (s.updUnits g).hbm = s.hbm := rfl
@[simp] theorem State.updUnits_lands (g : Units → Units) : (s.updUnits g).lands = s.lands := rfl
@[simp] theorem State.updUnits_flt (g : Units → Units) : (s.updUnits g).flt = s.flt := rfl
@[simp] theorem State.updUnits_alc (g : Units → Units) : (s.updUnits g).alc = s.alc := rfl
@[simp] theorem State.updUnits_arcades (g : Units → Units) : (s.updUnits g).arcades = s.arcades := rfl
@[simp] theorem State.updUnits_cnt (g : Units → Units) : (s.updUnits g).cnt = s.cnt := rfl
@[simp] theorem State.updUnits_parts (g : Units → Units) : (s.updUnits g).parts = s.parts := rfl
@[simp] theorem State.updUnits_tenants (g : Units → Units) : (s.updUnits g).tenants = s.tenants := rfl
@[simp] theorem State.updUnits_binds (g : Units → Units) : (s.updUnits g).binds = s.binds := rfl
@[simp] theorem State.updUnits_sessions (g : Units → Units) : (s.updUnits g).sessions = s.sessions := rfl
@[simp] theorem State.updUnits_syncs (g : Units → Units) : (s.updUnits g).syncs = s.syncs := rfl
@[simp] theorem State.updUnits_reqs (g : Units → Units) : (s.updUnits g).reqs = s.reqs := rfl
@[simp] theorem State.updUnits_nextOrder (g : Units → Units) : (s.updUnits g).nextOrder = s.nextOrder := rfl
@[simp] theorem State.updUnits_objs (g : Units → Units) : (s.updUnits g).objs = s.objs := rfl
@[simp] theorem State.updUnits_fresh (g : Units → Units) : (s.updUnits g).fresh = s.fresh := rfl
@[simp] theorem State.updUnits_out (g : Units → Units) : (s.updUnits g).out = s.out := rfl
@[simp] theorem State.updUnits_pending (g : Units → Units) : (s.updUnits g).pending = s.pending := rfl

/-! `State.setSync` changes `syncs` alone. -/
@[simp] theorem State.setSync_member (i : Nat) (x : Sync) : (s.setSync i x).member = s.member := rfl
@[simp] theorem State.setSync_fuses (i : Nat) (x : Sync) : (s.setSync i x).fuses = s.fuses := rfl
@[simp] theorem State.setSync_ownerPort (i : Nat) (x : Sync) : (s.setSync i x).ownerPort = s.ownerPort := rfl
@[simp] theorem State.setSync_bifurc (i : Nat) (x : Sync) : (s.setSync i x).bifurc = s.bifurc := rfl
@[simp] theorem State.setSync_regs (i : Nat) (x : Sync) : (s.setSync i x).regs = s.regs := rfl
@[simp] theorem State.setSync_staged (i : Nat) (x : Sync) : (s.setSync i x).staged = s.staged := rfl
@[simp] theorem State.setSync_newel (i : Nat) (x : Sync) : (s.setSync i x).newel = s.newel := rfl
@[simp] theorem State.setSync_power (i : Nat) (x : Sync) : (s.setSync i x).power = s.power := rfl
@[simp] theorem State.setSync_rst (i : Nat) (x : Sync) : (s.setSync i x).rst = s.rst := rfl
@[simp] theorem State.setSync_ports (i : Nat) (x : Sync) : (s.setSync i x).ports = s.ports := rfl
@[simp] theorem State.setSync_fns (i : Nat) (x : Sync) : (s.setSync i x).fns = s.fns := rfl
@[simp] theorem State.setSync_admin (i : Nat) (x : Sync) : (s.setSync i x).admin = s.admin := rfl
@[simp] theorem State.setSync_fw (i : Nat) (x : Sync) : (s.setSync i x).fw = s.fw := rfl
@[simp] theorem State.setSync_store (i : Nat) (x : Sync) : (s.setSync i x).store = s.store := rfl
@[simp] theorem State.setSync_spdm (i : Nat) (x : Sync) : (s.setSync i x).spdm = s.spdm := rfl
@[simp] theorem State.setSync_gal (i : Nat) (x : Sync) : (s.setSync i x).gal = s.gal := rfl
@[simp] theorem State.setSync_hostMem (i : Nat) (x : Sync) : (s.setSync i x).hostMem = s.hostMem := rfl
@[simp] theorem State.setSync_hbm (i : Nat) (x : Sync) : (s.setSync i x).hbm = s.hbm := rfl
@[simp] theorem State.setSync_lands (i : Nat) (x : Sync) : (s.setSync i x).lands = s.lands := rfl
@[simp] theorem State.setSync_flt (i : Nat) (x : Sync) : (s.setSync i x).flt = s.flt := rfl
@[simp] theorem State.setSync_alc (i : Nat) (x : Sync) : (s.setSync i x).alc = s.alc := rfl
@[simp] theorem State.setSync_arcades (i : Nat) (x : Sync) : (s.setSync i x).arcades = s.arcades := rfl
@[simp] theorem State.setSync_cnt (i : Nat) (x : Sync) : (s.setSync i x).cnt = s.cnt := rfl
@[simp] theorem State.setSync_parts (i : Nat) (x : Sync) : (s.setSync i x).parts = s.parts := rfl
@[simp] theorem State.setSync_tenants (i : Nat) (x : Sync) : (s.setSync i x).tenants = s.tenants := rfl
@[simp] theorem State.setSync_binds (i : Nat) (x : Sync) : (s.setSync i x).binds = s.binds := rfl
@[simp] theorem State.setSync_sessions (i : Nat) (x : Sync) : (s.setSync i x).sessions = s.sessions := rfl
@[simp] theorem State.setSync_reqs (i : Nat) (x : Sync) : (s.setSync i x).reqs = s.reqs := rfl
@[simp] theorem State.setSync_nextOrder (i : Nat) (x : Sync) : (s.setSync i x).nextOrder = s.nextOrder := rfl
@[simp] theorem State.setSync_objs (i : Nat) (x : Sync) : (s.setSync i x).objs = s.objs := rfl
@[simp] theorem State.setSync_units (i : Nat) (x : Sync) : (s.setSync i x).units = s.units := rfl
@[simp] theorem State.setSync_fresh (i : Nat) (x : Sync) : (s.setSync i x).fresh = s.fresh := rfl
@[simp] theorem State.setSync_out (i : Nat) (x : Sync) : (s.setSync i x).out = s.out := rfl
@[simp] theorem State.setSync_pending (i : Nat) (x : Sync) : (s.setSync i x).pending = s.pending := rfl

/-! `State.setIndex` changes `objs` alone. -/
@[simp] theorem State.setIndex_member (i : Nat) (x : Index) : (s.setIndex i x).member = s.member := rfl
@[simp] theorem State.setIndex_fuses (i : Nat) (x : Index) : (s.setIndex i x).fuses = s.fuses := rfl
@[simp] theorem State.setIndex_ownerPort (i : Nat) (x : Index) : (s.setIndex i x).ownerPort = s.ownerPort := rfl
@[simp] theorem State.setIndex_bifurc (i : Nat) (x : Index) : (s.setIndex i x).bifurc = s.bifurc := rfl
@[simp] theorem State.setIndex_regs (i : Nat) (x : Index) : (s.setIndex i x).regs = s.regs := rfl
@[simp] theorem State.setIndex_staged (i : Nat) (x : Index) : (s.setIndex i x).staged = s.staged := rfl
@[simp] theorem State.setIndex_newel (i : Nat) (x : Index) : (s.setIndex i x).newel = s.newel := rfl
@[simp] theorem State.setIndex_power (i : Nat) (x : Index) : (s.setIndex i x).power = s.power := rfl
@[simp] theorem State.setIndex_rst (i : Nat) (x : Index) : (s.setIndex i x).rst = s.rst := rfl
@[simp] theorem State.setIndex_ports (i : Nat) (x : Index) : (s.setIndex i x).ports = s.ports := rfl
@[simp] theorem State.setIndex_fns (i : Nat) (x : Index) : (s.setIndex i x).fns = s.fns := rfl
@[simp] theorem State.setIndex_admin (i : Nat) (x : Index) : (s.setIndex i x).admin = s.admin := rfl
@[simp] theorem State.setIndex_fw (i : Nat) (x : Index) : (s.setIndex i x).fw = s.fw := rfl
@[simp] theorem State.setIndex_store (i : Nat) (x : Index) : (s.setIndex i x).store = s.store := rfl
@[simp] theorem State.setIndex_spdm (i : Nat) (x : Index) : (s.setIndex i x).spdm = s.spdm := rfl
@[simp] theorem State.setIndex_gal (i : Nat) (x : Index) : (s.setIndex i x).gal = s.gal := rfl
@[simp] theorem State.setIndex_hostMem (i : Nat) (x : Index) : (s.setIndex i x).hostMem = s.hostMem := rfl
@[simp] theorem State.setIndex_hbm (i : Nat) (x : Index) : (s.setIndex i x).hbm = s.hbm := rfl
@[simp] theorem State.setIndex_lands (i : Nat) (x : Index) : (s.setIndex i x).lands = s.lands := rfl
@[simp] theorem State.setIndex_flt (i : Nat) (x : Index) : (s.setIndex i x).flt = s.flt := rfl
@[simp] theorem State.setIndex_alc (i : Nat) (x : Index) : (s.setIndex i x).alc = s.alc := rfl
@[simp] theorem State.setIndex_arcades (i : Nat) (x : Index) : (s.setIndex i x).arcades = s.arcades := rfl
@[simp] theorem State.setIndex_cnt (i : Nat) (x : Index) : (s.setIndex i x).cnt = s.cnt := rfl
@[simp] theorem State.setIndex_parts (i : Nat) (x : Index) : (s.setIndex i x).parts = s.parts := rfl
@[simp] theorem State.setIndex_tenants (i : Nat) (x : Index) : (s.setIndex i x).tenants = s.tenants := rfl
@[simp] theorem State.setIndex_binds (i : Nat) (x : Index) : (s.setIndex i x).binds = s.binds := rfl
@[simp] theorem State.setIndex_sessions (i : Nat) (x : Index) : (s.setIndex i x).sessions = s.sessions := rfl
@[simp] theorem State.setIndex_syncs (i : Nat) (x : Index) : (s.setIndex i x).syncs = s.syncs := rfl
@[simp] theorem State.setIndex_reqs (i : Nat) (x : Index) : (s.setIndex i x).reqs = s.reqs := rfl
@[simp] theorem State.setIndex_nextOrder (i : Nat) (x : Index) : (s.setIndex i x).nextOrder = s.nextOrder := rfl
@[simp] theorem State.setIndex_units (i : Nat) (x : Index) : (s.setIndex i x).units = s.units := rfl
@[simp] theorem State.setIndex_fresh (i : Nat) (x : Index) : (s.setIndex i x).fresh = s.fresh := rfl
@[simp] theorem State.setIndex_out (i : Nat) (x : Index) : (s.setIndex i x).out = s.out := rfl
@[simp] theorem State.setIndex_pending (i : Nat) (x : Index) : (s.setIndex i x).pending = s.pending := rfl

/-! `State.updAlc` changes `alc` alone. -/
@[simp] theorem State.updAlc_member (g : Alcoves → Alcoves) : (s.updAlc g).member = s.member := rfl
@[simp] theorem State.updAlc_fuses (g : Alcoves → Alcoves) : (s.updAlc g).fuses = s.fuses := rfl
@[simp] theorem State.updAlc_ownerPort (g : Alcoves → Alcoves) : (s.updAlc g).ownerPort = s.ownerPort := rfl
@[simp] theorem State.updAlc_bifurc (g : Alcoves → Alcoves) : (s.updAlc g).bifurc = s.bifurc := rfl
@[simp] theorem State.updAlc_regs (g : Alcoves → Alcoves) : (s.updAlc g).regs = s.regs := rfl
@[simp] theorem State.updAlc_staged (g : Alcoves → Alcoves) : (s.updAlc g).staged = s.staged := rfl
@[simp] theorem State.updAlc_newel (g : Alcoves → Alcoves) : (s.updAlc g).newel = s.newel := rfl
@[simp] theorem State.updAlc_power (g : Alcoves → Alcoves) : (s.updAlc g).power = s.power := rfl
@[simp] theorem State.updAlc_rst (g : Alcoves → Alcoves) : (s.updAlc g).rst = s.rst := rfl
@[simp] theorem State.updAlc_ports (g : Alcoves → Alcoves) : (s.updAlc g).ports = s.ports := rfl
@[simp] theorem State.updAlc_fns (g : Alcoves → Alcoves) : (s.updAlc g).fns = s.fns := rfl
@[simp] theorem State.updAlc_admin (g : Alcoves → Alcoves) : (s.updAlc g).admin = s.admin := rfl
@[simp] theorem State.updAlc_fw (g : Alcoves → Alcoves) : (s.updAlc g).fw = s.fw := rfl
@[simp] theorem State.updAlc_store (g : Alcoves → Alcoves) : (s.updAlc g).store = s.store := rfl
@[simp] theorem State.updAlc_spdm (g : Alcoves → Alcoves) : (s.updAlc g).spdm = s.spdm := rfl
@[simp] theorem State.updAlc_gal (g : Alcoves → Alcoves) : (s.updAlc g).gal = s.gal := rfl
@[simp] theorem State.updAlc_hostMem (g : Alcoves → Alcoves) : (s.updAlc g).hostMem = s.hostMem := rfl
@[simp] theorem State.updAlc_hbm (g : Alcoves → Alcoves) : (s.updAlc g).hbm = s.hbm := rfl
@[simp] theorem State.updAlc_lands (g : Alcoves → Alcoves) : (s.updAlc g).lands = s.lands := rfl
@[simp] theorem State.updAlc_flt (g : Alcoves → Alcoves) : (s.updAlc g).flt = s.flt := rfl
@[simp] theorem State.updAlc_arcades (g : Alcoves → Alcoves) : (s.updAlc g).arcades = s.arcades := rfl
@[simp] theorem State.updAlc_cnt (g : Alcoves → Alcoves) : (s.updAlc g).cnt = s.cnt := rfl
@[simp] theorem State.updAlc_parts (g : Alcoves → Alcoves) : (s.updAlc g).parts = s.parts := rfl
@[simp] theorem State.updAlc_tenants (g : Alcoves → Alcoves) : (s.updAlc g).tenants = s.tenants := rfl
@[simp] theorem State.updAlc_binds (g : Alcoves → Alcoves) : (s.updAlc g).binds = s.binds := rfl
@[simp] theorem State.updAlc_sessions (g : Alcoves → Alcoves) : (s.updAlc g).sessions = s.sessions := rfl
@[simp] theorem State.updAlc_syncs (g : Alcoves → Alcoves) : (s.updAlc g).syncs = s.syncs := rfl
@[simp] theorem State.updAlc_reqs (g : Alcoves → Alcoves) : (s.updAlc g).reqs = s.reqs := rfl
@[simp] theorem State.updAlc_nextOrder (g : Alcoves → Alcoves) : (s.updAlc g).nextOrder = s.nextOrder := rfl
@[simp] theorem State.updAlc_objs (g : Alcoves → Alcoves) : (s.updAlc g).objs = s.objs := rfl
@[simp] theorem State.updAlc_units (g : Alcoves → Alcoves) : (s.updAlc g).units = s.units := rfl
@[simp] theorem State.updAlc_fresh (g : Alcoves → Alcoves) : (s.updAlc g).fresh = s.fresh := rfl
@[simp] theorem State.updAlc_out (g : Alcoves → Alcoves) : (s.updAlc g).out = s.out := rfl
@[simp] theorem State.updAlc_pending (g : Alcoves → Alcoves) : (s.updAlc g).pending = s.pending := rfl

/-! `State.setAlcSet` changes `alc` alone. -/
@[simp] theorem State.setAlcSet_member (k : Nat) (x : AlcSet) : (s.setAlcSet k x).member = s.member := rfl
@[simp] theorem State.setAlcSet_fuses (k : Nat) (x : AlcSet) : (s.setAlcSet k x).fuses = s.fuses := rfl
@[simp] theorem State.setAlcSet_ownerPort (k : Nat) (x : AlcSet) : (s.setAlcSet k x).ownerPort = s.ownerPort := rfl
@[simp] theorem State.setAlcSet_bifurc (k : Nat) (x : AlcSet) : (s.setAlcSet k x).bifurc = s.bifurc := rfl
@[simp] theorem State.setAlcSet_regs (k : Nat) (x : AlcSet) : (s.setAlcSet k x).regs = s.regs := rfl
@[simp] theorem State.setAlcSet_staged (k : Nat) (x : AlcSet) : (s.setAlcSet k x).staged = s.staged := rfl
@[simp] theorem State.setAlcSet_newel (k : Nat) (x : AlcSet) : (s.setAlcSet k x).newel = s.newel := rfl
@[simp] theorem State.setAlcSet_power (k : Nat) (x : AlcSet) : (s.setAlcSet k x).power = s.power := rfl
@[simp] theorem State.setAlcSet_rst (k : Nat) (x : AlcSet) : (s.setAlcSet k x).rst = s.rst := rfl
@[simp] theorem State.setAlcSet_ports (k : Nat) (x : AlcSet) : (s.setAlcSet k x).ports = s.ports := rfl
@[simp] theorem State.setAlcSet_fns (k : Nat) (x : AlcSet) : (s.setAlcSet k x).fns = s.fns := rfl
@[simp] theorem State.setAlcSet_admin (k : Nat) (x : AlcSet) : (s.setAlcSet k x).admin = s.admin := rfl
@[simp] theorem State.setAlcSet_fw (k : Nat) (x : AlcSet) : (s.setAlcSet k x).fw = s.fw := rfl
@[simp] theorem State.setAlcSet_store (k : Nat) (x : AlcSet) : (s.setAlcSet k x).store = s.store := rfl
@[simp] theorem State.setAlcSet_spdm (k : Nat) (x : AlcSet) : (s.setAlcSet k x).spdm = s.spdm := rfl
@[simp] theorem State.setAlcSet_gal (k : Nat) (x : AlcSet) : (s.setAlcSet k x).gal = s.gal := rfl
@[simp] theorem State.setAlcSet_hostMem (k : Nat) (x : AlcSet) : (s.setAlcSet k x).hostMem = s.hostMem := rfl
@[simp] theorem State.setAlcSet_hbm (k : Nat) (x : AlcSet) : (s.setAlcSet k x).hbm = s.hbm := rfl
@[simp] theorem State.setAlcSet_lands (k : Nat) (x : AlcSet) : (s.setAlcSet k x).lands = s.lands := rfl
@[simp] theorem State.setAlcSet_flt (k : Nat) (x : AlcSet) : (s.setAlcSet k x).flt = s.flt := rfl
@[simp] theorem State.setAlcSet_arcades (k : Nat) (x : AlcSet) : (s.setAlcSet k x).arcades = s.arcades := rfl
@[simp] theorem State.setAlcSet_cnt (k : Nat) (x : AlcSet) : (s.setAlcSet k x).cnt = s.cnt := rfl
@[simp] theorem State.setAlcSet_parts (k : Nat) (x : AlcSet) : (s.setAlcSet k x).parts = s.parts := rfl
@[simp] theorem State.setAlcSet_tenants (k : Nat) (x : AlcSet) : (s.setAlcSet k x).tenants = s.tenants := rfl
@[simp] theorem State.setAlcSet_binds (k : Nat) (x : AlcSet) : (s.setAlcSet k x).binds = s.binds := rfl
@[simp] theorem State.setAlcSet_sessions (k : Nat) (x : AlcSet) : (s.setAlcSet k x).sessions = s.sessions := rfl
@[simp] theorem State.setAlcSet_syncs (k : Nat) (x : AlcSet) : (s.setAlcSet k x).syncs = s.syncs := rfl
@[simp] theorem State.setAlcSet_reqs (k : Nat) (x : AlcSet) : (s.setAlcSet k x).reqs = s.reqs := rfl
@[simp] theorem State.setAlcSet_nextOrder (k : Nat) (x : AlcSet) : (s.setAlcSet k x).nextOrder = s.nextOrder := rfl
@[simp] theorem State.setAlcSet_objs (k : Nat) (x : AlcSet) : (s.setAlcSet k x).objs = s.objs := rfl
@[simp] theorem State.setAlcSet_units (k : Nat) (x : AlcSet) : (s.setAlcSet k x).units = s.units := rfl
@[simp] theorem State.setAlcSet_fresh (k : Nat) (x : AlcSet) : (s.setAlcSet k x).fresh = s.fresh := rfl
@[simp] theorem State.setAlcSet_out (k : Nat) (x : AlcSet) : (s.setAlcSet k x).out = s.out := rfl
@[simp] theorem State.setAlcSet_pending (k : Nat) (x : AlcSet) : (s.setAlcSet k x).pending = s.pending := rfl

/-! `State.setPinMem` changes `alc` alone. -/
@[simp] theorem State.setPinMem_member (a : Nat) (m : Memory) : (s.setPinMem a m).member = s.member := rfl
@[simp] theorem State.setPinMem_fuses (a : Nat) (m : Memory) : (s.setPinMem a m).fuses = s.fuses := rfl
@[simp] theorem State.setPinMem_ownerPort (a : Nat) (m : Memory) : (s.setPinMem a m).ownerPort = s.ownerPort := rfl
@[simp] theorem State.setPinMem_bifurc (a : Nat) (m : Memory) : (s.setPinMem a m).bifurc = s.bifurc := rfl
@[simp] theorem State.setPinMem_regs (a : Nat) (m : Memory) : (s.setPinMem a m).regs = s.regs := rfl
@[simp] theorem State.setPinMem_staged (a : Nat) (m : Memory) : (s.setPinMem a m).staged = s.staged := rfl
@[simp] theorem State.setPinMem_newel (a : Nat) (m : Memory) : (s.setPinMem a m).newel = s.newel := rfl
@[simp] theorem State.setPinMem_power (a : Nat) (m : Memory) : (s.setPinMem a m).power = s.power := rfl
@[simp] theorem State.setPinMem_rst (a : Nat) (m : Memory) : (s.setPinMem a m).rst = s.rst := rfl
@[simp] theorem State.setPinMem_ports (a : Nat) (m : Memory) : (s.setPinMem a m).ports = s.ports := rfl
@[simp] theorem State.setPinMem_fns (a : Nat) (m : Memory) : (s.setPinMem a m).fns = s.fns := rfl
@[simp] theorem State.setPinMem_admin (a : Nat) (m : Memory) : (s.setPinMem a m).admin = s.admin := rfl
@[simp] theorem State.setPinMem_fw (a : Nat) (m : Memory) : (s.setPinMem a m).fw = s.fw := rfl
@[simp] theorem State.setPinMem_store (a : Nat) (m : Memory) : (s.setPinMem a m).store = s.store := rfl
@[simp] theorem State.setPinMem_spdm (a : Nat) (m : Memory) : (s.setPinMem a m).spdm = s.spdm := rfl
@[simp] theorem State.setPinMem_gal (a : Nat) (m : Memory) : (s.setPinMem a m).gal = s.gal := rfl
@[simp] theorem State.setPinMem_hostMem (a : Nat) (m : Memory) : (s.setPinMem a m).hostMem = s.hostMem := rfl
@[simp] theorem State.setPinMem_hbm (a : Nat) (m : Memory) : (s.setPinMem a m).hbm = s.hbm := rfl
@[simp] theorem State.setPinMem_lands (a : Nat) (m : Memory) : (s.setPinMem a m).lands = s.lands := rfl
@[simp] theorem State.setPinMem_flt (a : Nat) (m : Memory) : (s.setPinMem a m).flt = s.flt := rfl
@[simp] theorem State.setPinMem_arcades (a : Nat) (m : Memory) : (s.setPinMem a m).arcades = s.arcades := rfl
@[simp] theorem State.setPinMem_cnt (a : Nat) (m : Memory) : (s.setPinMem a m).cnt = s.cnt := rfl
@[simp] theorem State.setPinMem_parts (a : Nat) (m : Memory) : (s.setPinMem a m).parts = s.parts := rfl
@[simp] theorem State.setPinMem_tenants (a : Nat) (m : Memory) : (s.setPinMem a m).tenants = s.tenants := rfl
@[simp] theorem State.setPinMem_binds (a : Nat) (m : Memory) : (s.setPinMem a m).binds = s.binds := rfl
@[simp] theorem State.setPinMem_sessions (a : Nat) (m : Memory) : (s.setPinMem a m).sessions = s.sessions := rfl
@[simp] theorem State.setPinMem_syncs (a : Nat) (m : Memory) : (s.setPinMem a m).syncs = s.syncs := rfl
@[simp] theorem State.setPinMem_reqs (a : Nat) (m : Memory) : (s.setPinMem a m).reqs = s.reqs := rfl
@[simp] theorem State.setPinMem_nextOrder (a : Nat) (m : Memory) : (s.setPinMem a m).nextOrder = s.nextOrder := rfl
@[simp] theorem State.setPinMem_objs (a : Nat) (m : Memory) : (s.setPinMem a m).objs = s.objs := rfl
@[simp] theorem State.setPinMem_units (a : Nat) (m : Memory) : (s.setPinMem a m).units = s.units := rfl
@[simp] theorem State.setPinMem_fresh (a : Nat) (m : Memory) : (s.setPinMem a m).fresh = s.fresh := rfl
@[simp] theorem State.setPinMem_out (a : Nat) (m : Memory) : (s.setPinMem a m).out = s.out := rfl
@[simp] theorem State.setPinMem_pending (a : Nat) (m : Memory) : (s.setPinMem a m).pending = s.pending := rfl

/-! `State.alcDrop` changes `alc` alone. -/
@[simp] theorem State.alcDrop_member (l : Nat) : (s.alcDrop l).member = s.member := rfl
@[simp] theorem State.alcDrop_fuses (l : Nat) : (s.alcDrop l).fuses = s.fuses := rfl
@[simp] theorem State.alcDrop_ownerPort (l : Nat) : (s.alcDrop l).ownerPort = s.ownerPort := rfl
@[simp] theorem State.alcDrop_bifurc (l : Nat) : (s.alcDrop l).bifurc = s.bifurc := rfl
@[simp] theorem State.alcDrop_regs (l : Nat) : (s.alcDrop l).regs = s.regs := rfl
@[simp] theorem State.alcDrop_staged (l : Nat) : (s.alcDrop l).staged = s.staged := rfl
@[simp] theorem State.alcDrop_newel (l : Nat) : (s.alcDrop l).newel = s.newel := rfl
@[simp] theorem State.alcDrop_power (l : Nat) : (s.alcDrop l).power = s.power := rfl
@[simp] theorem State.alcDrop_rst (l : Nat) : (s.alcDrop l).rst = s.rst := rfl
@[simp] theorem State.alcDrop_ports (l : Nat) : (s.alcDrop l).ports = s.ports := rfl
@[simp] theorem State.alcDrop_fns (l : Nat) : (s.alcDrop l).fns = s.fns := rfl
@[simp] theorem State.alcDrop_admin (l : Nat) : (s.alcDrop l).admin = s.admin := rfl
@[simp] theorem State.alcDrop_fw (l : Nat) : (s.alcDrop l).fw = s.fw := rfl
@[simp] theorem State.alcDrop_store (l : Nat) : (s.alcDrop l).store = s.store := rfl
@[simp] theorem State.alcDrop_spdm (l : Nat) : (s.alcDrop l).spdm = s.spdm := rfl
@[simp] theorem State.alcDrop_gal (l : Nat) : (s.alcDrop l).gal = s.gal := rfl
@[simp] theorem State.alcDrop_hostMem (l : Nat) : (s.alcDrop l).hostMem = s.hostMem := rfl
@[simp] theorem State.alcDrop_hbm (l : Nat) : (s.alcDrop l).hbm = s.hbm := rfl
@[simp] theorem State.alcDrop_lands (l : Nat) : (s.alcDrop l).lands = s.lands := rfl
@[simp] theorem State.alcDrop_flt (l : Nat) : (s.alcDrop l).flt = s.flt := rfl
@[simp] theorem State.alcDrop_arcades (l : Nat) : (s.alcDrop l).arcades = s.arcades := rfl
@[simp] theorem State.alcDrop_cnt (l : Nat) : (s.alcDrop l).cnt = s.cnt := rfl
@[simp] theorem State.alcDrop_parts (l : Nat) : (s.alcDrop l).parts = s.parts := rfl
@[simp] theorem State.alcDrop_tenants (l : Nat) : (s.alcDrop l).tenants = s.tenants := rfl
@[simp] theorem State.alcDrop_binds (l : Nat) : (s.alcDrop l).binds = s.binds := rfl
@[simp] theorem State.alcDrop_sessions (l : Nat) : (s.alcDrop l).sessions = s.sessions := rfl
@[simp] theorem State.alcDrop_syncs (l : Nat) : (s.alcDrop l).syncs = s.syncs := rfl
@[simp] theorem State.alcDrop_reqs (l : Nat) : (s.alcDrop l).reqs = s.reqs := rfl
@[simp] theorem State.alcDrop_nextOrder (l : Nat) : (s.alcDrop l).nextOrder = s.nextOrder := rfl
@[simp] theorem State.alcDrop_objs (l : Nat) : (s.alcDrop l).objs = s.objs := rfl
@[simp] theorem State.alcDrop_units (l : Nat) : (s.alcDrop l).units = s.units := rfl
@[simp] theorem State.alcDrop_fresh (l : Nat) : (s.alcDrop l).fresh = s.fresh := rfl
@[simp] theorem State.alcDrop_out (l : Nat) : (s.alcDrop l).out = s.out := rfl
@[simp] theorem State.alcDrop_pending (l : Nat) : (s.alcDrop l).pending = s.pending := rfl

/-! `State.regionReload` changes `alc` alone. -/
@[simp] theorem State.regionReload_member (i : Nat) : (s.regionReload i).member = s.member := by unfold State.regionReload; simp only []; split <;> rfl
@[simp] theorem State.regionReload_fuses (i : Nat) : (s.regionReload i).fuses = s.fuses := by unfold State.regionReload; simp only []; split <;> rfl
@[simp] theorem State.regionReload_ownerPort (i : Nat) : (s.regionReload i).ownerPort = s.ownerPort := by unfold State.regionReload; simp only []; split <;> rfl
@[simp] theorem State.regionReload_bifurc (i : Nat) : (s.regionReload i).bifurc = s.bifurc := by unfold State.regionReload; simp only []; split <;> rfl
@[simp] theorem State.regionReload_regs (i : Nat) : (s.regionReload i).regs = s.regs := by unfold State.regionReload; simp only []; split <;> rfl
@[simp] theorem State.regionReload_staged (i : Nat) : (s.regionReload i).staged = s.staged := by unfold State.regionReload; simp only []; split <;> rfl
@[simp] theorem State.regionReload_newel (i : Nat) : (s.regionReload i).newel = s.newel := by unfold State.regionReload; simp only []; split <;> rfl
@[simp] theorem State.regionReload_power (i : Nat) : (s.regionReload i).power = s.power := by unfold State.regionReload; simp only []; split <;> rfl
@[simp] theorem State.regionReload_rst (i : Nat) : (s.regionReload i).rst = s.rst := by unfold State.regionReload; simp only []; split <;> rfl
@[simp] theorem State.regionReload_ports (i : Nat) : (s.regionReload i).ports = s.ports := by unfold State.regionReload; simp only []; split <;> rfl
@[simp] theorem State.regionReload_fns (i : Nat) : (s.regionReload i).fns = s.fns := by unfold State.regionReload; simp only []; split <;> rfl
@[simp] theorem State.regionReload_admin (i : Nat) : (s.regionReload i).admin = s.admin := by unfold State.regionReload; simp only []; split <;> rfl
@[simp] theorem State.regionReload_fw (i : Nat) : (s.regionReload i).fw = s.fw := by unfold State.regionReload; simp only []; split <;> rfl
@[simp] theorem State.regionReload_store (i : Nat) : (s.regionReload i).store = s.store := by unfold State.regionReload; simp only []; split <;> rfl
@[simp] theorem State.regionReload_spdm (i : Nat) : (s.regionReload i).spdm = s.spdm := by unfold State.regionReload; simp only []; split <;> rfl
@[simp] theorem State.regionReload_gal (i : Nat) : (s.regionReload i).gal = s.gal := by unfold State.regionReload; simp only []; split <;> rfl
@[simp] theorem State.regionReload_hostMem (i : Nat) : (s.regionReload i).hostMem = s.hostMem := by unfold State.regionReload; simp only []; split <;> rfl
@[simp] theorem State.regionReload_hbm (i : Nat) : (s.regionReload i).hbm = s.hbm := by unfold State.regionReload; simp only []; split <;> rfl
@[simp] theorem State.regionReload_lands (i : Nat) : (s.regionReload i).lands = s.lands := by unfold State.regionReload; simp only []; split <;> rfl
@[simp] theorem State.regionReload_flt (i : Nat) : (s.regionReload i).flt = s.flt := by unfold State.regionReload; simp only []; split <;> rfl
@[simp] theorem State.regionReload_arcades (i : Nat) : (s.regionReload i).arcades = s.arcades := by unfold State.regionReload; simp only []; split <;> rfl
@[simp] theorem State.regionReload_cnt (i : Nat) : (s.regionReload i).cnt = s.cnt := by unfold State.regionReload; simp only []; split <;> rfl
@[simp] theorem State.regionReload_parts (i : Nat) : (s.regionReload i).parts = s.parts := by unfold State.regionReload; simp only []; split <;> rfl
@[simp] theorem State.regionReload_tenants (i : Nat) : (s.regionReload i).tenants = s.tenants := by unfold State.regionReload; simp only []; split <;> rfl
@[simp] theorem State.regionReload_binds (i : Nat) : (s.regionReload i).binds = s.binds := by unfold State.regionReload; simp only []; split <;> rfl
@[simp] theorem State.regionReload_sessions (i : Nat) : (s.regionReload i).sessions = s.sessions := by unfold State.regionReload; simp only []; split <;> rfl
@[simp] theorem State.regionReload_syncs (i : Nat) : (s.regionReload i).syncs = s.syncs := by unfold State.regionReload; simp only []; split <;> rfl
@[simp] theorem State.regionReload_reqs (i : Nat) : (s.regionReload i).reqs = s.reqs := by unfold State.regionReload; simp only []; split <;> rfl
@[simp] theorem State.regionReload_nextOrder (i : Nat) : (s.regionReload i).nextOrder = s.nextOrder := by unfold State.regionReload; simp only []; split <;> rfl
@[simp] theorem State.regionReload_objs (i : Nat) : (s.regionReload i).objs = s.objs := by unfold State.regionReload; simp only []; split <;> rfl
@[simp] theorem State.regionReload_units (i : Nat) : (s.regionReload i).units = s.units := by unfold State.regionReload; simp only []; split <;> rfl
@[simp] theorem State.regionReload_fresh (i : Nat) : (s.regionReload i).fresh = s.fresh := by unfold State.regionReload; simp only []; split <;> rfl
@[simp] theorem State.regionReload_out (i : Nat) : (s.regionReload i).out = s.out := by unfold State.regionReload; simp only []; split <;> rfl
@[simp] theorem State.regionReload_pending (i : Nat) : (s.regionReload i).pending = s.pending := by unfold State.regionReload; simp only []; split <;> rfl

/-! `State.devWrite` changes `hbm` and `alc` alone. -/
/-- A T2 write writes the bytes that lie in HBM, and changes beside them the Alcove caches alone (R95, R96). -/
theorem State.devWrite_eq (a : Nat) (d : Blob) :
    ∃ x, s.devWrite a d = { s with hbm := Memory.writeN s.hbm a (d.take (s.member.hbmBytes - a)), alc := x } := by
  have h : ∀ (l : List Nat) (q : State), ∃ x, l.foldl (fun s i => s.alcDrop ((a / 128 + i) * 128)) q = { q with alc := x } := by
    intro l
    induction l with
    | nil => intro q; exact ⟨q.alc, rfl⟩
    | cons i l ih => intro q; obtain ⟨x, hx⟩ := ih (q.alcDrop ((a / 128 + i) * 128)); exact ⟨x, hx⟩
  unfold State.devWrite
  simp only []
  split
  · exact ⟨s.alc, rfl⟩
  · exact h _ _

@[simp] theorem State.devWrite_member (a : Nat) (d : Blob) : (s.devWrite a d).member = s.member := by obtain ⟨x, h⟩ := State.devWrite_eq s a d; rw [h]
@[simp] theorem State.devWrite_fuses (a : Nat) (d : Blob) : (s.devWrite a d).fuses = s.fuses := by obtain ⟨x, h⟩ := State.devWrite_eq s a d; rw [h]
@[simp] theorem State.devWrite_ownerPort (a : Nat) (d : Blob) : (s.devWrite a d).ownerPort = s.ownerPort := by obtain ⟨x, h⟩ := State.devWrite_eq s a d; rw [h]
@[simp] theorem State.devWrite_bifurc (a : Nat) (d : Blob) : (s.devWrite a d).bifurc = s.bifurc := by obtain ⟨x, h⟩ := State.devWrite_eq s a d; rw [h]
@[simp] theorem State.devWrite_regs (a : Nat) (d : Blob) : (s.devWrite a d).regs = s.regs := by obtain ⟨x, h⟩ := State.devWrite_eq s a d; rw [h]
@[simp] theorem State.devWrite_staged (a : Nat) (d : Blob) : (s.devWrite a d).staged = s.staged := by obtain ⟨x, h⟩ := State.devWrite_eq s a d; rw [h]
@[simp] theorem State.devWrite_newel (a : Nat) (d : Blob) : (s.devWrite a d).newel = s.newel := by obtain ⟨x, h⟩ := State.devWrite_eq s a d; rw [h]
@[simp] theorem State.devWrite_power (a : Nat) (d : Blob) : (s.devWrite a d).power = s.power := by obtain ⟨x, h⟩ := State.devWrite_eq s a d; rw [h]
@[simp] theorem State.devWrite_rst (a : Nat) (d : Blob) : (s.devWrite a d).rst = s.rst := by obtain ⟨x, h⟩ := State.devWrite_eq s a d; rw [h]
@[simp] theorem State.devWrite_ports (a : Nat) (d : Blob) : (s.devWrite a d).ports = s.ports := by obtain ⟨x, h⟩ := State.devWrite_eq s a d; rw [h]
@[simp] theorem State.devWrite_fns (a : Nat) (d : Blob) : (s.devWrite a d).fns = s.fns := by obtain ⟨x, h⟩ := State.devWrite_eq s a d; rw [h]
@[simp] theorem State.devWrite_admin (a : Nat) (d : Blob) : (s.devWrite a d).admin = s.admin := by obtain ⟨x, h⟩ := State.devWrite_eq s a d; rw [h]
@[simp] theorem State.devWrite_fw (a : Nat) (d : Blob) : (s.devWrite a d).fw = s.fw := by obtain ⟨x, h⟩ := State.devWrite_eq s a d; rw [h]
@[simp] theorem State.devWrite_store (a : Nat) (d : Blob) : (s.devWrite a d).store = s.store := by obtain ⟨x, h⟩ := State.devWrite_eq s a d; rw [h]
@[simp] theorem State.devWrite_spdm (a : Nat) (d : Blob) : (s.devWrite a d).spdm = s.spdm := by obtain ⟨x, h⟩ := State.devWrite_eq s a d; rw [h]
@[simp] theorem State.devWrite_gal (a : Nat) (d : Blob) : (s.devWrite a d).gal = s.gal := by obtain ⟨x, h⟩ := State.devWrite_eq s a d; rw [h]
@[simp] theorem State.devWrite_hostMem (a : Nat) (d : Blob) : (s.devWrite a d).hostMem = s.hostMem := by obtain ⟨x, h⟩ := State.devWrite_eq s a d; rw [h]
@[simp] theorem State.devWrite_lands (a : Nat) (d : Blob) : (s.devWrite a d).lands = s.lands := by obtain ⟨x, h⟩ := State.devWrite_eq s a d; rw [h]
@[simp] theorem State.devWrite_flt (a : Nat) (d : Blob) : (s.devWrite a d).flt = s.flt := by obtain ⟨x, h⟩ := State.devWrite_eq s a d; rw [h]
@[simp] theorem State.devWrite_arcades (a : Nat) (d : Blob) : (s.devWrite a d).arcades = s.arcades := by obtain ⟨x, h⟩ := State.devWrite_eq s a d; rw [h]
@[simp] theorem State.devWrite_cnt (a : Nat) (d : Blob) : (s.devWrite a d).cnt = s.cnt := by obtain ⟨x, h⟩ := State.devWrite_eq s a d; rw [h]
@[simp] theorem State.devWrite_parts (a : Nat) (d : Blob) : (s.devWrite a d).parts = s.parts := by obtain ⟨x, h⟩ := State.devWrite_eq s a d; rw [h]
@[simp] theorem State.devWrite_tenants (a : Nat) (d : Blob) : (s.devWrite a d).tenants = s.tenants := by obtain ⟨x, h⟩ := State.devWrite_eq s a d; rw [h]
@[simp] theorem State.devWrite_binds (a : Nat) (d : Blob) : (s.devWrite a d).binds = s.binds := by obtain ⟨x, h⟩ := State.devWrite_eq s a d; rw [h]
@[simp] theorem State.devWrite_sessions (a : Nat) (d : Blob) : (s.devWrite a d).sessions = s.sessions := by obtain ⟨x, h⟩ := State.devWrite_eq s a d; rw [h]
@[simp] theorem State.devWrite_syncs (a : Nat) (d : Blob) : (s.devWrite a d).syncs = s.syncs := by obtain ⟨x, h⟩ := State.devWrite_eq s a d; rw [h]
@[simp] theorem State.devWrite_reqs (a : Nat) (d : Blob) : (s.devWrite a d).reqs = s.reqs := by obtain ⟨x, h⟩ := State.devWrite_eq s a d; rw [h]
@[simp] theorem State.devWrite_nextOrder (a : Nat) (d : Blob) : (s.devWrite a d).nextOrder = s.nextOrder := by obtain ⟨x, h⟩ := State.devWrite_eq s a d; rw [h]
@[simp] theorem State.devWrite_objs (a : Nat) (d : Blob) : (s.devWrite a d).objs = s.objs := by obtain ⟨x, h⟩ := State.devWrite_eq s a d; rw [h]
@[simp] theorem State.devWrite_units (a : Nat) (d : Blob) : (s.devWrite a d).units = s.units := by obtain ⟨x, h⟩ := State.devWrite_eq s a d; rw [h]
@[simp] theorem State.devWrite_fresh (a : Nat) (d : Blob) : (s.devWrite a d).fresh = s.fresh := by obtain ⟨x, h⟩ := State.devWrite_eq s a d; rw [h]
@[simp] theorem State.devWrite_out (a : Nat) (d : Blob) : (s.devWrite a d).out = s.out := by obtain ⟨x, h⟩ := State.devWrite_eq s a d; rw [h]
@[simp] theorem State.devWrite_pending (a : Nat) (d : Blob) : (s.devWrite a d).pending = s.pending := by obtain ⟨x, h⟩ := State.devWrite_eq s a d; rw [h]

/-! `State.arcadeStart` changes `arcades` alone. -/
@[simp] theorem State.arcadeStart_member (k : Nat) : (s.arcadeStart k).member = s.member := rfl
@[simp] theorem State.arcadeStart_fuses (k : Nat) : (s.arcadeStart k).fuses = s.fuses := rfl
@[simp] theorem State.arcadeStart_ownerPort (k : Nat) : (s.arcadeStart k).ownerPort = s.ownerPort := rfl
@[simp] theorem State.arcadeStart_bifurc (k : Nat) : (s.arcadeStart k).bifurc = s.bifurc := rfl
@[simp] theorem State.arcadeStart_regs (k : Nat) : (s.arcadeStart k).regs = s.regs := rfl
@[simp] theorem State.arcadeStart_staged (k : Nat) : (s.arcadeStart k).staged = s.staged := rfl
@[simp] theorem State.arcadeStart_newel (k : Nat) : (s.arcadeStart k).newel = s.newel := rfl
@[simp] theorem State.arcadeStart_power (k : Nat) : (s.arcadeStart k).power = s.power := rfl
@[simp] theorem State.arcadeStart_rst (k : Nat) : (s.arcadeStart k).rst = s.rst := rfl
@[simp] theorem State.arcadeStart_ports (k : Nat) : (s.arcadeStart k).ports = s.ports := rfl
@[simp] theorem State.arcadeStart_fns (k : Nat) : (s.arcadeStart k).fns = s.fns := rfl
@[simp] theorem State.arcadeStart_admin (k : Nat) : (s.arcadeStart k).admin = s.admin := rfl
@[simp] theorem State.arcadeStart_fw (k : Nat) : (s.arcadeStart k).fw = s.fw := rfl
@[simp] theorem State.arcadeStart_store (k : Nat) : (s.arcadeStart k).store = s.store := rfl
@[simp] theorem State.arcadeStart_spdm (k : Nat) : (s.arcadeStart k).spdm = s.spdm := rfl
@[simp] theorem State.arcadeStart_gal (k : Nat) : (s.arcadeStart k).gal = s.gal := rfl
@[simp] theorem State.arcadeStart_hostMem (k : Nat) : (s.arcadeStart k).hostMem = s.hostMem := rfl
@[simp] theorem State.arcadeStart_hbm (k : Nat) : (s.arcadeStart k).hbm = s.hbm := rfl
@[simp] theorem State.arcadeStart_lands (k : Nat) : (s.arcadeStart k).lands = s.lands := rfl
@[simp] theorem State.arcadeStart_flt (k : Nat) : (s.arcadeStart k).flt = s.flt := rfl
@[simp] theorem State.arcadeStart_alc (k : Nat) : (s.arcadeStart k).alc = s.alc := rfl
@[simp] theorem State.arcadeStart_cnt (k : Nat) : (s.arcadeStart k).cnt = s.cnt := rfl
@[simp] theorem State.arcadeStart_parts (k : Nat) : (s.arcadeStart k).parts = s.parts := rfl
@[simp] theorem State.arcadeStart_tenants (k : Nat) : (s.arcadeStart k).tenants = s.tenants := rfl
@[simp] theorem State.arcadeStart_binds (k : Nat) : (s.arcadeStart k).binds = s.binds := rfl
@[simp] theorem State.arcadeStart_sessions (k : Nat) : (s.arcadeStart k).sessions = s.sessions := rfl
@[simp] theorem State.arcadeStart_syncs (k : Nat) : (s.arcadeStart k).syncs = s.syncs := rfl
@[simp] theorem State.arcadeStart_reqs (k : Nat) : (s.arcadeStart k).reqs = s.reqs := rfl
@[simp] theorem State.arcadeStart_nextOrder (k : Nat) : (s.arcadeStart k).nextOrder = s.nextOrder := rfl
@[simp] theorem State.arcadeStart_objs (k : Nat) : (s.arcadeStart k).objs = s.objs := rfl
@[simp] theorem State.arcadeStart_units (k : Nat) : (s.arcadeStart k).units = s.units := rfl
@[simp] theorem State.arcadeStart_fresh (k : Nat) : (s.arcadeStart k).fresh = s.fresh := rfl
@[simp] theorem State.arcadeStart_out (k : Nat) : (s.arcadeStart k).out = s.out := rfl
@[simp] theorem State.arcadeStart_pending (k : Nat) : (s.arcadeStart k).pending = s.pending := rfl

/-! `State.arcadeLeave` changes `arcades` alone. -/
@[simp] theorem State.arcadeLeave_member (k : Nat) : (s.arcadeLeave k).member = s.member := rfl
@[simp] theorem State.arcadeLeave_fuses (k : Nat) : (s.arcadeLeave k).fuses = s.fuses := rfl
@[simp] theorem State.arcadeLeave_ownerPort (k : Nat) : (s.arcadeLeave k).ownerPort = s.ownerPort := rfl
@[simp] theorem State.arcadeLeave_bifurc (k : Nat) : (s.arcadeLeave k).bifurc = s.bifurc := rfl
@[simp] theorem State.arcadeLeave_regs (k : Nat) : (s.arcadeLeave k).regs = s.regs := rfl
@[simp] theorem State.arcadeLeave_staged (k : Nat) : (s.arcadeLeave k).staged = s.staged := rfl
@[simp] theorem State.arcadeLeave_newel (k : Nat) : (s.arcadeLeave k).newel = s.newel := rfl
@[simp] theorem State.arcadeLeave_power (k : Nat) : (s.arcadeLeave k).power = s.power := rfl
@[simp] theorem State.arcadeLeave_rst (k : Nat) : (s.arcadeLeave k).rst = s.rst := rfl
@[simp] theorem State.arcadeLeave_ports (k : Nat) : (s.arcadeLeave k).ports = s.ports := rfl
@[simp] theorem State.arcadeLeave_fns (k : Nat) : (s.arcadeLeave k).fns = s.fns := rfl
@[simp] theorem State.arcadeLeave_admin (k : Nat) : (s.arcadeLeave k).admin = s.admin := rfl
@[simp] theorem State.arcadeLeave_fw (k : Nat) : (s.arcadeLeave k).fw = s.fw := rfl
@[simp] theorem State.arcadeLeave_store (k : Nat) : (s.arcadeLeave k).store = s.store := rfl
@[simp] theorem State.arcadeLeave_spdm (k : Nat) : (s.arcadeLeave k).spdm = s.spdm := rfl
@[simp] theorem State.arcadeLeave_gal (k : Nat) : (s.arcadeLeave k).gal = s.gal := rfl
@[simp] theorem State.arcadeLeave_hostMem (k : Nat) : (s.arcadeLeave k).hostMem = s.hostMem := rfl
@[simp] theorem State.arcadeLeave_hbm (k : Nat) : (s.arcadeLeave k).hbm = s.hbm := rfl
@[simp] theorem State.arcadeLeave_lands (k : Nat) : (s.arcadeLeave k).lands = s.lands := rfl
@[simp] theorem State.arcadeLeave_flt (k : Nat) : (s.arcadeLeave k).flt = s.flt := rfl
@[simp] theorem State.arcadeLeave_alc (k : Nat) : (s.arcadeLeave k).alc = s.alc := rfl
@[simp] theorem State.arcadeLeave_cnt (k : Nat) : (s.arcadeLeave k).cnt = s.cnt := rfl
@[simp] theorem State.arcadeLeave_parts (k : Nat) : (s.arcadeLeave k).parts = s.parts := rfl
@[simp] theorem State.arcadeLeave_tenants (k : Nat) : (s.arcadeLeave k).tenants = s.tenants := rfl
@[simp] theorem State.arcadeLeave_binds (k : Nat) : (s.arcadeLeave k).binds = s.binds := rfl
@[simp] theorem State.arcadeLeave_sessions (k : Nat) : (s.arcadeLeave k).sessions = s.sessions := rfl
@[simp] theorem State.arcadeLeave_syncs (k : Nat) : (s.arcadeLeave k).syncs = s.syncs := rfl
@[simp] theorem State.arcadeLeave_reqs (k : Nat) : (s.arcadeLeave k).reqs = s.reqs := rfl
@[simp] theorem State.arcadeLeave_nextOrder (k : Nat) : (s.arcadeLeave k).nextOrder = s.nextOrder := rfl
@[simp] theorem State.arcadeLeave_objs (k : Nat) : (s.arcadeLeave k).objs = s.objs := rfl
@[simp] theorem State.arcadeLeave_units (k : Nat) : (s.arcadeLeave k).units = s.units := rfl
@[simp] theorem State.arcadeLeave_fresh (k : Nat) : (s.arcadeLeave k).fresh = s.fresh := rfl
@[simp] theorem State.arcadeLeave_out (k : Nat) : (s.arcadeLeave k).out = s.out := rfl
@[simp] theorem State.arcadeLeave_pending (k : Nat) : (s.arcadeLeave k).pending = s.pending := rfl

/-! `State.wakeLand` changes `lands` and `power` alone. -/
@[simp] theorem State.wakeLand_member (l : Nat) : (s.wakeLand l).member = s.member := rfl
@[simp] theorem State.wakeLand_fuses (l : Nat) : (s.wakeLand l).fuses = s.fuses := rfl
@[simp] theorem State.wakeLand_ownerPort (l : Nat) : (s.wakeLand l).ownerPort = s.ownerPort := rfl
@[simp] theorem State.wakeLand_bifurc (l : Nat) : (s.wakeLand l).bifurc = s.bifurc := rfl
@[simp] theorem State.wakeLand_regs (l : Nat) : (s.wakeLand l).regs = s.regs := rfl
@[simp] theorem State.wakeLand_staged (l : Nat) : (s.wakeLand l).staged = s.staged := rfl
@[simp] theorem State.wakeLand_newel (l : Nat) : (s.wakeLand l).newel = s.newel := rfl
@[simp] theorem State.wakeLand_rst (l : Nat) : (s.wakeLand l).rst = s.rst := rfl
@[simp] theorem State.wakeLand_ports (l : Nat) : (s.wakeLand l).ports = s.ports := rfl
@[simp] theorem State.wakeLand_fns (l : Nat) : (s.wakeLand l).fns = s.fns := rfl
@[simp] theorem State.wakeLand_admin (l : Nat) : (s.wakeLand l).admin = s.admin := rfl
@[simp] theorem State.wakeLand_fw (l : Nat) : (s.wakeLand l).fw = s.fw := rfl
@[simp] theorem State.wakeLand_store (l : Nat) : (s.wakeLand l).store = s.store := rfl
@[simp] theorem State.wakeLand_spdm (l : Nat) : (s.wakeLand l).spdm = s.spdm := rfl
@[simp] theorem State.wakeLand_gal (l : Nat) : (s.wakeLand l).gal = s.gal := rfl
@[simp] theorem State.wakeLand_hostMem (l : Nat) : (s.wakeLand l).hostMem = s.hostMem := rfl
@[simp] theorem State.wakeLand_hbm (l : Nat) : (s.wakeLand l).hbm = s.hbm := rfl
@[simp] theorem State.wakeLand_flt (l : Nat) : (s.wakeLand l).flt = s.flt := rfl
@[simp] theorem State.wakeLand_alc (l : Nat) : (s.wakeLand l).alc = s.alc := rfl
@[simp] theorem State.wakeLand_arcades (l : Nat) : (s.wakeLand l).arcades = s.arcades := rfl
@[simp] theorem State.wakeLand_cnt (l : Nat) : (s.wakeLand l).cnt = s.cnt := rfl
@[simp] theorem State.wakeLand_parts (l : Nat) : (s.wakeLand l).parts = s.parts := rfl
@[simp] theorem State.wakeLand_tenants (l : Nat) : (s.wakeLand l).tenants = s.tenants := rfl
@[simp] theorem State.wakeLand_binds (l : Nat) : (s.wakeLand l).binds = s.binds := rfl
@[simp] theorem State.wakeLand_sessions (l : Nat) : (s.wakeLand l).sessions = s.sessions := rfl
@[simp] theorem State.wakeLand_syncs (l : Nat) : (s.wakeLand l).syncs = s.syncs := rfl
@[simp] theorem State.wakeLand_reqs (l : Nat) : (s.wakeLand l).reqs = s.reqs := rfl
@[simp] theorem State.wakeLand_nextOrder (l : Nat) : (s.wakeLand l).nextOrder = s.nextOrder := rfl
@[simp] theorem State.wakeLand_objs (l : Nat) : (s.wakeLand l).objs = s.objs := rfl
@[simp] theorem State.wakeLand_units (l : Nat) : (s.wakeLand l).units = s.units := rfl
@[simp] theorem State.wakeLand_fresh (l : Nat) : (s.wakeLand l).fresh = s.fresh := rfl
@[simp] theorem State.wakeLand_out (l : Nat) : (s.wakeLand l).out = s.out := rfl
@[simp] theorem State.wakeLand_pending (l : Nat) : (s.wakeLand l).pending = s.pending := rfl

/-! `State.adminTake` changes `admin` alone. -/
@[simp] theorem State.adminTake_member : (s.adminTake).member = s.member := rfl
@[simp] theorem State.adminTake_fuses : (s.adminTake).fuses = s.fuses := rfl
@[simp] theorem State.adminTake_ownerPort : (s.adminTake).ownerPort = s.ownerPort := rfl
@[simp] theorem State.adminTake_bifurc : (s.adminTake).bifurc = s.bifurc := rfl
@[simp] theorem State.adminTake_regs : (s.adminTake).regs = s.regs := rfl
@[simp] theorem State.adminTake_staged : (s.adminTake).staged = s.staged := rfl
@[simp] theorem State.adminTake_newel : (s.adminTake).newel = s.newel := rfl
@[simp] theorem State.adminTake_power : (s.adminTake).power = s.power := rfl
@[simp] theorem State.adminTake_rst : (s.adminTake).rst = s.rst := rfl
@[simp] theorem State.adminTake_ports : (s.adminTake).ports = s.ports := rfl
@[simp] theorem State.adminTake_fns : (s.adminTake).fns = s.fns := rfl
@[simp] theorem State.adminTake_fw : (s.adminTake).fw = s.fw := rfl
@[simp] theorem State.adminTake_store : (s.adminTake).store = s.store := rfl
@[simp] theorem State.adminTake_spdm : (s.adminTake).spdm = s.spdm := rfl
@[simp] theorem State.adminTake_gal : (s.adminTake).gal = s.gal := rfl
@[simp] theorem State.adminTake_hostMem : (s.adminTake).hostMem = s.hostMem := rfl
@[simp] theorem State.adminTake_hbm : (s.adminTake).hbm = s.hbm := rfl
@[simp] theorem State.adminTake_lands : (s.adminTake).lands = s.lands := rfl
@[simp] theorem State.adminTake_flt : (s.adminTake).flt = s.flt := rfl
@[simp] theorem State.adminTake_alc : (s.adminTake).alc = s.alc := rfl
@[simp] theorem State.adminTake_arcades : (s.adminTake).arcades = s.arcades := rfl
@[simp] theorem State.adminTake_cnt : (s.adminTake).cnt = s.cnt := rfl
@[simp] theorem State.adminTake_parts : (s.adminTake).parts = s.parts := rfl
@[simp] theorem State.adminTake_tenants : (s.adminTake).tenants = s.tenants := rfl
@[simp] theorem State.adminTake_binds : (s.adminTake).binds = s.binds := rfl
@[simp] theorem State.adminTake_sessions : (s.adminTake).sessions = s.sessions := rfl
@[simp] theorem State.adminTake_syncs : (s.adminTake).syncs = s.syncs := rfl
@[simp] theorem State.adminTake_reqs : (s.adminTake).reqs = s.reqs := rfl
@[simp] theorem State.adminTake_nextOrder : (s.adminTake).nextOrder = s.nextOrder := rfl
@[simp] theorem State.adminTake_objs : (s.adminTake).objs = s.objs := rfl
@[simp] theorem State.adminTake_units : (s.adminTake).units = s.units := rfl
@[simp] theorem State.adminTake_fresh : (s.adminTake).fresh = s.fresh := rfl
@[simp] theorem State.adminTake_out : (s.adminTake).out = s.out := rfl
@[simp] theorem State.adminTake_pending : (s.adminTake).pending = s.pending := rfl

end Sys2Proof.Machine
end

