-- ==== Sys2Proof/Laws/Frame.lean ====
section
/-! SUPPORT. Frames: which areas of State each shared operation can change, and how frames compose. -/

namespace Sys2Proof.Machine

theorem State.same_refl (s : State) (a : Area) : s.same s a := by
  cases a <;> first | exact ⟨rfl, rfl, rfl, rfl⟩ | rfl

theorem State.same_trans {s q r : State} {a : Area} (h : s.same q a) (k : q.same r a) : s.same r a := by
  cases a <;> simp only [State.same] at * <;> first
    | exact ⟨k.1.trans h.1, k.2.1.trans h.2.1, k.2.2.1.trans h.2.2.1, k.2.2.2.trans h.2.2.2⟩
    | exact k.trans h

theorem State.onlyIn_refl (s : State) (ks : List Area) : s.onlyIn s ks := fun a _ => s.same_refl a

theorem State.onlyIn_mono {s q : State} {ks ls : List Area} (h : s.onlyIn q ks) (k : ∀ a ∈ ks, a ∈ ls) : s.onlyIn q ls :=
  fun a ha => h a fun hk => ha (k a hk)

theorem State.onlyIn_trans {s q r : State} {ks : List Area} (h : s.onlyIn q ks) (k : q.onlyIn r ks) : s.onlyIn r ks :=
  fun a ha => State.same_trans (h a ha) (k a ha)

theorem State.onlyIn_ite {s a b : State} {ks : List Area} (c : Prop) [Decidable c] (h : s.onlyIn a ks) (k : s.onlyIn b ks) :
    s.onlyIn (if c then a else b) ks := by
  split <;> assumption

/-- A fold of an operation that keeps a frame keeps it. -/
theorem State.onlyIn_foldl {α : Type} {ks : List Area} (f : State → α → State) (h : ∀ (s : State) (x : α), s.onlyIn (f s x) ks) (xs : List α) (s : State) :
    s.onlyIn (xs.foldl f s) ks := by
  induction xs generalizing s with
  | nil => exact s.onlyIn_refl ks
  | cons x xs ih => exact State.onlyIn_trans (h s x) (ih (f s x))

/-! ## Updates of one area -/

theorem State.advance_frame (s : State) (t : Nat) : s.onlyIn (State.advance t s) [.clock] := by
  intro a h; cases a <;> first | exact absurd (by decide) h | exact ⟨rfl, rfl, rfl, rfl⟩ | rfl

theorem State.setReg_frame (s : State) (o : Nat) (v : Word) : s.onlyIn (s.setReg o v) [.regs] := by
  intro a h; cases a <;> first | exact absurd (by decide) h | exact ⟨rfl, rfl, rfl, rfl⟩ | rfl

theorem State.setRegN_frame (s : State) (o v : Nat) : s.onlyIn (s.setRegN o v) [.regs] := by
  intro a h; cases a <;> first | exact absurd (by decide) h | exact ⟨rfl, rfl, rfl, rfl⟩ | rfl

theorem State.orReg_frame (s : State) (o b : Nat) : s.onlyIn (s.orReg o b) [.regs] := by
  intro a h; cases a <;> first | exact absurd (by decide) h | exact ⟨rfl, rfl, rfl, rfl⟩ | rfl

theorem State.satField_frame (s : State) (o hi lo n : Nat) : s.onlyIn (s.satField o hi lo n) [.regs] := by
  intro a h; cases a <;> first | exact absurd (by decide) h | exact ⟨rfl, rfl, rfl, rfl⟩ | rfl

theorem State.setFn_frame (s : State) (f : Nat) (x : Fn) : s.onlyIn (s.setFn f x) [.fns] := by
  intro a h; cases a <;> first | exact absurd (by decide) h | exact ⟨rfl, rfl, rfl, rfl⟩ | rfl

theorem State.updFn_frame (s : State) (f : Nat) (g : Fn → Fn) : s.onlyIn (s.updFn f g) [.fns] := by
  intro a h; cases a <;> first | exact absurd (by decide) h | exact ⟨rfl, rfl, rfl, rfl⟩ | rfl

theorem State.updPort_frame (s : State) (p : Nat) (g : Port → Port) : s.onlyIn (s.updPort p g) [.ports] := by
  intro a h; cases a <;> first | exact absurd (by decide) h | exact ⟨rfl, rfl, rfl, rfl⟩ | rfl

theorem State.send_frame (s : State) (m : OutMsg) : s.onlyIn (s.send m) [.out] := by
  intro a h; cases a <;> first | exact absurd (by decide) h | exact ⟨rfl, rfl, rfl, rfl⟩ | rfl

theorem State.setRing_frame (s : State) (f n : Nat) (r : Ring) : s.onlyIn (s.setRing f n r) [.fns] := by
  intro a h; cases a <;> first | exact absurd (by decide) h | exact ⟨rfl, rfl, rfl, rfl⟩ | rfl

theorem State.setVec_frame (s : State) (f v : Nat) (x : Vec) : s.onlyIn (s.setVec f v x) [.fns] := by
  intro a h; cases a <;> first | exact absurd (by decide) h | exact ⟨rfl, rfl, rfl, rfl⟩ | rfl

theorem State.setLand_frame (s : State) (l : Nat) (x : Landing) : s.onlyIn (s.setLand l x) [.lands] := by
  intro a h; cases a <;> first | exact absurd (by decide) h | exact ⟨rfl, rfl, rfl, rfl⟩ | rfl

theorem State.updLand_frame (s : State) (l : Nat) (g : Landing → Landing) : s.onlyIn (s.updLand l g) [.lands] := by
  intro a h; cases a <;> first | exact absurd (by decide) h | exact ⟨rfl, rfl, rfl, rfl⟩ | rfl

theorem State.setPhys_frame (s : State) (k : Nat) (x : Phys) : s.onlyIn (s.setPhys k x) [.flt] := by
  intro a h; cases a <;> first | exact absurd (by decide) h | exact ⟨rfl, rfl, rfl, rfl⟩ | rfl

theorem State.updPhys_frame (s : State) (k : Nat) (g : Phys → Phys) : s.onlyIn (s.updPhys k g) [.flt] := by
  intro a h; cases a <;> first | exact absurd (by decide) h | exact ⟨rfl, rfl, rfl, rfl⟩ | rfl

theorem State.updPart_frame (s : State) (p : Nat) (g : Part → Part) : s.onlyIn (s.updPart p g) [.parts] := by
  intro a h; cases a <;> first | exact absurd (by decide) h | exact ⟨rfl, rfl, rfl, rfl⟩ | rfl

theorem State.updProc_frame (s : State) (i : Nat) (g : Proc → Proc) : s.onlyIn (s.updProc i g) [.fw] := by
  intro a h; cases a <;> first | exact absurd (by decide) h | exact ⟨rfl, rfl, rfl, rfl⟩ | rfl

theorem State.setReq_frame (s : State) (k : Nat) (r : Req) : s.onlyIn (s.setReq k r) [.reqs] := by
  intro a h; cases a <;> first | exact absurd (by decide) h | exact ⟨rfl, rfl, rfl, rfl⟩ | rfl

theorem State.updReq_frame (s : State) (k : Nat) (g : Req → Req) : s.onlyIn (s.updReq k g) [.reqs] := by
  intro a h; cases a <;> first | exact absurd (by decide) h | exact ⟨rfl, rfl, rfl, rfl⟩ | rfl

theorem State.updNewel_frame (s : State) (g : Newel → Newel) : s.onlyIn (s.updNewel g) [.clock, .newel] := by
  intro a h; cases a <;> first | exact absurd (by decide) h | exact ⟨rfl, rfl, rfl, rfl⟩ | rfl

theorem State.updPower_frame (s : State) (g : Power → Power) : s.onlyIn (s.updPower g) [.power] := by
  intro a h; cases a <;> first | exact absurd (by decide) h | exact ⟨rfl, rfl, rfl, rfl⟩ | rfl

theorem State.updGal_frame (s : State) (g : Gallery → Gallery) : s.onlyIn (s.updGal g) [.gal] := by
  intro a h; cases a <;> first | exact absurd (by decide) h | exact ⟨rfl, rfl, rfl, rfl⟩ | rfl

theorem State.updGalPort_frame (s : State) (p : Nat) (g : GalPort → GalPort) : s.onlyIn (s.updGalPort p g) [.gal] := by
  intro a h; cases a <;> first | exact absurd (by decide) h | exact ⟨rfl, rfl, rfl, rfl⟩ | rfl

theorem State.updPeer_frame (s : State) (p : Nat) (g : Peer → Peer) : s.onlyIn (s.updPeer p g) [.gal] := by
  intro a h; cases a <;> first | exact absurd (by decide) h | exact ⟨rfl, rfl, rfl, rfl⟩ | rfl

theorem State.updTenant_frame (s : State) (t : Nat) (g : Tenant → Tenant) : s.onlyIn (s.updTenant t g) [.tenants] := by
  intro a h; cases a <;> first | exact absurd (by decide) h | exact ⟨rfl, rfl, rfl, rfl⟩ | rfl

theorem State.updObjs_frame (s : State) (g : Objs → Objs) : s.onlyIn (s.updObjs g) [.objs] := by
  intro a h; cases a <;> first | exact absurd (by decide) h | exact ⟨rfl, rfl, rfl, rfl⟩ | rfl

theorem State.updUnits_frame (s : State) (g : Units → Units) : s.onlyIn (s.updUnits g) [.units] := by
  intro a h; cases a <;> first | exact absurd (by decide) h | exact ⟨rfl, rfl, rfl, rfl⟩ | rfl

theorem State.setSync_frame (s : State) (i : Nat) (x : Sync) : s.onlyIn (s.setSync i x) [.syncs] := by
  intro a h; cases a <;> first | exact absurd (by decide) h | exact ⟨rfl, rfl, rfl, rfl⟩ | rfl

theorem State.setIndex_frame (s : State) (i : Nat) (x : Index) : s.onlyIn (s.setIndex i x) [.objs] := by
  intro a h; cases a <;> first | exact absurd (by decide) h | exact ⟨rfl, rfl, rfl, rfl⟩ | rfl

theorem State.updAlc_frame (s : State) (g : Alcoves → Alcoves) : s.onlyIn (s.updAlc g) [.alc] := by
  intro a h; cases a <;> first | exact absurd (by decide) h | exact ⟨rfl, rfl, rfl, rfl⟩ | rfl

theorem State.setAlcSet_frame (s : State) (k : Nat) (x : AlcSet) : s.onlyIn (s.setAlcSet k x) [.alc] := by
  intro a h; cases a <;> first | exact absurd (by decide) h | exact ⟨rfl, rfl, rfl, rfl⟩ | rfl

theorem State.setPinMem_frame (s : State) (a : Nat) (m : Memory) : s.onlyIn (s.setPinMem a m) [.alc] := by
  intro a h; cases a <;> first | exact absurd (by decide) h | exact ⟨rfl, rfl, rfl, rfl⟩ | rfl

theorem State.alcDrop_frame (s : State) (l : Nat) : s.onlyIn (s.alcDrop l) [.alc] := by
  intro a h; cases a <;> first | exact absurd (by decide) h | exact ⟨rfl, rfl, rfl, rfl⟩ | rfl

theorem State.regionReload_frame (s : State) (i : Nat) : s.onlyIn (s.regionReload i) [.alc] := by
  unfold State.regionReload; simp only []
  split
  · exact s.onlyIn_refl _
  · intro a h; cases a <;> first | exact absurd (by decide) h | exact ⟨rfl, rfl, rfl, rfl⟩ | rfl

theorem State.devWrite_frame (s : State) (a : Nat) (d : Blob) : s.onlyIn (s.devWrite a d) [.hbm, .alc] := by
  obtain ⟨x, hx⟩ := State.devWrite_eq s a d
  rw [hx]
  intro a h; cases a <;> first | exact absurd (by decide) h | exact ⟨rfl, rfl, rfl, rfl⟩ | rfl

theorem State.arcadeStart_frame (s : State) (k : Nat) : s.onlyIn (s.arcadeStart k) [.arcades] := by
  intro a h; cases a <;> first | exact absurd (by decide) h | exact ⟨rfl, rfl, rfl, rfl⟩ | rfl

theorem State.arcadeLeave_frame (s : State) (k : Nat) : s.onlyIn (s.arcadeLeave k) [.arcades] := by
  intro a h; cases a <;> first | exact absurd (by decide) h | exact ⟨rfl, rfl, rfl, rfl⟩ | rfl

theorem State.wakeLand_frame (s : State) (l : Nat) : s.onlyIn (s.wakeLand l) [.lands, .power] := by
  unfold State.wakeLand; simp only []
  split <;> (intro a h; cases a <;> first | exact absurd (by decide) h | exact ⟨rfl, rfl, rfl, rfl⟩ | rfl)

theorem State.adminTake_frame (s : State) : s.onlyIn (s.adminTake) [.admin] := by
  intro a h; cases a <;> first | exact absurd (by decide) h | exact ⟨rfl, rfl, rfl, rfl⟩ | rfl


theorem State.setFlt_frame (s : State) (x : Faults) : s.onlyIn { s with flt := x } [.flt] := by
  intro a h; cases a <;> first | exact absurd (by decide) h | exact ⟨rfl, rfl, rfl, rfl⟩ | rfl

/-! ## Shared operations -/

theorem State.wakeDormant_frame (s : State) : s.onlyIn s.wakeDormant [.power] := by
  unfold State.wakeDormant
  split
  · intro a h; cases a <;> first | exact absurd (by decide) h | exact ⟨rfl, rfl, rfl, rfl⟩ | rfl
  · exact s.onlyIn_refl _

theorem State.hostWrite_frame (s : State) (f a : Nat) (d : Blob) (x : Bool) : s.onlyIn (s.hostWrite f a d x) [.hostMem, .out] := by
  unfold State.hostWrite
  split
  · exact s.onlyIn_refl _
  · intro a h; cases a <;> first | exact absurd (by decide) h | exact ⟨rfl, rfl, rfl, rfl⟩ | rfl

theorem State.hostWrites_frame (s : State) (f : Nat) (ws : List (Nat × Blob)) : s.onlyIn (s.hostWrites f ws) [.hostMem, .out] :=
  State.onlyIn_foldl (fun (s : State) (w : Nat × Blob) => s.hostWrite f w.1 w.2 true) (fun s w => s.hostWrite_frame f w.1 w.2 true) ws s

theorem State.ringAdvance_frame (s : State) (f n : Nat) : s.onlyIn (s.ringAdvance f n) [.fns, .hostMem, .out] := by
  simp only [State.ringAdvance]
  split
  · exact State.onlyIn_mono (s.setRing_frame f n _) (by decide)
  · exact State.onlyIn_trans (State.onlyIn_mono (s.setRing_frame f n _) (by decide))
      (State.onlyIn_mono (State.hostWrite_frame _ f _ _ _) (by decide))

theorem State.ringPut_frame (s : State) (f n : Nat) (e : Blob) : s.onlyIn (s.ringPut f n e) [.fns, .hostMem, .out] :=
  State.onlyIn_trans (State.onlyIn_mono (s.hostWrite_frame f _ _ _) (by decide)) (State.ringAdvance_frame _ f n)

theorem State.sendVec_frame (s : State) (f v : Nat) : s.onlyIn (s.sendVec f v) [.fns, .out] := by
  simp only [State.sendVec]
  split
  · exact State.onlyIn_mono (s.setVec_frame f v _) (by decide)
  · exact State.onlyIn_trans (State.onlyIn_mono (s.setVec_frame f v _) (by decide)) (State.onlyIn_mono (State.send_frame _ _) (by decide))

theorem State.countEvent_frame (s : State) (f v : Nat) : s.onlyIn (s.countEvent f v) [.fns, .out] := by
  simp only [State.countEvent]
  split
  · exact s.onlyIn_refl _
  · split
    · exact State.onlyIn_trans (State.onlyIn_mono (s.setVec_frame f v _) (by decide)) (State.sendVec_frame _ f v)
    · exact State.onlyIn_mono (s.setVec_frame f v _) (by decide)

theorem State.recTo_frame (s : State) (f : Nat) (r : Rec) (q : Nat) (l : Bool) : s.onlyIn (s.recTo f r q l) [.fns, .hostMem, .out] := by
  simp only [State.recTo]
  split
  · exact s.onlyIn_refl _
  · split
    · exact s.onlyIn_refl _
    · split
      · exact s.onlyIn_refl _
      · split
        · exact State.onlyIn_mono (s.setRing_frame f _ _) (by decide)
        · exact State.onlyIn_trans (State.onlyIn_mono (s.setRing_frame f _ _) (by decide))
            (State.onlyIn_trans (State.ringPut_frame _ f _ _) (State.onlyIn_mono (State.countEvent_frame _ f _) (by decide)))

/-- An error record changes its areas alone, and moves the sequence number by one (R448). -/
theorem State.emit_frame (s : State) (r : Rec) : s.onlyIn (s.emit r) recAreas := by
  have g : ∀ (q : Nat) (l : Bool), s.onlyIn ((s.recTargets r).foldl (fun s f => s.recTo f r q l) s) recAreas := fun q l =>
    State.onlyIn_mono (ks := [.fns, .hostMem, .out])
      (State.onlyIn_foldl (fun (s : State) f => s.recTo f r q l) (fun s f => s.recTo_frame f r q l) (s.recTargets r) s) (by decide)
  simp only [State.emit]
  split
  · split
    · refine State.onlyIn_trans (g s.flt.seq ((s.logDecide r).fst == some true)) ?_
      intro a h; cases a <;> first | exact absurd (by decide) h | exact ⟨rfl, rfl, rfl, rfl⟩ | rfl
    · refine State.onlyIn_trans (g s.flt.seq ((s.logDecide r).fst == some true)) ?_
      intro a h; cases a <;> first | exact absurd (by decide) h | exact ⟨rfl, rfl, rfl, rfl⟩ | rfl
  · refine State.onlyIn_trans (g s.flt.seq ((s.logDecide r).fst == some true)) ?_
    intro a h; cases a <;> first | exact absurd (by decide) h | exact ⟨rfl, rfl, rfl, rfl⟩ | rfl
  · refine State.onlyIn_trans (g s.flt.seq ((s.logDecide r).fst == some true)) ?_
    intro a h; cases a <;> first | exact absurd (by decide) h | exact ⟨rfl, rfl, rfl, rfl⟩ | rfl

theorem State.emit_recorded (s : State) (r : Rec) : s.recorded (s.emit r) := by
  simp only [State.emit, State.recorded]
  split
  · split <;> rfl
  · rfl
  · rfl

theorem State.cntPart_frame (s : State) (p c n : Nat) : s.onlyIn (s.cntPart p c n) [.cnt] := by
  unfold State.cntPart
  split
  · exact s.onlyIn_refl _
  · intro a h; cases a <;> first | exact absurd (by decide) h | exact ⟨rfl, rfl, rfl, rfl⟩ | rfl

theorem State.dropSpec_frame (s : State) (slot : Nat) : s.onlyIn (s.dropSpec slot) [.reqs, .lands, .parts, .cnt] := by
  unfold State.dropSpec
  split
  · exact s.onlyIn_refl _
  · rename_i r _
    have h : ∀ (q : State) (n : Nat), q.onlyIn (if n = 0 then q else q.cntPart r.part 7 n) [.reqs, .lands, .parts, .cnt] := fun q n =>
      State.onlyIn_ite _ (q.onlyIn_refl _) (State.onlyIn_mono (State.cntPart_frame _ _ _ _) (by decide))
    refine State.onlyIn_trans ?_ (h _ _)
    intro a h; cases a <;> first | exact absurd (by decide) h | exact ⟨rfl, rfl, rfl, rfl⟩ | rfl

theorem State.dropTasks_frame (s : State) (slot : Nat) : s.onlyIn (s.dropTasks slot) [.reqs, .lands, .parts, .cnt, .arcades] := by
  refine State.onlyIn_trans (State.onlyIn_mono (s.dropSpec_frame slot) (by decide)) ?_
  intro a h; cases a <;> first | exact absurd (by decide) h | exact ⟨rfl, rfl, rfl, rfl⟩ | rfl

theorem State.freeSlot_frame (s : State) (slot : Nat) : s.onlyIn (s.freeSlot slot) [.reqs, .sessions, .parts, .lands, .cnt, .arcades] := by
  refine State.onlyIn_trans (State.onlyIn_mono (s.dropTasks_frame slot) (by decide)) ?_
  intro a h; cases a <;> first | exact absurd (by decide) h | exact ⟨rfl, rfl, rfl, rfl⟩ | rfl

theorem State.statusBlock_frame (s : State) (slot st : Nat) : s.onlyIn (s.statusBlock slot st) [.reqs, .hostMem, .out] := by
  simp only [State.statusBlock]
  split
  · exact s.onlyIn_refl _
  · split
    · exact s.onlyIn_refl _
    · exact State.onlyIn_trans (State.onlyIn_mono (State.setReq_frame _ _ _) (by decide)) (State.onlyIn_mono (State.hostWrite_frame _ _ _ _ _) (by decide))

theorem State.postCpl_frame (s : State) (r : Req) (c : Cpl) : s.onlyIn (s.postCpl r c) [.fns, .hostMem, .out] := by
  have h := State.onlyIn_trans (s.ringPut_frame r.fn r.cq (c.entry r.tag r.ring (r.passedAt.getD s.now)))
    (State.onlyIn_mono (State.setRing_frame _ r.fn r.cq
      { (s.ringPut r.fn r.cq (c.entry r.tag r.ring (r.passedAt.getD s.now))).ring r.fn r.cq with
        reserved := ((s.ringPut r.fn r.cq (c.entry r.tag r.ring (r.passedAt.getD s.now))).ring r.fn r.cq).reserved - 1 }) (by decide))
  simp only [State.postCpl]
  split
  · exact State.onlyIn_trans h (State.onlyIn_mono (State.countEvent_frame _ _ _) (by decide))
  · exact h

theorem State.putEnd_frame (s : State) (r : Req) (st fl : Nat) : s.onlyIn (s.putEnd r st fl) [.fns, .hostMem, .out] := by
  simp only [State.putEnd]
  split
  · exact s.onlyIn_refl _
  · exact State.onlyIn_trans (State.ringPut_frame _ _ _ _) (State.onlyIn_mono (State.countEvent_frame _ _ _) (by decide))

theorem State.complete_frame (s : State) (slot : Nat) (r : Req) : s.onlyIn (s.complete slot r) [.fns, .hostMem, .out, .reqs] :=
  State.onlyIn_trans (State.onlyIn_mono (s.hostWrites_frame _ _) (by decide))
    (State.onlyIn_trans (State.onlyIn_mono (State.putEnd_frame _ r _ _) (by decide))
      (State.onlyIn_trans (State.onlyIn_mono (State.statusBlock_frame _ slot 3) (by decide)) (State.onlyIn_mono (State.postCpl_frame _ r _) (by decide))))

theorem State.withhold_frame (s : State) (slot : Nat) (r : Req) : s.onlyIn (s.withhold slot r) [.fns, .hostMem, .out, .reqs, .flt, .regs] := by
  unfold State.withhold
  refine State.onlyIn_trans ?_ (State.onlyIn_mono (State.orReg_frame _ _ _) (by decide))
  refine State.onlyIn_trans ?_ (State.onlyIn_mono (State.setFlt_frame _ _) (by decide))
  refine State.onlyIn_trans ?_ (State.onlyIn_mono (State.postCpl_frame _ r _) (by decide))
  refine State.onlyIn_trans ?_ (State.onlyIn_mono (State.statusBlock_frame _ slot 3) (by decide))
  refine State.onlyIn_trans ?_ (State.onlyIn_mono (State.putEnd_frame _ r _ _) (by decide))
  exact State.onlyIn_mono (s.hostWrites_frame r.fn _) (by decide)

theorem State.finish_frame (s : State) (slot : Nat) : s.onlyIn (s.finish slot) (.flt :: .regs :: endAreas) := by
  have hf : ∀ s : State, s.onlyIn (s.freeSlot slot) (.flt :: .regs :: endAreas) := fun s => State.onlyIn_mono (s.freeSlot_frame slot) (by decide)
  simp only [State.finish]
  split
  · exact s.onlyIn_refl _
  · split
    · exact hf s
    · split
      · exact hf s
      · split
        · exact State.onlyIn_mono (State.setReq_frame _ _ _) (by decide)
        · split
          · exact State.onlyIn_trans (State.onlyIn_mono (s.withhold_frame slot _) (by decide)) (hf _)
          · exact State.onlyIn_trans (State.onlyIn_mono (s.complete_frame slot _) (by decide)) (hf _)

/-- A request that is not doubted and has lost no peer changes no fault state by ending. -/
theorem State.finish_sound_frame (s : State) (slot : Nat) (r : Req) (hr : s.req? slot = some r) (hd : r.doubt = 0) (hp : r.peerLost = false) :
    s.onlyIn (s.finish slot) endAreas := by
  have hf : ∀ s : State, s.onlyIn (s.freeSlot slot) endAreas := fun s => State.onlyIn_mono (s.freeSlot_frame slot) (by decide)
  simp only [State.finish, hr, hd, hp]
  split
  · exact hf s
  · split
    · exact hf s
    · split
      · exact State.onlyIn_mono (State.setReq_frame _ _ _) (by decide)
      · split
        · simp_all
        · exact State.onlyIn_trans (State.onlyIn_mono (s.complete_frame slot _) (by decide)) (hf _)

end Sys2Proof.Machine
end

