-- ==== Sys2Proof/Laws/Memory.lean ====
section
/-! SUPPORT. Sparse maps and byte memories: a read after a write, the canonical form, and which operations keep it. -/

namespace Sys2Proof

/-! ## Sparse maps -/

@[simp] theorem SMap.find_put_self {α : Type} (m : SMap α) (k : Nat) (v : α) : SMap.find (SMap.put m k v) k = some v := by
  induction m with
  | nil => simp [SMap.put, SMap.find]
  | cons p m ih =>
    obtain ⟨a, w⟩ := p
    simp only [SMap.put]
    split
    · simp [SMap.find]
    · split
      · simp [SMap.find]
      · rename_i h; simp [SMap.find, Ne.symm h, ih]

theorem SMap.find_put_ne {α : Type} (m : SMap α) (k j : Nat) (v : α) (h : j ≠ k) : SMap.find (SMap.put m k v) j = SMap.find m j := by
  induction m with
  | nil => simp [SMap.put, SMap.find, Ne.symm h]
  | cons p m ih =>
    obtain ⟨a, w⟩ := p
    simp only [SMap.put]
    split
    · simp [SMap.find, Ne.symm h]
    · split
      · rename_i e; subst e; simp [SMap.find, Ne.symm h]
      · simp only [SMap.find, ih]

theorem SMap.find_put {α : Type} (m : SMap α) (k j : Nat) (v : α) : SMap.find (SMap.put m k v) j = if j = k then some v else SMap.find m j := by
  split
  · rename_i h; subst h; exact SMap.find_put_self m j v
  · exact SMap.find_put_ne m k j v ‹_›

@[simp] theorem SMap.at_put_self {α : Type} (m : SMap α) (k : Nat) (v d : α) : SMap.at (SMap.put m k v) k d = v := by
  simp [SMap.at]

theorem SMap.at_put_ne {α : Type} (m : SMap α) (k j : Nat) (v d : α) (h : j ≠ k) : SMap.at (SMap.put m k v) j d = SMap.at m j d := by
  simp [SMap.at, SMap.find_put_ne m k j v h]

theorem SMap.find_del {α : Type} (m : SMap α) (k j : Nat) : SMap.find (SMap.del m k) j = if j = k then none else SMap.find m j := by
  induction m with
  | nil => simp [SMap.del, SMap.find]
  | cons p m ih =>
    obtain ⟨a, w⟩ := p
    simp only [SMap.del]
    split
    · rename_i h; subst h
      rw [ih]; split <;> simp_all [SMap.find, eq_comm]
    · simp only [SMap.find, ih]
      split <;> split <;> simp_all

theorem SMap.find_mapVals {α β : Type} (m : SMap α) (f : Nat → α → β) (k : Nat) : SMap.find (SMap.mapVals m f) k = (SMap.find m k).map (f k) := by
  induction m with
  | nil => rfl
  | cons p m ih =>
    obtain ⟨a, w⟩ := p
    simp only [SMap.mapVals, List.map_cons, SMap.find]
    split
    · rename_i h; subst h; rfl
    · exact ih

theorem SMap.find_upd {α : Type} (m : SMap α) (k j : Nat) (f : α → α) :
    SMap.find (SMap.upd m k f) j = if j = k then (SMap.find m j).map f else SMap.find m j := by
  induction m with
  | nil => simp [SMap.upd, SMap.find]
  | cons p m ih =>
    obtain ⟨a, w⟩ := p
    simp only [SMap.upd, List.map_cons] at ih ⊢
    by_cases h : a = k <;> by_cases g : a = j <;> simp_all [SMap.find]

/-- Putting into a map whose values all pass keeps that. -/
theorem SMap.all_put {α : Type} (p : α → Bool) (m : SMap α) (k : Nat) (v : α) (h : (m.all fun e => p e.2) = true) (hv : p v = true) :
    ((SMap.put m k v).all fun e => p e.2) = true := by
  induction m with
  | nil => simp [SMap.put, hv]
  | cons q m ih =>
    obtain ⟨a, w⟩ := q
    simp only [List.all_cons, Bool.and_eq_true] at h
    simp only [SMap.put]
    split
    · simp [hv, h.1, h.2]
    · split
      · simp [hv, h.2]
      · simp [h.1, ih h.2]

theorem SMap.all_find {α : Type} (p : α → Bool) (m : SMap α) (k : Nat) (v : α) (h : (m.all fun e => p e.2) = true) (hf : SMap.find m k = some v) :
    p v = true := by
  induction m with
  | nil => simp [SMap.find] at hf
  | cons q m ih =>
    obtain ⟨a, w⟩ := q
    simp only [List.all_cons, Bool.and_eq_true] at h
    simp only [SMap.find] at hf
    split at hf
    · simp_all
    · exact ih h.2 hf

/-! ## Byte memories -/

theorem Memory.read_write (m : Memory) (k j : Nat) (b : Byte) (h : Memory.wf m = true) :
    Memory.read (Memory.write m k b) j = if j = k then b else Memory.read m j := by
  have g : ∀ (lo : Nat) (m : Memory), Memory.wfFrom lo m = true → (∀ i, i < lo → Memory.read m i = Memory.blank) := by
    intro lo m
    induction m generalizing lo with
    | nil => intro _ _ _; rfl
    | cons p m ih =>
      obtain ⟨a, c⟩ := p
      intro w i hi
      simp only [Memory.wfFrom, Bool.and_eq_true, decide_eq_true_eq] at w
      simp only [Memory.read]
      rw [if_neg (by omega)]
      exact ih (a + 1) w.2 i (by omega)
  have main : ∀ (m : Memory) (lo : Nat), Memory.wfFrom lo m = true → Memory.read (Memory.write m k b) j = if j = k then b else Memory.read m j := by
    intro m
    induction m with
    | nil =>
      intro lo _
      by_cases hj : j = k
      · by_cases hb : b = Memory.blank <;> simp [Memory.write, Memory.read, hb, hj]
      · by_cases hb : b = Memory.blank <;> simp [Memory.write, Memory.read, hb, hj, Ne.symm hj]
    | cons p m ih =>
      obtain ⟨a, c⟩ := p
      intro lo w
      simp only [Memory.wfFrom, Bool.and_eq_true, decide_eq_true_eq] at w
      have below := g (a + 1) m w.2
      simp only [Memory.write]
      split
      · rename_i hk
        split
        · rename_i hb
          by_cases hj : j = k
          · subst hj; simp only [Memory.read, if_true]; rw [if_neg (by omega), below j (by omega), hb]
          · simp [hj]
        · by_cases hj : j = k
          · subst hj; simp [Memory.read]
          · simp [Memory.read, hj, Ne.symm hj]
      · split
        · rename_i hk; subst hk
          split
          · rename_i hb
            by_cases hj : j = k
            · subst hj; rw [below j (by omega)]; simp [hb]
            · simp [Memory.read, hj, Ne.symm hj]
          · by_cases hj : j = k
            · subst hj; simp [Memory.read]
            · simp [Memory.read, hj, Ne.symm hj]
        · rename_i hk
          simp only [Memory.read, ih (a + 1) w.2]
          by_cases hj : j = k
          · subst hj; rw [if_neg (Ne.symm hk)]; simp
          · simp [hj]
  exact main m 0 h

theorem Memory.wfFrom_mono (m : Memory) (lo hi : Nat) (h : lo ≤ hi) (w : Memory.wfFrom hi m = true) : Memory.wfFrom lo m = true := by
  cases m with
  | nil => rfl
  | cons p m =>
    obtain ⟨a, c⟩ := p
    simp only [Memory.wfFrom, Bool.and_eq_true, decide_eq_true_eq] at *
    exact ⟨⟨by omega, w.1.2⟩, w.2⟩

theorem Memory.wfFrom_write (m : Memory) (lo k : Nat) (b : Byte) (w : Memory.wfFrom lo m = true) (hk : lo ≤ k) :
    Memory.wfFrom lo (Memory.write m k b) = true := by
  induction m generalizing lo with
  | nil =>
    simp only [Memory.write]
    split
    · rfl
    · simp_all [Memory.wfFrom]
  | cons p m ih =>
    obtain ⟨a, c⟩ := p
    simp only [Memory.wfFrom, Bool.and_eq_true, decide_eq_true_eq] at w
    obtain ⟨⟨ha, hc⟩, hm⟩ := w
    simp only [Memory.write]
    split
    · rename_i h
      split
      · simp only [Memory.wfFrom, Bool.and_eq_true, decide_eq_true_eq]; exact ⟨⟨ha, hc⟩, hm⟩
      · rename_i hb
        simp only [Memory.wfFrom, Bool.and_eq_true, decide_eq_true_eq]
        exact ⟨⟨hk, by simpa using hb⟩, ⟨by omega, hc⟩, hm⟩
    · split
      · rename_i h; subst h
        split
        · exact Memory.wfFrom_mono m lo (k + 1) (by omega) hm
        · rename_i hb
          simp only [Memory.wfFrom, Bool.and_eq_true, decide_eq_true_eq]
          exact ⟨⟨hk, by simpa using hb⟩, hm⟩
      · simp only [Memory.wfFrom, Bool.and_eq_true, decide_eq_true_eq]
        exact ⟨⟨ha, hc⟩, ih (a + 1) hm (by omega)⟩

/-- A byte write keeps the canonical form. -/
theorem Memory.wf_write (m : Memory) (k : Nat) (b : Byte) (w : Memory.wf m = true) : Memory.wf (Memory.write m k b) = true :=
  Memory.wfFrom_write m 0 k b w (Nat.zero_le k)

/-- Leaving bytes out keeps the canonical form. -/
theorem Memory.wf_filter (m : Memory) (p : Nat × Byte → Bool) (w : Memory.wf m = true) : Memory.wf (m.filter p) = true := by
  have main : ∀ (m : Memory) (lo : Nat), Memory.wfFrom lo m = true → Memory.wfFrom lo (m.filter p) = true := by
    intro m
    induction m with
    | nil => exact fun _ _ => rfl
    | cons c m ih =>
      intro lo h
      obtain ⟨a, b⟩ := c
      simp only [Memory.wfFrom, Bool.and_eq_true, decide_eq_true_eq] at h
      simp only [List.filter_cons]
      split
      · simp only [Memory.wfFrom, Bool.and_eq_true, decide_eq_true_eq]
        exact ⟨h.1, ih _ h.2⟩
      · exact ih lo (Memory.wfFrom_mono _ lo (a + 1) (by omega) h.2)
  exact main m 0 w

/-- A write of bytes keeps the canonical form. -/
theorem Memory.wf_writeN (m : Memory) (a : Nat) (d : Blob) (w : Memory.wf m = true) : Memory.wf (Memory.writeN m a d) = true := by
  induction d generalizing m a with
  | nil => exact w
  | cons b d ih => exact ih _ _ (Memory.wf_write m a b w)

/-- A byte after a write of bytes: the byte written there, or what was there. -/
theorem Memory.read_writeN (m : Memory) (a j : Nat) (d : Blob) (w : Memory.wf m = true) :
    Memory.read (Memory.writeN m a d) j = if a ≤ j ∧ j < a + d.length then d.getD (j - a) Memory.blank else Memory.read m j := by
  induction d generalizing m a with
  | nil => simp only [Memory.writeN, List.length_nil]; rw [if_neg (by omega)]
  | cons b d ih =>
    simp only [Memory.writeN, List.length_cons]
    rw [ih _ _ (Memory.wf_write m a b w), Memory.read_write m a j b w]
    by_cases h1 : a + 1 ≤ j ∧ j < a + 1 + d.length
    · rw [if_pos h1, if_pos (by omega)]
      have : j - a = (j - (a + 1)) + 1 := by omega
      rw [this]; simp
    · rw [if_neg h1]
      by_cases h2 : j = a
      · subst h2; simp
      · rw [if_neg h2, if_neg (by omega)]

/-- Bytes just written read back. -/
theorem Memory.readN_writeN (m : Memory) (a : Nat) (d : Blob) (w : Memory.wf m = true) : Memory.readN (Memory.writeN m a d) a d.length = d := by
  apply List.ext_getElem
  · simp [Memory.readN]
  · intro i h1 h2
    simp only [Memory.readN, List.getElem_map, List.getElem_range]
    rw [Memory.read_writeN m a (a + i) d w, if_pos (by constructor <;> omega)]
    simp [List.getD_eq_getElem?_getD, h2]

/-- Bytes apart from a write read as before. -/
theorem Memory.readN_writeN_apart (m : Memory) (a b n : Nat) (d : Blob) (w : Memory.wf m = true) (h : b + n ≤ a ∨ a + d.length ≤ b) :
    Memory.readN (Memory.writeN m a d) b n = Memory.readN m b n := by
  simp only [Memory.readN]
  apply List.map_congr_left
  intro i hi
  rw [Memory.read_writeN m a (b + i) d w, if_neg (by have := List.mem_range.mp hi; omega)]

namespace Machine

/-! ## Which operations keep the memories of State in their form -/

theorem State.memWf_hostWrite (s : State) (f a : Nat) (d : Blob) (x : Bool) (h : s.memWf = true) : (s.hostWrite f a d x).memWf = true := by
  simp only [State.memWf, Bool.and_eq_true] at h ⊢
  unfold State.hostWrite
  split
  · exact h
  · refine ⟨h.1, SMap.all_put _ _ _ _ h.2 (Memory.wf_writeN _ _ _ ?_)⟩
    simp only [State.hostMemOf, SMap.at]
    cases e : SMap.find s.hostMem (fnPort f) with
    | none => rfl
    | some m => exact SMap.all_find _ _ _ _ h.2 e

theorem State.memWf_devWrite (s : State) (a : Nat) (d : Blob) (h : s.memWf = true) : (s.devWrite a d).memWf = true := by
  obtain ⟨x, e⟩ := State.devWrite_eq s a d
  simp only [State.memWf, Bool.and_eq_true, e] at h ⊢
  exact ⟨Memory.wf_writeN _ _ _ h.1, h.2⟩

/-- An operation that touches neither host memory nor HBM keeps their form. -/
theorem State.memWf_frame {s q : State} {ks : List Area} (h : s.onlyIn q ks) (h1 : Area.hostMem ∉ ks) (h2 : Area.hbm ∉ ks) : q.memWf = s.memWf := by
  have a : q.hostMem = s.hostMem := h _ h1
  have b : q.hbm = s.hbm := h _ h2
  simp only [State.memWf, a, b]

/-- A copy of a stretch of one memory into another keeps the canonical form of that. -/
theorem Memory.wf_copy (src : Memory) (f n : Nat) (dst : Memory) (to_ : Nat) (w : Memory.wf dst = true) : Memory.wf (Memory.copy src f n dst to_) = true := by
  have keep : ∀ (l : Memory) (m : Memory), Memory.wf m = true → Memory.wf (l.foldl (fun m c => Memory.write m (c.1 - f + to_) c.2) m) = true := by
    intro l
    induction l with
    | nil => exact fun m h => h
    | cons c l ih => exact fun m h => ih _ (Memory.wf_write m _ _ h)
  refine keep _ _ ?_
  exact Memory.wf_filter dst _ w

/-- A write to a landing store keeps its canonical form, and so does the loss of what it holds. -/
theorem Landing.put_wf (y : Landing) (a : Nat) (d : Blob) (f : Fmt) (w : Memory.wf y.store = true) : Memory.wf (y.put a d f).store = true :=
  Memory.wf_writeN _ _ _ w

theorem Landing.loseStore_wf (y : Landing) : Memory.wf y.loseStore.store = true := rfl

/-- A landing's store after a write through `Landing.put`, byte by byte: the bytes written that the store holds, and else what stood there (R32). -/
theorem Landing.read_put (y : Landing) (a j : Nat) (d : Blob) (f : Fmt) (w : Memory.wf y.store = true) :
    Memory.read (y.put a d f).store j
      = if a ≤ j ∧ j < a + (d.take (storeBytes - a)).length then (d.take (storeBytes - a)).getD (j - a) Memory.blank else Memory.read y.store j :=
  Memory.read_writeN _ _ _ _ w

theorem State.storesWf_updLand (s : State) (l : Nat) (g : Landing → Landing) (h : s.storesWf = true)
    (k : ∀ y : Landing, Memory.wf y.store = true → Memory.wf (g y).store = true) : (s.updLand l g).storesWf = true := by
  simp only [State.storesWf, Bool.and_eq_true] at h ⊢
  refine ⟨SMap.all_put (fun y : Landing => Memory.wf y.store) _ _ _ h.1 (k _ ?_), h.2⟩
  simp only [State.land, SMap.at]
  cases e : SMap.find s.lands l with
  | none => rfl
  | some m => exact SMap.all_find (fun y : Landing => Memory.wf y.store) _ _ _ h.1 e

theorem State.storesWf_t0Put (s : State) (l a : Nat) (d : Blob) (f : Fmt) (h : s.storesWf = true) : (s.t0Put l a d f).storesWf = true :=
  s.storesWf_updLand l _ h fun y w => y.put_wf a d f w

theorem State.wf_pinMem (s : State) (a : Nat) (h : s.storesWf = true) : Memory.wf (s.pinMem a) = true := by
  simp only [State.storesWf, Bool.and_eq_true] at h
  simp only [State.pinMem, SMap.at]
  cases e : SMap.find s.alc.pins a with
  | none => rfl
  | some m => exact SMap.all_find Memory.wf _ _ _ h.2 e

theorem State.storesWf_setPinMem (s : State) (a : Nat) (m : Memory) (h : s.storesWf = true) (k : Memory.wf m = true) : (s.setPinMem a m).storesWf = true := by
  simp only [State.storesWf, Bool.and_eq_true] at h ⊢
  exact ⟨h.1, SMap.all_put Memory.wf _ _ _ h.2 k⟩

theorem State.storesWf_regionReload (s : State) (i : Nat) (h : s.storesWf = true) : (s.regionReload i).storesWf = true := by
  unfold State.regionReload
  simp only []
  split
  · exact h
  · exact s.storesWf_setPinMem _ _ h (Memory.wf_copy _ _ _ _ _ (s.wf_pinMem _ h))

end Machine

end Sys2Proof
end

