-- ==== Sys2Proof/Machine/Flit.lean ====
section
/-! DEFINITION. The 256-byte flits of a Gallery link: layout, link check, and the cutting of a message into flits (14 R390 to R392). -/

namespace Sys2Proof.Machine

open Sys2Proof

/-- The kinds of a flit (R390). -/
inductive FlitKind where
  | idle | data | credit | replay
deriving DecidableEq, Repr, Inhabited
def FlitKind.code : FlitKind → Nat
  | .idle => 0 | .data => 1 | .credit => 2 | .replay => 3
def FlitKind.ofCode : Nat → Option FlitKind
  | 0 => some .idle | 1 => some .data | 2 => some .credit | 3 => some .replay | _ => none

/-- The fields of a flit (R390). `crc` is that of the whole message's payload, in the last flit of a message. -/
structure Flit where
  kind     : FlitKind := .data
  vl       : Nat := 0
  first    : Bool := false
  last     : Bool := false
  seq      : Nat := 0
  ack      : Nat := 0
  creditVl : Nat := 0
  credits  : Nat := 0
  src      : Nat := 0
  dst      : Nat := 0
  gen      : Nat := 0
  part     : Nat := 0
  tag      : Nat := 0
  payload  : Blob := []
  crc      : Nat := 0
deriving DecidableEq, Repr, Inhabited

/-- Every field lies in its width (R390). -/
def Flit.ok (f : Flit) : Bool :=
  decide (f.vl < 4) && decide (f.seq < 4096) && decide (f.ack < 4096) && decide (f.creditVl < 4) && decide (f.credits < 256) && decide (f.src < 16) && decide (f.dst < 16)
    && decide (f.gen < 256) && decide (f.part < 16) && decide (f.tag < 2 ^ 32) && decide (f.payload.length ≤ 230) && decide (f.crc < 2 ^ 32)

/-- Bytes 0 to 251. -/
def Flit.body (f : Flit) : Blob :=
  leBytes 1 (f.kind.code + shl f.vl 4 + shl (b2n f.first) 6 + shl (b2n f.last) 7) ++ zeros 1 ++ leBytes 2 f.seq ++ leBytes 2 f.ack ++ leBytes 1 f.creditVl ++ leBytes 1 f.credits
    ++ leBytes 1 (f.src + shl f.dst 4) ++ leBytes 1 f.gen ++ leBytes 1 f.part ++ zeros 1 ++ leBytes 4 f.tag ++ Blob.slice f.payload 0 230 ++ leBytes 2 f.payload.length ++ leBytes 4 f.crc
/-- The 256 bytes of a flit, the link check last. -/
def Flit.bytes (f : Flit) : Blob := f.body ++ leBytes 4 (crc32c f.body).toNat

/-- What a receiver takes of 256 bytes: none where the link check fails, which is not delivered (R391), or where the kind is none of the four. -/
def Flit.read (b : Blob) : Option Flit :=
  if b.length != 256 || Blob.u32 b 252 != (crc32c (b.take 252)).toNat || 230 < Blob.u16 b 246 then none else
  (FlitKind.ofCode (Blob.u8 b 0 % 16)).map fun k =>
    { kind := k, vl := Blob.u8 b 0 / 16 % 4, first := bitN (Blob.u8 b 0) 6, last := bitN (Blob.u8 b 0) 7, seq := Blob.u16 b 2 % 4096, ack := Blob.u16 b 4 % 4096,
      creditVl := Blob.u8 b 6 % 4, credits := Blob.u8 b 7, src := Blob.u8 b 8 % 16, dst := Blob.u8 b 8 / 16, gen := Blob.u8 b 9, part := Blob.u8 b 10 % 16,
      tag := Blob.u32 b 12, payload := (b.drop 16).take (Blob.u16 b 246), crc := Blob.u32 b 248 }

/-- The virtual lane of a message (R392). -/
def GalMsg.lane : GalMsg → Nat
  | .subRequest .. | .t3Read .. | .table .. => 0
  | .t3Data .. | .addAck .. | .stageAck .. | .subStatus .. => 1
  | .pool .. => 2
  | _ => 3

/-- The payloads of a message's flits: 230 bytes each, the last one shorter; a message without payload has one flit. -/
def flitPieces (d : Blob) : List Blob := if d.isEmpty then [[]] else (List.range ((d.length + 229) / 230)).map fun i => (d.drop (230 * i)).take 230

/-- The data flits of a message with a payload (R390, R391): `h` gives the fields that all of them carry and the link sequence number of the first. How a message's fields stand in its payload is not in the
source (log entry 69). -/
def messageFlits (h : Flit) (d : Blob) : List Flit :=
  let ps := flitPieces d
  ((List.range ps.length).zip ps).map fun e =>
    let end_ := e.1 + 1 == ps.length
    { h with kind := .data, first := e.1 == 0, last := end_, seq := (h.seq + e.1) % 4096, payload := e.2, crc := if end_ then (crc32c d).toNat else 0 }

/-- The end-to-end check at the destination (R391): the payloads of the flits of a message against the check in the last one. -/
def messageOk (fs : List Flit) : Bool :=
  match fs.getLast? with
  | some f => f.last && f.crc == (crc32c (fs.flatMap (·.payload))).toNat
  | none => false

/-- The head of the flits of a message to a peer: identities and generation of this module, the lane of the message (R390, R392, R396). -/
def State.flitHead (s : State) (peer part tag seq ack : Nat) (m : GalMsg) : Flit :=
  { vl := m.lane, seq := seq % 4096, ack := ack % 4096, src := s.gal.moduleId % 16, dst := peer % 16, gen := s.gal.ownGen % 256, part := part % 16, tag := tag % 2 ^ 32 }

end Sys2Proof.Machine
end

