-- ==== Sys2Proof/WellFormed.lean ====
section
/-! DEFINITION. Which operands of a command lie in the ranges the spec gives them. The meanings stay total outside them. -/

namespace Sys2Proof

/-- A function ID is 10 bits (R374). -/
def fnOk (f : Nat) : Bool := decide (f < 1024)
/-- A ring number is 6 bits (R342, R346). -/
def ringOk (n : Nat) : Bool := decide (n < 64)
/-- A function has at most 256 vectors (R361). -/
def vecOk (v : Nat) : Bool := decide (v < 256)
/-- A logical landing ID lies from 0 to 383 (R19). -/
def landOk (l : Nat) : Bool := decide (l < 384)
/-- A Wing ID lies from 0 to 47 (R19). -/
def wingOk (w : Nat) : Bool := decide (w < 48)
/-- A Hall die index is 3 bits (R1). -/
def dieOk (h : Nat) : Bool := decide (h < 8)
/-- Physical landing numbers run from 0 to 51 (R18). -/
def physOk (p : Nat) : Bool := decide (p < 52)
/-- FLT_EDGE names 24 edges (R454). -/
def edgeOk (e : Nat) : Bool := decide (e < 24)
/-- Alcove dies A0 to A3 (R1). -/
def alcoveOk (a : Nat) : Bool := decide (a < 4)
/-- MEM_PIN_REGION has 32 entries (R118). -/
def regionOk (r : Nat) : Bool := decide (r < 32)
/-- Partitions, and their pseudo-channel sets, are 0 to 15 (R28, R102). -/
def partOk (p : Nat) : Bool := decide (p < 16)
/-- FW_PROC has 16 entries (R431). -/
def procOk (i : Nat) : Bool := decide (i < 16)
/-- A module ID lies from 0 to 15 (R393). -/
def peerOk (p : Nat) : Bool := decide (p < 16)
/-- The counter schedule has four entries (R511). -/
def schedOk (j : Nat) : Bool := decide (j < 4)
/-- A landing has eight programmable counters (R506). -/
def cntOk (i : Nat) : Bool := decide (i < 8)
/-- Model numbers lie from 0 to 63 (R275). -/
def modelNumOk (n : Nat) : Bool := decide (n < 64)
/-- A Gallery link trains at 8 or 4 lanes (R389). -/
def lanesOk (n : Nat) : Bool := n == 8 || n == 4
/-- Landing and module generations, and reset keys, are 8 bits (R396, R442, R483). -/
def genOk (g : Nat) : Bool := decide (g < 256)
/-- Room IDs are 21 bits (R177). -/
def roomOk (r : Nat) : Bool := decide (r < 2097152)
/-- Index numbers lie from 0 to 7 (R176). -/
def indexOk (i : Nat) : Bool := decide (i < 8)
/-- Host ports HP0 to HP3 (R15). -/
def hostPortOk (p : Nat) : Bool := decide (p < 4)
/-- Gallery ports GP0 to GP11 (R15). -/
def galPortNumOk (p : Nat) : Bool := decide (p < 12)
/-- A register write is of at most 8 bytes. -/
def sizeOk (n : Nat) : Bool := decide (1 ≤ n) && decide (n ≤ 8)
/-- The Doorbell window is 4 KiB (R339). -/
def dbellOffOk (o : Nat) : Bool := decide (o < 4096)
/-- The Control window is 16 MiB (R339). -/
def ctlOffOk (o : Nat) : Bool := decide (o < 16777216)
/-- The Aperture window is 64 GiB (R339). -/
def aptOffOk (o : Nat) : Bool := decide (o < 68719476736)

/-- Operand ranges of a command. -/
def Instr.wellFormed : Instr → Bool
  | .doorbellWrite _ fn off size _ _ => fnOk fn && dbellOffOk off && sizeOk size
  | .descriptorFetchError _ fn ring => fnOk fn && ringOk ring
  | .embed _ fn ring => fnOk fn && ringOk ring
  | .retrieve _ fn ring => fnOk fn && ringOk ring
  | .generate _ fn ring => fnOk fn && ringOk ring
  | .tokenize _ fn ring => fnOk fn && ringOk ring
  | .detokenize _ fn ring => fnOk fn && ringOk ring
  | .indexInsert _ fn ring => fnOk fn && ringOk ring
  | .indexDelete _ fn ring => fnOk fn && ringOk ring
  | .indexSetAttr _ fn ring => fnOk fn && ringOk ring
  | .indexConsolidate _ fn ring => fnOk fn && ringOk ring
  | .indexBuildBegin _ fn ring => fnOk fn && ringOk ring
  | .indexBuildAdd _ fn ring => fnOk fn && ringOk ring
  | .indexBuildFinish _ fn ring => fnOk fn && ringOk ring
  | .indexBuildAbort _ fn ring => fnOk fn && ringOk ring
  | .recallProbe _ fn ring => fnOk fn && ringOk ring
  | .tableGather _ fn ring => fnOk fn && ringOk ring
  | .tableAdd _ fn ring => fnOk fn && ringOk ring
  | .tableWrite _ fn ring => fnOk fn && ringOk ring
  | .tableCreate _ fn ring => fnOk fn && ringOk ring
  | .tableDestroy _ fn ring => fnOk fn && ringOk ring
  | .tableInfo _ fn ring => fnOk fn && ringOk ring
  | .tableStep _ fn ring => fnOk fn && ringOk ring
  | .modelLoad _ fn ring => fnOk fn && ringOk ring
  | .modelUnload _ fn ring => fnOk fn && ringOk ring
  | .indexUnload _ fn ring => fnOk fn && ringOk ring
  | .expertSetUnload _ fn ring => fnOk fn && ringOk ring
  | .steeringSetUnload _ fn ring => fnOk fn && ringOk ring
  | .grammarUnload _ fn ring => fnOk fn && ringOk ring
  | .sessionOpen _ fn ring => fnOk fn && ringOk ring
  | .sessionClose _ fn ring => fnOk fn && ringOk ring
  | .syncAdd _ fn ring => fnOk fn && ringOk ring
  | .syncCreate _ fn ring => fnOk fn && ringOk ring
  | .syncDestroy _ fn ring => fnOk fn && ringOk ring
  | .syncWait _ fn ring => fnOk fn && ringOk ring
  | .cancel _ fn ring => fnOk fn && ringOk ring
  | .cancelComplete _ _ => true
  | .syncAfterRingEffect _ _ => true
  | .sessionCloseComplete _ _ => true
  | .objectRelease _ _ => true
  | .treadBoundary _ => true
  | .deadlineExpiry _ _ => true
  | .syncWaitTimeout _ _ => true
  | .decodeBatchThreshold _ landing shard => landOk landing && modelNumOk shard
  | .taskTake _ landing => landOk landing
  | .taskComplete _ landing _ _ => landOk landing
  | .partialArrival _ landing _ => landOk landing
  | .arcadeStepComplete _ _ => true
  | .checkPassHandover _ _ => true
  | .balustradeStep _ _ => true
  | .indexCommit _ _ => true
  | .consolidationSwitch _ _ => true
  | .roomVersionReclaim _ index room => indexOk index && roomOk room
  | .tableAddApply _ _ _ => true
  | .stagedRowsApply _ _ => true
  | .hotRowRebuild _ die => dieOk die
  | .statusBlockWrite _ _ => true
  | .moderationCount _ fn vec => fnOk fn && vecOk vec
  | .moderationTimeExpiry _ fn vec => fnOk fn && vecOk vec
  | .adminDoorbell _ fn _ => fnOk fn
  | .identify _ => true
  | .logRead _ => true
  | .snapshotRead _ => true
  | .storeWrite _ => true
  | .selfTest _ _ _ => true
  | .raiseFloor _ => true
  | .revive _ => true
  | .configWriteComplete _ _ => true
  | .fwStart _ fn _ => fnOk fn
  | .fwImageChecked _ => true
  | .fwRunning _ => true
  | .watchdogExpiry _ proc _ _ => procOk proc
  | .processorReady _ proc => procOk proc
  | .landingHang _ landing => landOk landing
  | .selfTestComplete _ die phys _ => dieOk die && physOk phys
  | .sparePeriodicTest _ die phys _ => dieOk die && physOk phys
  | .staleSpeaker _ die phys gen _ => dieOk die && physOk phys && genOk gen
  | .edgeFenced _ edge _ => edgeOk edge
  | .patrolScrub _ _ => true
  | .landingBecomesLender _ landing _ => landOk landing
  | .functionLevelReset _ fn => fnOk fn
  | .flrComplete _ fn => fnOk fn
  | .flrTimeout _ fn => fnOk fn
  | .vfEnableWrite _ fn _ _ => fnOk fn
  | .portFundamentalReset _ port => hostPortOk port
  | .portHotReset _ port => hostPortOk port
  | .portLinkDown _ port => hostPortOk port
  | .apertureWrite _ fn off _ => fnOk fn && aptOffOk off
  | .apertureRead _ fn off _ _ => fnOk fn && aptOffOk off
  | .ringCfgWrite _ fn ring _ => fnOk fn && ringOk ring
  | .msixUnmask _ fn vec => fnOk fn && vecOk vec
  | .irqForce _ fn _ => fnOk fn
  | .mpDataWrite _ fn _ => fnOk fn
  | .mpCommit _ fn => fnOk fn
  | .mpClear _ fn => fnOk fn
  | .tblDataWrite _ fn _ => fnOk fn
  | .tblCommit _ fn => fnOk fn
  | .tblClear _ fn => fnOk fn
  | .walkDataWrite _ fn _ => fnOk fn
  | .walkCommit _ fn => fnOk fn
  | .walkClear _ fn => fnOk fn
  | .normCommit _ fn => fnOk fn
  | .normClear _ fn => fnOk fn
  | .eccCountClear _ fn _ => fnOk fn
  | .alcPinWrite _ fn alcove _ => fnOk fn && alcoveOk alcove
  | .pinRegionWrite _ fn region _ => fnOk fn && regionOk region
  | .pcSetWrite _ fn set die _ => fnOk fn && partOk set && dieOk die
  | .partRegisterWrite _ fn off _ => fnOk fn && ctlOffOk off
  | .tenRegisterWrite _ fn off _ => fnOk fn && ctlOffOk off
  | .tenRefill _ fn _ => fnOk fn
  | .newelTreadWrite _ fn _ => fnOk fn
  | .treadLengthChange _ => true
  | .newelTimeRead _ fn => fnOk fn
  | .retrainPort _ fn port => fnOk fn && galPortNumOk port
  | .declarePeerLost _ fn peer => fnOk fn && peerOk peer
  | .declareLandingDead _ fn die phys => fnOk fn && dieOk die && physOk phys
  | .injectResidue _ fn landing _ => fnOk fn && landOk landing
  | .injectEcc _ fn landing _ => fnOk fn && landOk landing
  | .module _ fn key => fnOk fn && genOk key
  | .partition _ fn p key => fnOk fn && partOk p && genOk key
  | .processor _ fn proc key => fnOk fn && procOk proc && genOk key
  | .partitionResetComplete _ p => partOk p
  | .moduleResetEnd _ => true
  | .clearMin _ fn => fnOk fn
  | .wake _ fn => fnOk fn
  | .freeze _ fn => fnOk fn
  | .unfreeze _ fn => fnOk fn
  | .snapshot _ fn => fnOk fn
  | .clear _ fn => fnOk fn
  | .evselWrite _ fn i _ => fnOk fn && cntOk i
  | .scheduledCounterAction _ j => schedOk j
  | .progCounterWrap _ landing i _ => landOk landing && cntOk i
  | .sampleWrite _ landing _ => landOk landing
  | .registerWrite _ fn off size _ => fnOk fn && ctlOffOk off && sizeOk size
  | .modrstNAssert _ _ => true
  | .modrstNRelease _ => true
  | .ppsInEdge _ => true
  | .supplyWarning _ _ => true
  | .supplyWarningClear _ _ => true
  | .supplyReset _ _ _ => true
  | .overvoltage _ _ => true
  | .overvoltageEnd _ _ => true
  | .inputQualify _ _ => true
  | .inputEnable _ => true
  | .chargeComplete _ => true
  | .powerOk _ => true
  | .powerCapEvaluate _ _ _ => true
  | .dieWarn _ _ _ => true
  | .dieThrottle _ _ _ => true
  | .coolantHigh _ _ => true
  | .dieTrip _ _ _ => true
  | .leak _ => true
  | .thermalConditionClear _ _ _ => true
  | .landingClockGate _ landing => landOk landing
  | .wingPowerGate _ wing => wingOk wing
  | .dormantEntry _ => true
  | .dormantExitComplete _ => true
  | .storeTokenAdd _ => true
  | .holdoverLong _ => true
  | .sourceTimeout _ => true
  | .ptpAnnounce _ _ _ _ => true
  | .ptpSync _ _ _ _ => true
  | .ptpDelayResp _ _ _ _ => true
  | .galleryLinkTrained _ port lanes => galPortNumOk port && lanesOk lanes
  | .galleryLaneLoss _ port _ => galPortNumOk port
  | .hello _ port _ => galPortNumOk port
  | .flitError _ port _ => galPortNumOk port
  | .replayRequest _ port _ => galPortNumOk port
  | .staleFlitDrop _ peer gen _ => peerOk peer && genOk gen
  | .heartbeatSend _ => true
  | .heartbeat _ port peer gen => galPortNumOk port && peerOk peer && genOk gen
  | .peerLossTimeout _ peer => peerOk peer
  | .lossNotice _ peer _ => peerOk peer
  | .subRequest _ peer _ => peerOk peer
  | .subRequestPool _ peer _ _ _ _ _ => peerOk peer
  | .t3Read _ peer _ _ _ => peerOk peer
  | .remoteTableAdd _ peer _ => peerOk peer
  | .galleryTimeExchange _ peer _ _ => peerOk peer
  | .spdmGetVersion _ _ => true
  | .spdmGetCapabilities _ _ _ => true
  | .spdmNegotiateAlgorithms _ _ _ => true
  | .spdmGetDigests _ _ _ => true
  | .spdmGetCertificate _ _ _ => true
  | .spdmChallenge _ _ _ => true
  | .spdmGetMeasurements _ _ _ => true
  | .spdmUnsupported _ _ _ => true
  | .doeDiscovery _ fn _ => fnOk fn
  | .perstNRelease _ port => hostPortOk port
  | .hostLinkTrained _ port _ => hostPortOk port
  | .galleryResponse _ peer _ _ => peerOk peer
  | .peerDirectory _ peer _ => peerOk peer
  | .ppsOutEdge _ => true
  | .inputCrosses62v _ _ _ => true
  | .newelCtrlWrite _ fn _ => fnOk fn
  | .stillExitComplete _ wing => wingOk wing

end Sys2Proof
end

