-- ==== Sys2Proof/Tests/Slice0.lean ====
section
/-! SUPPORT. Small states, the checks of WellFormed, worked values of the spec, and for each statement with hypotheses a state and operands that meet them. -/

namespace Sys2Proof.Tests

open Sys2Proof Sys2Proof.Machine

set_option Elab.async false

/-! ## Small states -/

/-- n bytes with pieces at offsets. -/
def bytesOf (n : Nat) (ps : List (Nat × Blob)) : Blob := ps.foldl (fun b p => Blob.patch b p.1 p.2) (zeros n)

/-- RING_CFG of an enabled ring of 16 elements: its kind and completion ring (R365). -/
def ringWord (kind cq : Nat) : Word := BitVec.ofNat 64 (1 + 2 * kind + 16 * 4 + 1024 * cq)

/-- The module at work: link and firmware up; function 0, the owner, with a submission ring 0, a completion ring 1, a stream ring 2 and an error ring 3; a serving partition 0 on Wing 0, an
exclusive partition 1 on Wing 1; tenant 1 enabled on both. -/
def up : State := { State.reset with
  power := { phase := .up }
  ports := [(0, { linkUp := true, perst := false })]
  fw := { state := 3, procs := (List.range 16).map fun i => (i, { state := 1 }) }
  fns := [(0, { rings := [(0, { base := 0x10000, cfg := ringWord 1 1 }), (1, { base := 0x20000, cfg := ringWord 2 0 }),
                          (2, { base := 0x30000, cfg := ringWord 3 0 }), (3, { base := 0x40000, cfg := ringWord 4 0 })] })]
  regs := [(Reg.partCtrl 0, 1), (Reg.partWings 0, 1), (Reg.partCtrl 1, 3), (Reg.partWings 1, 2)]
  tenants := [(1, { cfg := 0xFFFF0001, rate := 0x6400000064, own := 100 })] }

/-- A descriptor of partition p and tenant 1, with tag 7 (R351). -/
def descOf (o p : Nat) (ps : List (Nat × Blob)) : Blob := bytesOf 256 ([(0, leBytes 1 o), (2, leBytes 2 (4096 * p + 1)), (4, leBytes 4 7)] ++ ps)

/-- Bytes in memory from an address upward. -/
def cells (a : Nat) (b : Blob) : Memory := (b.zipIdx.filter fun e => e.1 != 0#8).map fun e => (a + e.2, e.1)
/-- Ring 0 of function 0 holds one descriptor. -/
def asks (s : State) (d : Blob) : State := { s with
  hostMem := [(0, s.hostMemOf 0 ++ cells 0x10000 d)]
  fns := [(0, { s.fnOf 0 with rings := SMap.put (s.fnOf 0).rings 0 { s.ring 0 0 with host := 1 } })] }

/-- A request of the owner in slot 0, of partition p and tenant 1. -/
def reqOf (o p : Nat) (ph : Phase) : Req := { cq := 1, desc := descOf o p [], part := p, phase := ph }
def holds (s : State) (r : Req) : State := { s with reqs := [(0, r)], nextOrder := 1 }

/-! ## Refused operands -/

theorem test_wf_function : (Instr.embed 0 1024 0).wellFormed = false ∧ (Instr.embed 0 1023 63).wellFormed = true := by decide
theorem test_wf_ring : (Instr.embed 0 0 64).wellFormed = false := by decide
theorem test_wf_vector : (Instr.msixUnmask 0 0 256).wellFormed = false := by decide
theorem test_wf_landing : (Instr.taskTake 0 384).wellFormed = false ∧ (Instr.taskTake 0 383).wellFormed = true := by decide
theorem test_wf_wing : (Instr.wingPowerGate 0 48).wellFormed = false := by decide
theorem test_wf_die : (Instr.hotRowRebuild 0 8).wellFormed = false := by decide
theorem test_wf_physical : (Instr.selfTestComplete 0 0 52 0).wellFormed = false := by decide
theorem test_wf_edge : (Instr.edgeFenced 0 24 []).wellFormed = false := by decide
theorem test_wf_alcove : (Instr.alcPinWrite 0 0 4 0).wellFormed = false := by decide
theorem test_wf_region : (Instr.pinRegionWrite 0 0 32 0).wellFormed = false := by decide
theorem test_wf_partition : (Instr.partition 0 0 16 0).wellFormed = false := by decide
theorem test_wf_processor : (Instr.processor 0 0 16 0).wellFormed = false := by decide
theorem test_wf_peer : (Instr.peerLossTimeout 0 16).wellFormed = false := by decide
theorem test_wf_schedule : (Instr.scheduledCounterAction 0 4).wellFormed = false := by decide
theorem test_wf_counter : (Instr.evselWrite 0 0 8 0).wellFormed = false := by decide
theorem test_wf_shard : (Instr.decodeBatchThreshold 0 0 64).wellFormed = false := by decide
theorem test_wf_lanes : (Instr.galleryLinkTrained 0 0 2).wellFormed = false ∧ (Instr.galleryLinkTrained 0 0 4).wellFormed = true := by decide
theorem test_wf_generation : (Instr.heartbeat 0 0 0 256).wellFormed = false := by decide
theorem test_wf_room : (Instr.roomVersionReclaim 0 0 2097152).wellFormed = false := by decide
theorem test_wf_index : (Instr.roomVersionReclaim 0 8 0).wellFormed = false := by decide
theorem test_wf_host_port : (Instr.portHotReset 0 4).wellFormed = false := by decide
theorem test_wf_gallery_port : (Instr.flitError 0 12 0).wellFormed = false := by decide
theorem test_wf_size : (Instr.registerWrite 0 0 0 9 0).wellFormed = false ∧ (Instr.registerWrite 0 0 0 0 0).wellFormed = false := by decide
theorem test_wf_doorbell : (Instr.doorbellWrite 0 0 4096 8 0 []).wellFormed = false := by decide
theorem test_wf_control : (Instr.registerWrite 0 0 16777216 8 0).wellFormed = false := by decide
theorem test_wf_aperture : (Instr.apertureWrite 0 0 68719476736 []).wellFormed = false := by decide

/-! ## Values that the spec or the standard it names works out -/

/-- The CRC-32C check value of "123456789" (R448 names the polynomial). -/
theorem test_crc32c : crc32c [0x31#8, 0x32#8, 0x33#8, 0x34#8, 0x35#8, 0x36#8, 0x37#8, 0x38#8, 0x39#8] = 0xE3069283 := by decide +kernel
/-- A table of 400,000,000 rows of 128 FP32 elements has a stride of 512 bytes (the example of R315). -/
theorem test_row_stride : ({ rec_ := bytesOf 64 [(4, leBytes 2 128)] } : Table).rowStride = 512 := by decide +kernel
theorem test_wing_of_landing : landWing (48 * 3 + 8 * 2 + 5) = 6 * 3 + 2 ∧ landDie (48 * 3 + 8 * 2 + 5) = 3 := by decide

/-! ## The queue, memory, names -/

theorem witness_StepTakesFront : ({ up with pending := [.leak 0] } : State).pending = .leak 0 :: [] ∧ State.reset.pending = [] := by decide
theorem witness_StepKeepsMemory : ∃ q, State.reset.memWf = true ∧ step State.reset = .next q := ⟨State.reset, by decide, rfl⟩
theorem witness_StepKeepsIdentity : ∃ q, step { State.reset with pending := [.leak 0] } = .next q := ⟨_, rfl⟩
theorem witness_HostMemoryWrites : ∃ q, exec (.heartbeatSend 0) up = .next q := ⟨_, rfl⟩
theorem witness_LandingNames : (7 < 8 ∧ 5 < 6) ∧ 383 < 384 := by decide
theorem witness_FunctionIds : (3 < 4 ∧ 63 < 64) ∧ 1023 < 1024 ∧ 16 ≠ up.ownerPort ∧ up.tenRefused (0x22000 + 8 * 16) 1 = 0 := by decide +kernel

/-! ## Doorbells and rings -/

theorem witness_DoorbellWrite : let u := (up.advance 5).publish 0 []
    (u.reach 0 = true ∧ u.inFlr 0 = false ∧ (u.proc (fnPort 0)).state ≠ 3 ∧ (u.ring 0 0).en = true ∧ bitsW 15 21 16 = 0 ∧ bitsW 15 63 22 = 0 ∧ (u.ring 0 0).forward (bitsW 15 15 0) = true ∧ (u.ring 0 0).kind ≠ 3)
      ∧ (u.doorbellErr 0 0 8 16 ≠ 0 ∧ u.doorbellErr 0 1 8 0 ≠ 0) := by decide +kernel

theorem witness_DescriptorFetchError : let s := asks up (descOf 4 0 [])
    (s.advance 5).canRead 0 0 = true ∧ s.errRing s.ownerPort = some 3 ∧ (s.ring s.ownerPort 3).full = false ∧ s.inFlr s.ownerPort = false ∧ (s.port (fnPort s.ownerPort)).linkUp = true
      ∧ fnPort s.ownerPort = 0 := by decide +kernel

/-- Rings 0 and 4 hold descriptors; ring 0 was read last, and its turn has read `taken` descriptors of one. -/
def twoRings (taken : Nat) : State := ((asks up (descOf 4 0 [])).setRing 0 0 { up.ring 0 0 with host := 2, turn := 3, taken := taken }).setRing 0 4 { up.ring 0 0 with host := 1 }
theorem witness_RingTurns : (∀ k ∈ [0, 1], let s := twoRings k
      s.lastRead (fnPort 0) = some (0, 0, s.ring 0 0) ∧ s.readable 0 0 = true ∧ s.readable 0 4 = true ∧ (0, 4, s.ring 0 4) ∈ s.portRings (fnPort 0) ∧ bitsW (s.ring 0 0).cfg 31 28 = 0)
    ∧ (twoRings 1).canRead 0 4 = true ∧ (twoRings 0).canRead 0 0 = true := by decide +kernel

/-- Ring 5 is disabled and has a base. -/
def ringState : State := { up with fns := [(0, { up.fnOf 0 with rings := SMap.put (up.fnOf 0).rings 5 { base := 0x50000 } })] }
theorem witness_RingConfig : let s := ringState
    let w := ringWord 1 1 &&& ringCfgMask
    let old := (s.ring 0 0).cfg
    (s.advance 5).reach 0 = true ∧ (s.ring 0 5).en = false ∧ bitW w 0 = true ∧ s.ringCfgOk 0 5 w = true ∧ s.ringCfgOk 0 6 1 = false
      ∧ (s.ring 0 0).en = true ∧ clrBitW old 0 ≠ old ∧ clrBitW old 0 &&& ringCfgMask = clrBitW old 0 ∧ (s.ring 0 0).kind ≠ 2 ∧ (s.ring 0 0).kind ≠ 3
      ∧ old ||| 0x10000 ≠ old ∧ old ||| 0x10000 ≠ clrBitW old 0 ∧ (s.ring 0 6).en = false ∧ bitW (1 &&& ringCfgMask) 0 = true ∧ bitW (clrBitW w 0) 0 = false ∧ old &&& ringCfgMask = old
      ∧ (let q := { up with fns := [(0, { up.fnOf 0 with rings := SMap.put (up.fnOf 0).rings 1 { up.ring 0 1 with reserved := 1 } })] }
         (q.ring 0 1).en = true ∧ (q.ring 0 1).kind = 2 ∧ (q.ring 0 1).reserved ≠ 0) := by decide +kernel

def vecState : State := { up with fns := [(0, { up.fnOf 0 with vecs := [(0, { mod := 0x10001, events := 1, opened := some 0 })] })] }
theorem witness_VectorMessages : let s := vecState
    (s.advance 200).reach 0 = true ∧ bitsW 255 8 0 = 255 ∧ 255 < vecCount 0 ∧ (s.vec 0 0).opened = some 0 ∧ (s.vec 0 0).count ≤ (s.vec 0 0).events
      ∧ 0 + 100 * (s.vec 0 0).time ≤ (s.advance 200).now := by decide +kernel

/-! ## Admission -/

/-- A vocabulary of four tokens, and a model image of a kind with it and a context of 64 tokens. -/
def imageOf (kind : Nat) : Blob := bytesOf 384 [(4, leBytes 1 kind), (16, leBytes 4 64), (64, leBytes 8 256), (72, leBytes 8 128), (260, leBytes 4 4)]
/-- A generator 0 and an embedding model 1, usable from every partition. -/
def served : State := { up with objs := { models := [(0, { kind := 1, image := imageOf 1, mask := 0xFFFF }), (1, { kind := 2, image := imageOf 2, mask := 0xFFFF })] } }

/-- TOKENIZE of no input for the generator, and GENERATE of one token (in a segment list at 0x8000) that is, and is not, below the vocabulary's size. -/
def tokenizeD : Blob := descOf 4 0 []
def generateD : Blob := descOf 3 0 [(24, leBytes 8 0x8000), (32, leBytes 4 4), (36, leBytes 4 1), (40, leBytes 8 0x9000), (48, leBytes 4 64), (176, leBytes 4 1), (184, leBytes 1 2), (204, leBytes 2 0x7FF),
  (206, leBytes 1 0xFF)]
def tokenList (s : State) (w : Nat) : State := { s with hostMem := [(0, cells 0x8000 (leBytes 8 0x8800 ++ leBytes 4 4) ++ cells 0x8800 (leBytes 4 w))] }
def consolidateD : Blob := descOf 0x13 1 []

theorem queues_of (s : State) (f n slot : Nat) (h : s.canRead f n && (s.freeSlotOf (fnPort f) == some slot) && ((s.entered f n slot).admitFail f (s.nextDesc f n) == 0)
    && !(s.atCheck5 f n slot).jobBusy (Blob.u8 (s.nextDesc f n) 0) (descPart (s.nextDesc f n)) && ((s.atCheck5 f n slot).check5 (s.nextDesc f n) == 0)
    && (((s.atCheck5 f n slot).check6 f (slotVest slot) (s.nextDesc f n)).1 == 0)) : s.queues f n slot := by
  simp only [Bool.and_eq_true, beq_iff_eq, Bool.not_eq_true'] at h
  exact ⟨⟨h.1.1.1.1.1, h.1.1.1.1.2, h.1.1.1.2⟩, h.1.1.2, h.1.2, h.2⟩

theorem witness_DescriptorQueued : let u := (asks served tokenizeD).advance 5
    descRow (.tokenize 5 0 0) = some (5, 0, 0, 4, none) ∧ rowOf (u.nextDesc 0 0) 4 none ∧ 4 ∈ [0x02, 0x04, 0x05] ∧ u.queues 0 0 0 :=
  ⟨rfl, ⟨by decide +kernel, fun _ h => nomatch h⟩, by decide, queues_of _ _ _ _ (by decide +kernel)⟩
theorem witness_DescriptorQueued_generate : ∀ w ∈ [0, 3, 4], let u := (asks (tokenList served w) generateD).advance 5
    tokenInput (u.nextDesc 0 0) = true ∧ u.queues 0 0 0 ∧ ((u.atAct 0 0 0).req? 0).isSome = true ∧ Blob.u8 (u.nextDesc 0 0) 0 = 0x03 := by
  intro w hw
  simp only [List.mem_cons, List.not_mem_nil, or_false] at hw
  rcases hw with rfl | rfl | rfl <;> exact ⟨by decide +kernel, queues_of _ _ _ _ (by decide +kernel), by decide +kernel, by decide +kernel⟩

/-- 64 tokens, one more than a prompt may have beside the token that follows it. -/
def longState : State := { served with hostMem := [(0, cells 0x8000 (leBytes 8 0x8800 ++ leBytes 4 256))] }
def longD : Blob := Blob.patch generateD 32 (leBytes 4 256)
theorem witness_DescriptorQueued_long : let u := (asks longState longD).advance 5
    let x := u.atAct 0 0 0
    tokenInput (u.nextDesc 0 0) = true ∧ u.queues 0 0 0 ∧ (x.req? 0).any (fun r => (x.inputWords r).all (fun w => w / 2 ^ 20 == 0 && decide (w < vocSize (x.held? r.objId).vocab)) &&
      decide (imgContext (x.held? r.objId).image - 1 < (x.plainPrompt r (x.inputWords r)).length)) = true ∧ Blob.u8 (u.nextDesc 0 0) 0 = 0x03 :=
  ⟨by decide +kernel, queues_of _ _ _ _ (by decide +kernel), by decide +kernel, by decide +kernel⟩
/-- EMBED of one token for model 1; its result length is the free dimension (log entry 38), so those four bytes are listed as they are. -/
def embedState (w : Nat) : State :=
  let d := descOf 1 0 [(20, leBytes 4 1), (24, leBytes 8 0x8000), (32, leBytes 4 4), (36, leBytes 4 1), (65, leBytes 1 2)]
  let s := asks (tokenList served w) d
  { s with hostMem := [(0, (List.range 4).map (fun i => (0x10030 + i, (leBytes 4 ((Config.outDim 0).toNat * 4)).getD i 0)) ++ s.hostMemOf 0)] }
theorem le4_value (x : Nat) (h : x < 2 ^ 32) : leNat (leBytes 4 x) = x := by
  simp only [leBytes, leNat, BitVec.toNat_ofNat]; omega
set_option maxRecDepth 20000 in
theorem embed_check3 (w : Nat) (hw : w ∈ [3, 4]) : (((embedState w).advance 5).entered 0 0 0).check3 0 (((embedState w).advance 5).nextDesc 0 0) = 0 := by
  have h48 : Blob.u32 (((embedState w).advance 5).nextDesc 0 0) 48 = (Config.outDim 0).toNat * 4 := by
    refine Eq.trans (b := leNat (leBytes 4 ((Config.outDim 0).toNat * 4))) ?_ (le4_value _ ?_)
    · simp only [List.mem_cons, List.not_mem_nil, or_false] at hw
      rcases hw with rfl | rfl
      · rfl
      · rfl
    · have := (Config.outDim 0).isLt; omega
  have h : (((embedState w).advance 5).entered 0 0 0).check3 0 (((embedState w).advance 5).nextDesc 0 0)
      = firstFail [0, if (true && (Blob.u32 (((embedState w).advance 5).nextDesc 0 0) 48 == (Config.outDim 0).toNat * 4) && true) then 0 else 0x21] := by
    simp only [List.mem_cons, List.not_mem_nil, or_false] at hw
    rcases hw with rfl | rfl
    · rfl
    · rfl
  rw [h, h48]; simp [firstFail]


theorem witness_DescriptorQueued_embed (w : Nat) (hw : w ∈ [3, 4]) : let u := (embedState w).advance 5
    tokenInput (u.nextDesc 0 0) = true ∧ u.queues 0 0 0 ∧ ((u.atAct 0 0 0).req? 0).isSome = true ∧ Blob.u8 (u.nextDesc 0 0) 0 = 1 := by
  have h3 := embed_check3 w hw
  have c1 : (((embedState w).advance 5).entered 0 0 0).check1 0 (((embedState w).advance 5).nextDesc 0 0) = true
      ∧ (((embedState w).advance 5).entered 0 0 0).check2 0 (((embedState w).advance 5).nextDesc 0 0) = 0 ∧ Blob.u64 (((embedState w).advance 5).nextDesc 0 0) 8 = 0 := by
    simp only [List.mem_cons, List.not_mem_nil, or_false] at hw
    rcases hw with rfl | rfl <;> decide +kernel
  have hf : (((embedState w).advance 5).entered 0 0 0).admitFail 0 (((embedState w).advance 5).nextDesc 0 0) = 0 := by
    simp [State.admitFail, c1.1, c1.2.1, c1.2.2, h3]
  refine ⟨?_, ⟨⟨?_, ?_, hf⟩, ?_, ?_, ?_⟩, ?_, ?_⟩ <;>
  · simp only [List.mem_cons, List.not_mem_nil, or_false] at hw
    rcases hw with rfl | rfl <;> decide +kernel

/-! ### Held back, refused, and the other rows of admission -/

theorem admits_of (s : State) (f n slot : Nat) (h : s.canRead f n && (s.freeSlotOf (fnPort f) == some slot) && ((s.entered f n slot).admitFail f (s.nextDesc f n) == 0)) : s.admits f n slot := by
  simp only [Bool.and_eq_true, beq_iff_eq] at h
  exact ⟨h.1.1, h.1.2, h.2⟩

/-- An index READY on the exclusive partition's dies, which a job of another request holds; a tenant without budget; a session whose request is in flight. -/
def indexed : State := { served with objs := { served.objs with indexes := [(0, { state := 2 })] } }
def jobTaken : State := { indexed with parts := [(1, { owner := some 9 })] }
def broke : State := { served with tenants := [(1, { cfg := 0xFFFF0001, rate := 0x6400000064, own := 0 })] }
theorem witness_DescriptorHeld_job : let u := (asks jobTaken consolidateD).advance 5
    rowOf (u.nextDesc 0 0) 0x13 none ∧ skips56 0x13 = false ∧ u.admits 0 0 0 ∧ (u.atCheck5 0 0 0).jobBusy 0x13 (descPart (u.nextDesc 0 0)) = true :=
  ⟨⟨by decide +kernel, fun _ h => nomatch h⟩, by decide, admits_of _ _ _ _ (by decide +kernel), by decide +kernel⟩
theorem witness_DescriptorHeld_budget : let u := (asks broke tokenizeD).advance 5
    rowOf (u.nextDesc 0 0) 4 none ∧ u.admits 0 0 0 ∧ (u.atCheck5 0 0 0).jobBusy 4 (descPart (u.nextDesc 0 0)) = false ∧ isJob 4 = false ∧ tokenInput (u.nextDesc 0 0) = false
      ∧ (u.atCheck5 0 0 0).check5 (u.nextDesc 0 0) = 1 :=
  ⟨⟨by decide +kernel, fun _ h => nomatch h⟩, admits_of _ _ _ _ (by decide +kernel), by decide +kernel, by decide, by decide +kernel, by decide +kernel⟩
/-- A GENERATE without index on session 5, which a request in flight holds. -/
def sessionD : Blob := descOf 3 0 [(16, leBytes 4 0x10005), (24, leBytes 8 0x8000), (32, leBytes 4 4), (36, leBytes 4 1), (40, leBytes 8 0x9000), (48, leBytes 4 64), (176, leBytes 4 1), (204, leBytes 2 0x7FF),
  (206, leBytes 1 0xFF)]
def busySession : State := { tokenList served 0 with sessions := [(5, { gen := 1, isOpen := true, tenant := 1, busy := some 9 })] }
theorem witness_DescriptorHeld_session : let u := (asks busySession sessionD).advance 5
    rowOf (u.nextDesc 0 0) 3 none ∧ u.admits 0 0 0 ∧ tokenInput (u.nextDesc 0 0) = false ∧ (u.atCheck5 0 0 0).check5 (u.nextDesc 0 0) = 0
      ∧ ((u.atCheck5 0 0 0).check6 0 (slotVest 0) (u.nextDesc 0 0)).1 = 1 :=
  ⟨⟨by decide +kernel, fun _ h => nomatch h⟩, admits_of _ _ _ _ (by decide +kernel), by decide +kernel, by decide +kernel, by decide +kernel⟩
/-- A TOKENIZE that names no resident model. -/
theorem witness_DescriptorRefused : let s := asks up tokenizeD
    let u := s.advance 5
    rowOf (u.nextDesc 0 0) 4 none ∧ u.canRead 0 0 = true ∧ u.freeSlotOf 0 = some 0 ∧ s.streamFree 0 (u.nextDesc 0 0) ∧ (u.entered 0 0 0).admitFail 0 (u.nextDesc 0 0) = 0x28 :=
  ⟨⟨by decide +kernel, fun _ h => nomatch h⟩, by decide +kernel, by decide +kernel, fun h => absurd h (by decide +kernel), by decide +kernel⟩
theorem witness_AdmissionStatus : let d := tokenizeD
    0 ∉ opcodes ∧ served.check1 0 d = true ∧ up.bound 1 (descPart d) (descTenant d) = false ∧ served.check2 0 d = 0 ∧ served.check3 0 d = 0
      ∧ (served.check1 0 (descOf 0x13 0 []) = true ∧ bitW (served.reg (Reg.partCtrl 0)) 1 = false ∧ Blob.u8 (descOf 0x13 0 []) 0 ∈ [0x13, 0x14, 0x22])
      ∧ (served.check1 0 (descOf 4 0 [(8, leBytes 8 1)]) = true ∧ served.check2 0 (descOf 4 0 [(8, leBytes 8 1)]) = 0 ∧ Blob.u64 (descOf 4 0 [(8, leBytes 8 1)]) 8 ≤ (served.advance 1).now) := by decide +kernel
theorem witness_AdmissionStatus_owner : let d := descOf 0x31 0 []
    up.check1 0 d = true ∧ ownerOnly d = true ∧ up.isOwner 1 = false := by decide +kernel
theorem witness_AdmissionStatus_reserved : let d := descOf 4 0 [(255, leBytes 1 1)]
    255 < 256 ∧ (∀ r ∈ usedRanges d, 255 < r.1 ∨ r.2 ≤ 255) ∧ Blob.u8 d 255 ≠ 0 := by decide +kernel

/-- A create record: 8 FP32 elements, 64 rows, one die, this module, partition 0 (R312, R313). -/
def createRec : Blob :=
  let b := bytesOf 64 [(0, leBytes 4 0x4C54424C), (4, leBytes 2 8), (8, leBytes 8 64), (16, leBytes 1 6), (17, leBytes 1 1), (18, leBytes 2 1), (20, leBytes 2 1), (32, leBytes 4 0xFFFFFFFF)]
  Blob.patch b 60 (leBytes 4 (crc32c (Blob.slice b 0 60)).toNat)
def tabled : State := { up with objs := { tables := [(0, { rec_ := createRec })] } }
def createD : Blob := descOf 0x21 0 [(64, leBytes 1 2), (72, leBytes 8 0x8000)]
def createState : State := asks { up with hostMem := [(0, cells 0x8000 createRec)] } createD
def destroyD : Blob := descOf 0x21 0 [(64, leBytes 1 3)]
def infoD : Blob := descOf 0x21 0 [(40, leBytes 8 0x9000), (48, leBytes 4 80), (64, leBytes 1 4)]
theorem rowOf_sub (d : Blob) (o a b : Nat) (h : Blob.u8 d 0 == o && Blob.u8 d a == b) : rowOf d o (some (a, b)) := by
  simp only [Bool.and_eq_true, beq_iff_eq] at h
  refine ⟨h.1, fun p hp => ?_⟩
  cases hp
  exact h.2
theorem witness_TableControl_create : let u := createState.advance 5
    let x := u.atAct 0 0 0
    u.queues 0 0 0 ∧ rowOf (u.nextDesc 0 0) 0x21 (some (64, 2)) ∧ x.createErr 0 (descPart (u.nextDesc 0 0)) { rec_ := x.hostRead 0 (Blob.u64 (u.nextDesc 0 0) 72) 64, gen := 0 } = 0 :=
  ⟨queues_of _ _ _ _ (by decide +kernel), rowOf_sub _ _ _ _ (by decide +kernel), by decide +kernel⟩
theorem witness_TableControl_destroy : let u := (asks tabled destroyD).advance 5
    u.queues 0 0 0 ∧ rowOf (u.nextDesc 0 0) 0x21 (some (64, 3)) ∧ (u.atAct 0 0 0).check3 0 (u.nextDesc 0 0) = 0 :=
  ⟨queues_of _ _ _ _ (by decide +kernel), rowOf_sub _ _ _ _ (by decide +kernel), by decide +kernel⟩
theorem witness_TableControl_info : let u := (asks tabled infoD).advance 5
    u.queues 0 0 0 ∧ rowOf (u.nextDesc 0 0) 0x21 (some (64, 4)) ∧ (u.atAct 0 0 0).check3 0 (u.nextDesc 0 0) = 0 :=
  ⟨queues_of _ _ _ _ (by decide +kernel), rowOf_sub _ _ _ _ (by decide +kernel), by decide +kernel⟩

/-- Objects of the other kinds, which an unload names. -/
def stocked : State := { served with objs := { served.objs with
  sets := [(0, { kind := 4, image := bytesOf 64 [(40, leBytes 4 1)], mask := 0xFFFF })], steers := [(0, { kind := 5, image := bytesOf 64 [(40, leBytes 4 1)], mask := 0xFFFF })], grammars := [(0, { kind := 6, mask := 0xFFFF })], indexes := [(0, { state := 2 })] } }
def unloadD (k : Nat) : Blob := descOf 0x31 0 [(64, leBytes 1 k)]
theorem witness_ObjectUnloads : ∀ k ∈ [0, 1, 2, 3, 4], let u := (asks stocked (unloadD k)).advance 5
    rowOf (u.nextDesc 0 0) 0x31 (some (64, k)) ∧ u.queues 0 0 0 ∧ (u.atAct 0 0 0).check3 0 (u.nextDesc 0 0) = 0 := by
  intro k hk
  simp only [List.mem_cons, List.not_mem_nil, or_false] at hk
  rcases hk with rfl | rfl | rfl | rfl | rfl <;> exact ⟨rowOf_sub _ _ _ _ (by decide +kernel), queues_of _ _ _ _ (by decide +kernel), by decide +kernel⟩
theorem descRow_unload : descRow (.modelUnload 5 0 0) = some (5, 0, 0, 0x31, some (64, 0)) ∧ descRow (.indexUnload 5 0 0) = some (5, 0, 0, 0x31, some (64, 1)) ∧
    descRow (.expertSetUnload 5 0 0) = some (5, 0, 0, 0x31, some (64, 2)) ∧ descRow (.steeringSetUnload 5 0 0) = some (5, 0, 0, 0x31, some (64, 3)) ∧
    descRow (.grammarUnload 5 0 0) = some (5, 0, 0, 0x31, some (64, 4)) := ⟨rfl, rfl, rfl, rfl, rfl⟩

theorem sound_of (s : State) (slot : Nat) (r : Req) (h : s.req? slot = some r) (b : !r.suppress && !s.inFlr r.fn && r.peer.isNone && (s.port (fnPort r.fn)).linkUp && !s.streamBlocked r
    && (r.doubt == 0) && !r.peerLost) : s.sound slot r := by
  simp only [Bool.and_eq_true, Bool.not_eq_true', beq_iff_eq, Option.isNone_iff_eq_none] at b
  exact ⟨⟨h, b.1.1.1.1.1.1, b.1.1.1.1.1.2, b.1.1.1.1.2, b.1.1.1.2, b.1.1.2⟩, b.1.2, b.2⟩

theorem witness_ObjectUnloads_release : let r := reqOf 0x31 0 .unloading
    let q := reqOf 0x21 0 .unloading
    (holds up r).running = true ∧ (holds up r).sound 0 r ∧ (holds up r).held (unloadTarget r.desc) = false ∧ (holds up q).sound 0 q ∧ q.opc = 0x21 ∧ (holds up q).held (.table (tabNum q.objId)) = false
      ∧ (holds up { r with holds := [.model 0] }).held (unloadTarget r.desc) = true :=
  ⟨by decide +kernel, sound_of _ _ _ rfl (by decide +kernel), by decide +kernel, sound_of _ _ _ rfl (by decide +kernel), by decide +kernel, by decide +kernel, by decide +kernel⟩

/-! ### Sessions, sync counters, cancel -/

def openD : Blob := descOf 0x40 0 []
def closeD : Blob := descOf 0x41 0 [(16, leBytes 4 0x10005)]
def sessioned : State := { up with sessions := [(5, { gen := 1, isOpen := true, tenant := 1 })] }
theorem witness_Sessions : let u := (asks up openD).advance 5
    u.admits 0 0 0 ∧ Blob.u8 (u.nextDesc 0 0) 0 = 0x40 ∧ (u.atCheck5 0 0 0).contextsUsed (slotVest 0) < 16384 :=
  ⟨admits_of _ _ _ _ (by decide +kernel), by decide +kernel, by decide +kernel⟩
theorem witness_Sessions_close : let u := (asks sessioned closeD).advance 5
    let v := (asks (holds sessioned { reqOf 3 0 .running with session := some 5 }) closeD).advance 5
    u.admits 0 0 0 ∧ (u.atCheck5 0 0 0).sessionOf 0 (u.nextDesc 0 0) = some 5 ∧ (u.atCheck5 0 0 0).sessionUsers 5 = false ∧
      v.admits 0 0 1 ∧ (v.atCheck5 0 0 1).sessionOf 0 (v.nextDesc 0 0) = some 5 ∧ (v.atCheck5 0 0 1).sessionUsers 5 = true :=
  ⟨admits_of _ _ _ _ (by decide +kernel), by decide +kernel, by decide +kernel, admits_of _ _ _ _ (by decide +kernel), by decide +kernel, by decide +kernel⟩

def counted : State := { up with syncs := [(0, { live := true, value := 5 })] }
def syncD (op flags : Nat) : Blob := descOf 0x50 0 [(64, leBytes 8 1), (76, leBytes 1 op), (77, leBytes 1 flags)]
def waitD (v : Nat) : Blob := descOf 0x51 0 [(64, leBytes 8 v)]
theorem witness_SyncCounters : ∀ k ∈ [0, 1, 2], let u := (asks counted (syncD k 0)).advance 5
    u.admits 0 0 0 ∧ ((u.atCheck5 0 0 0).req? 0).isSome = true ∧ rowOf (u.nextDesc 0 0) 0x50 (some (76, k)) ∧ bitN (Blob.u8 (u.nextDesc 0 0) 77) 0 = false := by
  intro k hk
  simp only [List.mem_cons, List.not_mem_nil, or_false] at hk
  rcases hk with rfl | rfl | rfl <;> exact ⟨admits_of _ _ _ _ (by decide +kernel), by decide +kernel, rowOf_sub _ _ _ _ (by decide +kernel), by decide +kernel⟩
theorem witness_SyncCounters_after : let v := (asks (holds counted (reqOf 4 0 .running)) (syncD 0 1)).advance 5
    v.admits 0 0 1 ∧ (((v.atCheck5 0 0 1).req? 1).any fun r => (v.atCheck5 0 0 1).earlier r) = true ∧ bitN (Blob.u8 (v.nextDesc 0 0) 77) 0 = true ∧
      (asks (holds counted (reqOf 4 0 .running)) (syncD 0 1)).signalFails 0 (v.nextDesc 0 0) = false :=
  ⟨admits_of _ _ _ _ (by decide +kernel), by decide +kernel, by decide +kernel, by decide +kernel⟩
theorem witness_SyncCounters_wait : ∀ v ∈ [5, 6], let u := (asks counted (waitD v)).advance 5
    u.admits 0 0 0 ∧ Blob.u8 (u.nextDesc 0 0) 0 = 0x51 ∧ Blob.u64 (u.nextDesc 0 0) 64 = v ∧ counted.syncOf 0 (Blob.u32 (u.nextDesc 0 0) 72) = some { live := true, value := 5 } := by
  intro k hk
  simp only [List.mem_cons, List.not_mem_nil, or_false] at hk
  rcases hk with rfl | rfl <;> exact ⟨admits_of _ _ _ _ (by decide +kernel), by decide +kernel, by decide +kernel, by decide +kernel⟩

def cancelD : Blob := descOf 0x60 0 [(64, leBytes 4 7), (68, leBytes 1 0xFF)]
theorem witness_CancelStops : let u := (asks up cancelD).advance 5
    let r := reqOf 4 0 .running
    let v := (asks (holds up r) cancelD).advance 5
    u.admits 0 0 0 ∧ (((u.atCheck5 0 0 0).req? 0).any fun q => (u.atCheck5 0 0 0).cancelTargets q == []) = true ∧
      v.admits 0 0 1 ∧ (((v.atCheck5 0 0 1).req? 1).any fun q => (v.atCheck5 0 0 1).cancelTargets q == [0]) = true ∧ v.req? 0 = some r ∧ r.stopped = false ∧ r.opc ≠ 0x13 :=
  ⟨admits_of _ _ _ _ (by decide +kernel), by decide +kernel, admits_of _ _ _ _ (by decide +kernel), by decide +kernel, rfl, rfl, by decide +kernel⟩

/-! ## Waits and the boundary -/

/-- A counter stands after the boundary at 25 µs. -/
def later (s : State) : State := { s with newel := { s.newel with time := 30000, nextB := 50000 } }
def waitR : Req := { reqOf 0x51 0 .syncWait with desc := descOf 0x51 0 [(64, leBytes 8 6), (80, leBytes 8 25000)] }
def timedR (ph : Phase) : Req := { reqOf 4 0 ph with desc := descOf 4 0 [(8, leBytes 8 25000)], cur := some .tokenise }
theorem witness_WaitsEnd : let a := reqOf 0x60 0 .cancelling
    let b := { reqOf 0x41 0 .closing with handle := 5 }
    let c := reqOf 0x50 0 .afterRing
    (later up).running = true ∧ (holds (later up) a).sound 0 a ∧ (holds (later up) b).sound 0 b ∧ (holds (later up) b).sessionUsers (b.handle % 65536) = false ∧ (holds (later up) c).sound 0 c
      ∧ (holds (later up) c).earlier c = false ∧ Blob.u8 c.desc 76 ≤ 2 ∧ (holds (later counted) waitR).sound 0 waitR ∧ Blob.u64 waitR.desc 80 = 25000 ∧ (later counted).lastB = 25000
      ∧ (later counted).syncOf 0 (Blob.u32 waitR.desc 72) = some { live := true, value := 5 } ∧ (holds (later up) (timedR .waiting)).sound 0 (timedR .waiting) ∧ (timedR .waiting).deadline = 25000
      ∧ (holds (later up) (timedR .running)).sound 0 (timedR .running) :=
  ⟨by decide +kernel, sound_of _ _ _ rfl (by decide +kernel), sound_of _ _ _ rfl (by decide +kernel), by decide +kernel, sound_of _ _ _ rfl (by decide +kernel), by decide +kernel, by decide +kernel,
    sound_of _ _ _ rfl (by decide +kernel), by decide +kernel, by decide +kernel, by decide +kernel, sound_of _ _ _ rfl (by decide +kernel), by decide +kernel, sound_of _ _ _ rfl (by decide +kernel)⟩
def blockR (c : Nat) : Req := { reqOf 0x13 1 .running with desc := descOf 0x13 1 [(56, leBytes 8 0x7000)], cur := some .index, doubt := c }
theorem witness_WaitsEnd_block : let s := holds up (blockR 0)
    s.running = true ∧ s.req? 0 = some (blockR 0) ∧ (blockR 0).statusAddr ≠ 0 ∧ s.inFlr 0 = false ∧ (s.port 0).linkUp = true ∧ (blockR 1).doubt ≠ 0 := by
  refine ⟨?_, rfl, ?_, ?_, ?_, ?_⟩ <;> decide +kernel
/-- A length of 5 µs waits for a multiple. -/
def resized (k : Nat) : State := { up with newel := { up.newel with pend := some k } }
theorem witness_BoundaryClock : (resized 5000).running = true ∧ (resized 5000).newel.nextB % 5000 = 0 ∧ (resized 7000).newel.nextB % 7000 ≠ 0 := by decide +kernel
theorem witness_BudgetRefill : SMap.find up.tenants 1 = some { cfg := 0xFFFF0001, rate := 0x6400000064, own := 100 } := by decide +kernel

/-! ## Tasks and steps -/

def decodeT (slot : Nat) : Task := { slot := slot, stage := .decode, cls := 3, home := 0, shard := some 0 }
def batched (n : Nat) : State := { holds up (reqOf 3 0 .running) with
  regs := [(Reg.partCtrl 0, 1), (Reg.partWings 0, 1), (Reg.partDecodeBatch 0, BitVec.ofNat 64 n)], lands := [(0, { landDefault 0 with batch := [(0, [decodeT 0])] })] }
def loaded (l : Nat) : State := { up with lands := [(l, { landDefault l with lev2 := [{ stage := .scan }] })] }
theorem witness_TasksStart : (batched 1).landPart 0 = some 0 ∧ (SMap.at ((batched 1).land 0).batch 0 []).length = 1 ∧ bitsW ((batched 1).reg (Reg.partDecodeBatch 0)) 9 0 = 1
      ∧ bitsW ((batched 2).reg (Reg.partDecodeBatch 0)) 9 0 = 2 ∧ ((batched 1).land 0).phys ≠ none ∧ ((batched 1).land 0).queued < 256 := by decide +kernel
theorem witness_TasksStart_take : let x : Task := { stage := .scan }
    let s := loaded 0
    let v := { loaded 1 with regs := (Reg.partSteal 0, 1) :: (loaded 1).regs }
    s.running = true ∧ s.landPart 0 = some 0 ∧ s.power.dormant = false ∧ (s.land 0).phys ≠ none ∧ (s.land 0).running = [] ∧ landWing 0 ∉ s.power.wings ∧ (s.proc (8 + landDie 0)).state ≠ 3
      ∧ (s.part 0).backlog = [] ∧ (s.land 0).urgent = some 2 ∧ ((s.land 0).level 2).getLast? = some x ∧ (v.land 0).urgent = none ∧ (v.victims 0 0).head? = some 1 ∧ (v.land 1).urgent = some 2
      ∧ ((v.land 1).level 2).head? = some x := by decide +kernel
/-- Landing 1 holds a speculative task, and the partition lets an eighth of its landings run one. -/
def drafting : State := { up with regs := (Reg.partSteal 0, 1) :: (Reg.partSpec 0, 0x11) :: up.regs, lands := [(1, { landDefault 1 with spec := [{ stage := .rerank, spec := true }] })] }
theorem witness_TasksStart_spec : let s := drafting
    s.running = true ∧ s.landPart 0 = some 0 ∧ (s.part 0).backlog = [] ∧ (s.land 0).urgent = none ∧ (∀ w ∈ s.victims 0 0, (s.land w).urgent = none) ∧ (0 :: s.victims 0 0).take 2 = [0, 1] ∧ (s.land 0).spec = []
      ∧ (s.land 1).spec.head? = some { stage := .rerank, spec := true } ∧ s.specRoom 0 { stage := .rerank, spec := true } = true
      ∧ (∀ w ∈ 0 :: (loaded 9).victims 0 0, ((loaded 9).land w).urgent = none ∧ ((loaded 9).land w).spec = []) := by decide +kernel
/-- Landing 0 runs task 0 of a scan step; the last task of its request, or the first of two. -/
def runT : RunTask := { task := { stage := .scan } }
def scanR (ts : List Nat) (c : Nat) : Req := { reqOf 2 0 .running with cur := some .scan, tasks := ts, doubt := c }
def taskState (r : Req) : State := { holds up r with lands := [(0, { landDefault 0 with running := [runT] })] }
def report (fs : List TaskFault) : TaskReport := { ops := [], faults := fs, events := [], outputs := true, storeReads := false }
theorem witness_TasksEnd : ∀ r ∈ [scanR [0, 1] 0, scanR [0] 1], let s := taskState r
    let id := stepIdOf 0 .scan 0
    s.running = true ∧ (s.land 0).phys = some 0 ∧ (s.land 0).running.find? (fun y => stepIdOf y.task.slot y.task.stage y.task.seq == id) = some runT ∧ (s.land 0).injRes = none ∧ (s.land 0).injEcc = none
      ∧ s.taskWaits runT.task (report []) = false ∧ s.taskWaits runT.task (report [.residue 0 1 0]) = false ∧ s.req? 0 = some r ∧ r.cur = some .scan ∧ 0 ∈ r.tasks := by
  intro r hr
  simp only [List.mem_cons, List.not_mem_nil, or_false] at hr
  rcases hr with rfl | rfl <;> (refine ⟨?_, ?_, ?_, ?_, ?_, ?_, ?_, rfl, ?_, ?_⟩ <;> decide +kernel)
def partialOf (i g : Nat) : PartialMsg := { slot := 0, group := 0, total := 4, index := i, spec := false, task := 0, fold := .add, dieFrom := 0, phyFrom := 3, gen := g, values := [1] }
/-- The group of `partialOf` after its first partial, and a buffer that other groups fill. -/
def folding : State := { holds up (reqOf 2 0 .running) with lands := [(0, { landDefault 0 with combine := [{ total := 4, next := 1, acc := [1] }] })] }
def crowded : State := { holds up (reqOf 2 0 .running) with lands := [(0, { landDefault 0 with combine := (List.range 512).map fun i => { slot := 1, group := i, total := 4 } })] }
theorem witness_TasksEnd_partial : let s := folding
    s.running = true ∧ (s.land 0).phys ≠ none ∧ (partialOf 3 0).index < (partialOf 3 0).total ∧ s.req? 0 ≠ none ∧ (partialOf 1 1).gen ≠ (s.phys (physKey 0 3)).gen ∧ (partialOf 1 0).gen = (s.phys (physKey 0 3)).gen
      ∧ ((s.land 0).combine.headD {}).next = 1 ∧ ((s.land 0).combine.headD {}).held = [] ∧ (partialOf 0 0).index < 1 ∧ (crowded.land 0).combineFree = 0 ∧ crowded.req? 0 ≠ none := by decide +kernel
theorem witness_StepsEnd : let r := { reqOf 4 0 .running with cur := some Stage.tokenise }
    (holds up r).running = true ∧ (holds up r).req? 0 = some r ∧ r.cur = some .tokenise ∧ r.phase = .running ∧ 0 ∉ ((holds up r).arcade 0).busy ∧ 0 ∈ (({ holds up r with arcades := [(0, { busy := [0] })] } : State).arcade 0).busy :=
  ⟨by decide +kernel, rfl, rfl, rfl, by decide, by decide⟩
theorem witness_StepsEnd_check : let r := { reqOf 3 0 .running with cur := some Stage.checkPass }
    (holds up r).req? 0 = some r ∧ r.cur = some .checkPass ∧ (holds up r).procRuns (slotVest 0) = true ∧ r.doubt = 0 := ⟨rfl, rfl, by decide +kernel, rfl⟩

/-! ## The Balustrade and commits -/

/-- An update of index 0 that deletes passage 1 is in commit; the index holds it, or not. -/
def deleteR : Req := { reqOf 0x11 0 .commit with desc := descOf 0x11 0 [(40, leBytes 8 0x9000), (48, leBytes 4 8), (72, leBytes 4 1), (76, leBytes 2 16)], xs := { listData := bytesOf 16 [(0, leBytes 8 1)] } }
def emptyIndex : State := { up with objs := { indexes := [(0, { state := 2, block := bytesOf 256 [(12, leBytes 4 1)] })] } }
def oneEntry : State := { up with objs := { indexes := [(0, { state := 2, block := bytesOf 256 [(12, leBytes 4 1)], rooms := [(0, [{ main := [{ id := 1 }] }])], mapO := [{ id := 1 }] })] } }
theorem witness_FinalCheck : let a := { reqOf 4 0 .balustrade with ending := some 0, writes := [(0x9000, [1#8])] }
    let b := { reqOf 4 0 .balustrade with desc := descOf 4 0 [(48, leBytes 4 16)], doubt := 1 }
    let c := { deleteR with phase := .balustrade }
    let d := { reqOf 2 0 .balustrade with peer := some (1, 9) }
    (holds up a).sound 0 a ∧ a.commits = false ∧ a.opc ≠ 0x13 ∧ (holds up { b with doubt := 0 }).closable 0 { b with doubt := 0 } ∧ b.doubt ≠ 0 ∧ b.resLen ≠ 0 ∧ c.peer = none ∧ c.commits = true ∧ (holds oneEntry c).req? 0 = some c
      ∧ ((holds oneEntry c).advance 5).emptyNow 0 c = none ∧ (((holds emptyIndex c).advance 5).emptyNow 0 c).isSome = true
      ∧ (holds up d).req? 0 = some d ∧ d.doubt = 0 ∧ d.ending = none :=
  ⟨sound_of _ _ _ rfl (by decide +kernel), by decide +kernel, by decide +kernel, (sound_of _ _ _ rfl (by decide +kernel)).close, by decide, by decide +kernel, rfl, by decide +kernel, rfl, by decide +kernel, by decide +kernel, rfl, rfl, rfl⟩
theorem witness_FinalCheck_empty : (holds emptyIndex { deleteR with phase := .balustrade }).sound 0 { deleteR with phase := .balustrade } := sound_of _ _ _ rfl (by decide +kernel)
theorem witness_FinalCheck_withheld : let b := { reqOf 4 0 .balustrade with desc := descOf 4 0 [(48, leBytes 4 16)], doubt := 1 }
    (holds up b).closable 0 b ∧ b.doubt ≠ 0 ∧ b.resLen ≠ 0 := ⟨⟨rfl, rfl, by decide +kernel, rfl, by decide +kernel, by decide +kernel⟩, by decide, by decide +kernel⟩

def results (s : State) (r : Req) : List RecResult :=
  (runBatch (fun z b => z.recOne (r.objId % 8) r.opc (Blob.u16 r.desc 76) s.openEpoch b) (splitRecords r.xs.listData (Blob.u16 r.desc 76) (Blob.u32 r.desc 72)) (s.advance 5)).2

def warned : State := { up with power := { up.power with warn := some {} } }
theorem witness_IndexCommits : let f := { reqOf 0x14 0 .commit with desc := descOf 0x14 0 [(64, leBytes 1 2)] }
    (holds warned deleteR).power.warn = some {} ∧ deleteR.xs.deferSeq = 0 ∧ deleteR.phase = .commit ∧ (holds up f).power.warn = none ∧ (holds up f).commitTurn 0 f = true ∧ f.opc = 0x14
      ∧ (holds oneEntry deleteR).commitTurn 0 deleteR = true ∧ deleteR.opc = 0x11 ∧ applied (results (holds oneEntry deleteR) deleteR) = 1 ∧ applied (results (holds emptyIndex deleteR) deleteR) = 0 := by decide +kernel
theorem witness_IndexCommits_sound : (holds emptyIndex deleteR).sound 0 deleteR := sound_of _ _ _ rfl (by decide +kernel)
/-- A deferred commit of another request stands before it. -/
def behind : State := { up with reqs := [(0, deleteR), (1, { deleteR with xs := { deleteR.xs with deferSeq := 1 } })], nextOrder := 2 }
def switchR : Req := { reqOf 0x13 1 .commit with cur := some .index, xs := { consBatch := [0] } }
def tight (b : Nat) : State := { up with objs := { indexes := [(0, { state := 2, block := bytesOf 256 [(12, leBytes 4 1), (24, leBytes 8 b), (36, leBytes 1 1)], gran := [(0, 64)], rooms := [(0, [{ annex := [{ id := 1, ins := 1 }] }])] })] } }
theorem witness_IndexCommits_switch : behind.commitTurn 0 deleteR = false ∧ (holds (tight 9) switchR).commitTurn 0 switchR = true ∧ switchR.opc = 0x13
      ∧ (tight 9).batchFits ((tight 9).index 0) 0 [0] = true ∧ (tight 1).batchFits ((tight 1).index 0) 0 [0] = false
      ∧ ((tight 1).index 0).reclaimPending = false := by decide +kernel
def versions : State := { up with objs := { epoch := 5, indexes := [(0, { state := 2, rooms := [(0, [{ sw := 5 }, { sw := 3 }, { sw := 0 }])] })] } }
theorem witness_IndexCommits_reclaim : versions.running = true ∧ 0 < 8 ∧ (versions.index 0).state ≠ 0 ∧ SMap.find (versions.index 0).rooms 0 = some [{ sw := 5 }, { sw := 3 }, { sw := 0 }] ∧ 5 ≤ versions.objs.epoch
      ∧ (∀ k ∈ versions.snapshots, 5 ≤ k) ∧ ¬ (6 ≤ versions.objs.epoch) := by decide +kernel

/-! ## Tables and peers -/

/-- Table 1: 64 rows of two FP32 elements; a peers mask, a stripe of one row, Hall die 0. -/
def tableOf_ (peers hot : Nat) : Table := { rec_ := bytesOf 64 [(4, leBytes 2 2), (8, leBytes 8 64), (17, leBytes 1 1), (18, leBytes 2 peers), (24, leBytes 4 hot), (32, leBytes 4 0xFFFFFF00)] }
def updateR (fl : Nat) (ds : List Delta) : Req := { reqOf 0x22 0 .running with cur := some .update, desc := descOf 0x22 0 [(20, leBytes 4 1), (89, leBytes 1 fl)], xs := { tab := { deltas := ds } } }
def updates (peers fl : Nat) (ds : List Delta) : State := { holds up (updateR fl ds) with objs := { tables := [(1, tableOf_ peers 0)] } }
theorem witness_TableUpdates : ∀ fl ∈ [0, 4], let x : Delta := { row := 3, vals := [0x3F800000, 0] }
    let y : Delta := { row := 3, raw := some (zeros 8) }
    let s := updates 1 fl [x]
    s.running = true ∧ s.req? 0 = some (updateR fl [x]) ∧ (updateR fl [x]).cur = some .update ∧ tabNum (updateR fl [x]).objId = 1 ∧ s.table 1 = some (tableOf_ 1 0) ∧ (tableOf_ 1 0).owner 3 = s.gal.moduleId
      ∧ (tableOf_ 2 0).owner 3 ≠ s.gal.moduleId ∧ (updateR fl [x]).deterministic = decide (fl = 4) ∧ (updateR fl [y, y]).xs.tab.deltas[1]? = some y ∧ y ∈ (updateR fl [y, y]).xs.tab.deltas.take 1
      ∧ (stagedRows s.member (tableOf_ 1 0) s.gal.moduleId ((tableOf_ 1 0).die s.member 3) [x]).length < 1048576 ∧ (updates 2 fl [x]).req? 0 = some (updateR fl [x]) := by
  intro fl h
  simp only [List.mem_cons, List.not_mem_nil, or_false] at h
  rcases h with rfl | rfl <;> (refine ⟨?_, rfl, rfl, ?_, ?_, ?_, ?_, ?_, ?_, ?_, ?_, rfl⟩ <;> decide +kernel)
theorem witness_TableUpdates_staged : let x : Delta := { row := 3, vals := [0x3F800000, 0], done := true }
    let s := updates 1 4 [x, x]
    s.req? 0 = some (updateR 4 [x, x]) ∧ (updateR 4 [x, x]).deterministic = true ∧ (∀ y ∈ (updateR 4 [x, x]).xs.tab.deltas, y.done = true) ∧ s.table 1 = some (tableOf_ 1 0) ∧ (tableOf_ 1 0).owner 3 = s.gal.moduleId :=
  ⟨rfl, by decide +kernel, by decide +kernel, by decide +kernel, by decide +kernel⟩
/-- A delta staged by a deterministic step of a peer is held by its source key and added when it asks for that (R327, R329); source: the deltas of record 4 and 1 of one row, 1.0 and 2.0. -/
theorem test_remote_staging : let d := fun k v : Nat => Delta.mk k 3 [BitVec.ofNat 32 v, 0] none true false false
    (stageInsert (d 1 0x40000000) (stageInsert (d 4 0x3F800000) [])).map (·.key) = [1, 4]
      ∧ ((tableOf_ 1 0).applyDeltas [d 1 0x40000000, d 4 0x3F800000]).row 3 = [0x40400000, 0] := by decide +kernel
def hotTable (k : Option Nat) : State := { up with regs := (Reg.memPinRegion 0, 0x50003) :: up.regs, newel := { up.newel with treads := 100 }, objs := { tables := [(1, { tableOf_ 1 8 with rebuilt := k })] } }
theorem witness_TableUpdates_rebuild : ∀ k ∈ [none, some 36], let s := hotTable k
    let x := { tableOf_ 1 8 with rebuilt := k }
    s.running = true ∧ s.procRuns (8 + 0) = true ∧ s.table 1 = some x ∧ x.hotAt ≠ 0 ∧ (setBitsOf 8 x.dieMask).head? = some 0 ∧ 64 ≤ s.newel.treads - 36 ∧ s.replicated x = true ∧ s.updating 1 = false := by
  intro k h
  simp only [List.mem_cons, List.not_mem_nil, or_false] at h
  rcases h with rfl | rfl <;> decide +kernel

/-- Peer 2 is present on Gallery port 1, with an export region open to it. -/
def peered : State := { up with
  gal := { enabled := true, ports := [(1, { state := 2, lanes := 8, peer := 2 })], peers := [(2, { state := 2, port := 1 })] }
  regs := (Reg.galPortCtrl 1, 3) :: (Reg.galExportBase 0, 1) :: (Reg.galExportCfg 0, 0x400000001) :: (Reg.galLoss, 1000) :: up.regs
  objs := { tables := [(1, tableOf_ 1 0)] } }
theorem witness_PeerAccess : let s := peered
    let m : RemoteAdd := { tag := 9, table := 1, crc := 0, row := 63, work := .stage 5 [0, 0] }
    let x := tableOf_ 1 0
    s.running = true ∧ (s.peer 2).state = 2 ∧ s.table 1 = some x ∧ x.crc = m.crc ∧ m.row < x.nRows ∧ x.owner m.row = s.gal.moduleId ∧ x.destroying = false ∧ x.nRows ≤ 64
      ∧ bitsN 2097152 63 60 = s.gal.moduleId ∧ bitW (s.reg (Reg.galExportBase (bitsN 2097120 59 56))) 0 = true ∧ bitW (s.reg (Reg.galExportCfg 0)) (32 + 2) = true
      ∧ bitsN 2097120 55 0 + 32 ≤ bitsW (s.reg (Reg.galExportCfg 0)) 18 0 * 2097152 ∧ bitsW (s.reg (Reg.galExportCfg 0)) 18 0 * 2097152 < bitsN 2097121 55 0 + 32
      ∧ 2 ^ 64 ≤ 2 ^ 96 + 1 * 2 ^ 44 + 5 ∧ bitsN (2 ^ 96 + 1 * 2 ^ 44 + 5) 59 44 = 1 ∧ bitsN (2 ^ 96 + 1 * 2 ^ 44 + 5) 95 64 = x.crc ∧ bitsN (2 ^ 96 + 1 * 2 ^ 44 + 5) 43 0 < x.nRows
      ∧ s.objs.stageBy = none ∧ s.objs.stageWait = [] ∧ (∀ e ∈ s.reqs, ¬ (e.2.cur = some .update ∧ e.2.deterministic = true)) ∧ ofRow m.work = true ∧ ofRow .apply = false
      ∧ (stagedRows s.member x s.gal.moduleId (x.die s.member 63) s.objs.staged).length < 1048576 := by decide +kernel
/-- A deterministic step that waits for module 2's staging buffers, or for its application (R329). -/
def stagingR (l : List Nat) : Req := { updateR 4 [] with xs := { tab := { acquire := l, applying := [2] } } }
theorem witness_PeerStaging : ∀ l ∈ [[2], [2, 5], []], let s := holds peered (stagingR l)
    s.running = true ∧ (s.peer 2).state = 2 ∧ s.req? 0 = some (stagingR l) ∧ (stagingR l).xs.tab.acquire = l := by
  intro l h
  simp only [List.mem_cons, List.not_mem_nil, or_false] at h
  rcases h with rfl | rfl | rfl <;> decide +kernel

/-- Module 2 is reached by port 1 and reports a link to module 3, which reports one to module 4 (R395). -/
def meshed : State := { peered with gal := { peered.gal with peers := [(2, { state := 2, port := 1, links := [3] }), (3, { state := 2, links := [2, 4] }), (4, { state := 2 }), (5, { state := 2 })] } }
theorem test_routes : (List.map meshed.routeTo [2, 3, 4, 5]) = [(1, 1), (2, 1), (3, 1), (0, 0)] ∧ meshed.ownLinks = [2] := by decide +kernel

/-! ## Admin commands, the store, firmware -/

/-- The admin rings, of 16 elements, lie at 0x100000 and 0x110000, and one command waits. -/
def admins (ps : List (Nat × Blob)) (o : Nat) : State := { up with
  admin := { sq := 0x100041, cq := 0x110041, sqHost := 1 }
  hbm := ([(0, leBytes 1 o), (4, leBytes 4 7), (40, leBytes 8 0x120000), (48, leBytes 4 4096)] ++ ps).flatMap fun (p : Nat × Blob) => cells (0x100000 + p.1) p.2 }
theorem witness_AdminReads : (admins [] 0x81).adminFront 0x81 ∧ adminClean (admins [] 0x81).adminDesc [] = true ∧ 256 ≤ Blob.u32 (admins [] 0x81).adminDesc 48
      ∧ adminClean (admins [(52, [1#8])] 0x81).adminDesc [] = false ∧ (admins [(52, [1#8])] 0x81).adminFront 0x81 ∧ (up.advance 0).reach 0 = true
      ∧ (∀ n ∈ [1, 64], let s := admins [(68, leBytes 4 n)] 0x82
          s.adminFront 0x82 ∧ adminClean s.adminDesc [(64, 72)] = true ∧ Blob.u32 s.adminDesc 68 = n ∧ 64 * n ≤ Blob.u32 s.adminDesc 48)
      ∧ (admins [] 0x82).adminFront 0x82 ∧ Blob.u32 (admins [] 0x82).adminDesc 68 = 0
      ∧ (∀ p ∈ [(0, 0), (15, 3)], let s := admins [(64, leBytes 1 p.1), (65, leBytes 1 p.2)] 0x83
          s.adminFront 0x83 ∧ adminClean s.adminDesc [(64, 66)] = true ∧ Blob.u8 s.adminDesc 64 = p.1 ∧ Blob.u8 s.adminDesc 65 = p.2)
      ∧ (admins [(64, [16#8])] 0x83).adminFront 0x83 ∧ (admins [] 0x88).adminReady = true ∧ 0x87 < Blob.u8 (admins [] 0x88).adminDesc 0 := by decide +kernel

def storing (kind n : Nat) : State := admins [(64, leBytes 1 kind), (66, leBytes 2 n), (72, [5#8])] 0x84
theorem witness_StoreWrites : (∀ k ∈ [1, 2, 3, 5], let s := storing k (entryLen k)
        s.adminFront 0x84 ∧ adminClean s.adminDesc [(64, 65), (66, 68), (72, 136)] = true ∧ Blob.u8 s.adminDesc 64 = k ∧ Blob.u16 s.adminDesc 66 = entryLen k ∧ Blob.zeroIn s.adminDesc (72 + entryLen k) 136 = true)
      ∧ (storing 4 4).adminFront 0x84 ∧ (storing 6 4).adminFront 0x84 ∧ Blob.u8 (storing 6 4).adminDesc 64 ∉ [1, 2, 3, 5] ∧ (storing 1 7).adminFront 0x84 ∧ entryLen 1 ≠ 7 ∧ (storing 1 8).store.tokens ≠ 0
      ∧ (admins [] 0x86).adminFront 0x86 ∧ adminClean (admins [] 0x86).adminDesc [] = true ∧ (admins [] 0x86).fw.svn ≤ (admins [] 0x86).store.floor
      ∧ ({ admins [] 0x86 with fw := { up.fw with svn := 3 } } : State).adminFront 0x86 ∧ ({ admins [] 0x86 with fw := { up.fw with svn := 3 } } : State).store.floor < 3 := by decide +kernel
def writing : State := { admins [] 0x81 with store := { write := some { kind := 1, payload := leBytes 8 0x200 } } }
theorem witness_StoreWrites_complete : writing.store.write = some { kind := 1, payload := leBytes 8 0x200 } ∧ writing.running = true ∧ writing.procRuns 4 = true
      ∧ writing.store.written { kind := 1, payload := leBytes 8 0x200 } = { seq := 1, entries := [(1, leBytes 8 0x200)] } := by decide +kernel
/-- A bank reads back as it was written; one whose last byte is lost is invalid (R492, R495). -/
theorem test_bank_image : let b : Bank := { seq := 1, entries := [(1, leBytes 8 0x200)] }
    Bank.parse b.image = some b ∧ b.image.length = 64 + 12 ∧ Bank.parse b.image.dropLast = none ∧ (({ mirror := mirrorImage 9 } : Store)).mirrorFloor = some 9 := by decide +kernel

theorem witness_AdminRepairs : let a := admins [(65, [50#8])] 0x85
    let b := admins [(64, [8#8])] 0x87
    let c := { b with fw := { b.fw with procs := (8, { state := 3 }) :: b.fw.procs.filter fun e => e.1 != 8 } }
    a.adminFront 0x85 ∧ adminClean a.adminDesc [(64, 66)] = true ∧ Blob.u8 a.adminDesc 65 = 50 ∧ 64 ≤ Blob.u32 a.adminDesc 48 ∧ (a.phys (physKey 0 50)).state = 1 ∧ (a.phys (physKey 0 50)).reserved = none
      ∧ (a.phys (physKey 0 50)).logical = none ∧ (admins [] 0x85).adminFront 0x85 ∧ (a.phys (physKey 0 0)).state = 0 ∧ c.adminFront 0x87 ∧ adminClean c.adminDesc [(64, 65)] = true ∧ (c.proc 8).state = 3
      ∧ b.adminFront 0x87 ∧ (b.proc 8).state ≠ 3 := by decide +kernel

/-- The load state n with an image of 1,024 bytes that names FW_LOAD_LEN, a right magic number and a directory without sections, or nothing. -/
def loading (n : Nat) (b : Blob) : State := { up with fw := { state := n, image := b }, regs := [(Reg.fwLoadLen, 1024)] }
def headOnly : Blob := bytesOf 1024 [(0, leBytes 4 0x4C46574D), (4, leBytes 4 512), (8, leBytes 8 1024)]
theorem witness_FirmwareLoad : (loading 0 []).ownerAt 5 0 ∧ (loading 0 []).fw.state = 0 ∧ (loading 4 []).ownerAt 5 0 ∧ (loading 4 []).fw.state = 4 ∧ (loading 3 []).ownerAt 5 0 ∧ (loading 3 []).fw.state = 3
      ∧ (loading 1 []).running = true ∧ imgHeaderOk [] 1024 = false ∧ imgHeaderOk headOnly 1024 = true ∧ imgDirOk headOnly = false ∧ (loading 2 headOnly).running = true ∧ (loading 2 headOnly).fw.state = 2
      ∧ 4 ∈ memberProcs .e32 ∧ 16 ∉ memberProcs .e32 := by decide +kernel

/-- An image of the six directory entries, empty, signed with the private key 1: its key is the curve's base point, whose SM3 is the fused root hash. -/
def signedImage : Blob := bytesOf 512 ([(0, leBytes 4 0x4C46574D), (4, leBytes 4 512), (8, leBytes 8 512), (28, leBytes 4 0x01010101), (32, leBytes 4 1), (36, leBytes 4 6),
  (40, beBytes 32 sm2Gx), (72, beBytes 32 sm2Gy), (104, beBytes 32 0x527fc58357c3b536fb5c02d5759a9bf41b70edc178c0b5dc36413ad550b0f4cd),
  (136, beBytes 32 0xb835e03d5b37a98176e0426ce69313ca0c5d6f0942a26da66459956ae7f42000), (168, beBytes 32 0xa3e50fe052642b3f448fdec98cb6761a6bd527e68074ce58218f2953c5db3124)]
  ++ (List.range 6).flatMap fun i => [(256 + 16 * i, leBytes 1 (i + 1)), (264 + 16 * i, leBytes 8 512)])
theorem test_image_digest : imgDigest signedImage = Blob.slice signedImage 104 32 := by decide +kernel
theorem test_image_root : sm3 (Blob.slice signedImage 40 64) = ({} : Fuses).rootHash := by decide +kernel

theorem test_image_signature : sm2Verify (Blob.slice signedImage 40 64) (Blob.slice signedImage 104 32) (Blob.slice signedImage 136 64) = true := by decide +kernel
/-- The seven checks of a loaded image, with a floor of n (R418). -/
def signed (n : Nat) : State := { up with fw := { state := 1, image := signedImage }, regs := [(Reg.fwLoadLen, 512)], store := { up.store with mirror := mirrorImage n } }
def checksOf (s : State) : List Bool :=
  let b := s.fw.image
  [imgHeaderOk b (s.regN Reg.fwLoadLen), imgDirOk b, bitN (Blob.u32 b 32) s.member.imageBit && Blob.u32 b 28 == s.fuses.behaviour, sm3 (Blob.slice b 40 64) == s.fuses.rootHash,
    imgDigest b == Blob.slice b 104 32, sm2Verify (Blob.slice b 40 64) (Blob.slice b 104 32) (Blob.slice b 136 64), decide (s.store.floor ≤ Blob.u32 b 24)]
theorem checksOf_signed (n : Nat) : checksOf (signed n) = [true, true, true, true, true, true, decide ((signed n).store.floor ≤ 0)] := by
  have h1 : imgHeaderOk signedImage 512 = true := by decide +kernel
  have h2 : imgDirOk signedImage = true := by decide +kernel
  have h3 : (bitN (Blob.u32 signedImage 32) up.member.imageBit && Blob.u32 signedImage 28 == up.fuses.behaviour) = true := by decide +kernel
  have h4 : (sm3 (Blob.slice signedImage 40 64) == up.fuses.rootHash) = true := by decide +kernel
  have h5 : (imgDigest signedImage == Blob.slice signedImage 104 32) = true := by decide +kernel
  have h7 : Blob.u32 signedImage 24 = 0 := by decide +kernel
  have h8 : (signed n).regN Reg.fwLoadLen = 512 := by simp [signed, State.regN, State.reg, SMap.find]
  simp only [checksOf, show (signed n).fw.image = signedImage from rfl, show (signed n).member = up.member from rfl, show (signed n).fuses = up.fuses from rfl, h1, h2, h3, h4, h5, h7, h8, test_image_signature]
theorem witness_FirmwareLoad_passes : (signed 0).running = true ∧ (signed 0).fw.state = 1 ∧ (∀ c ∈ checksOf (signed 0), c = true) ∧ (∀ c ∈ (checksOf (signed 1)).take 6, c = true)
      ∧ (checksOf (signed 1)).getD 6 true = false := by
  rw [checksOf_signed, checksOf_signed]; decide +kernel

def expired (i : Nat) (l : List Nat) : State := { up with fw := { up.fw with procs := (i, { state := 1, expiries := l }) :: up.fw.procs.filter fun e => e.1 != i } }
theorem witness_Watchdogs : up.running = true ∧ (up.proc 0).state = 1 ∧ (∀ i ∈ [4, 8], let s := expired i [3, 2]
        (s.proc i).state = 1 ∧ ((s.proc i).expiries.filter fun e => decide ((s.advance 5).now < e + 10000000000)).length = 2)
      ∧ bitW (up.reg (Reg.partCtrl 0)) 0 = true ∧ bitW (up.reg (Reg.partWings 0)) (6 * (8 - 8) + 0) = true := by decide +kernel
def restarting : State := { up with fw := { up.fw with procs := [(7, { state := 2 })] } }
theorem witness_Watchdogs_ready : restarting.running = true ∧ (restarting.proc 7).state = 2 := by decide +kernel
theorem witness_ProcessorCommand : up.ownerAt 5 0 ∧ (up.proc 8).state = 1 ∧ (restarting.proc 8).state ≠ 1 ∧ restarting.ownerAt 5 0 ∧ (let r := { scanR [0] 0 with homes := [3] }
      (holds up r).req? 0 = some r ∧ r.cur ≠ none ∧ landDie 3 = 8 - 8 ∧ (holds up r).ownerAt 5 0) := by
  refine ⟨?_, ?_, ?_, ?_, rfl, ?_, ?_, ?_⟩ <;> decide +kernel

/-! ## Landings, edges, scrubbing, injections -/

/-- The counter stands at k. -/
def atTime (k : Nat) (s : State) : State := { s with newel := { s.newel with time := k, nextB := k + 25000 } }
/-- Physical landing 0 of Hall die 0 in state n, without a logical landing; the firmware's load state. -/
def under (n fw : Nat) : State := { up with lands := [(0, { phys := none })], flt := { phys := [(0, { state := n })] }, fw := { up.fw with state := fw } }
theorem witness_LandingFaults : up.ownerAt 5 0 ∧ 51 < 52 ∧ 7 < up.member.halls ∧ (up.phys (physKey 7 51)).state ≠ 2 ∧ (under 2 3).ownerAt 5 0 ∧ ((under 2 3).phys (physKey 0 0)).state = 2
      ∧ (let s := atTime 2000000 { taskState (scanR [0] 0) with regs := [(Reg.fltPolicy, 0x1000000)] }
         s.running = true ∧ (s.land 0).phys = some 0 ∧ (s.phys 0).state ≠ 2 ∧ runT ∈ (s.land 0).running ∧ runT.start + bitsW (s.reg Reg.fltPolicy) 31 24 * 1000000 < (s.advance 0).now)
      ∧ ((under 3 3).phys (physKey 0 0)).state = 3 ∧ (under 3 3).shortId 0 = some 0
      ∧ (let s := { under 3 3 with lands := [] }
         s.shortId 0 = none ∧ (s.phys (physKey 0 0)).state = 3)
      ∧ ((under 1 2).phys (physKey 0 0)).state = 1 ∧ (under 1 2).fw.state = 2 ∧ (up.phys (physKey 0 48)).state = 1 ∧ (up.phys (physKey 0 48)).reserved = none ∧ (up.phys (physKey 0 48)).logical = none := by decide +kernel
theorem witness_FaultEvents : up.running = true ∧ edgePresent up.member 23 = true ∧ bitN up.flt.edges 23 = false ∧ edgePresent up.member 24 = false ∧ 1 ≠ (up.phys (physKey 7 51)).gen ∧ up.ownerAt 5 0 ∧ 383 < up.member.landings
      ∧ bitW (up.reg Reg.fltLock) 0 = false ∧ bitW (({ up with regs := [(Reg.fltLock, 1)] } : State).reg Reg.fltLock) 0 = true ∧ bitW (({ up with regs := [(Reg.memLend, 0)] } : State).reg Reg.memLend) 0 = false
      ∧ (let s := { up with regs := (Reg.memLend, 0x111) :: up.regs, lands := [(0, landDefault 0)] }
         s.running = true ∧ bitW (s.reg Reg.memLend) 0 = true ∧ (s.land 0).phys ≠ none ∧ s.landPart 0 ≠ none ∧ (s.land 0).queued = 0 ∧ (s.land 0).running = [] ∧
           (s.land 0).idleFrom + bitsW (s.reg Reg.memLend) 7 4 * s.newel.len ≤ (s.advance 25000).now ∧ 524288 ≤ bitsW (s.reg Reg.memLend) 11 8 * 524288) := by decide +kernel
def scrubbed : State := { up with flt := { granules := [(1, [0])] } }
theorem witness_Scrubbing : scrubbed.running = true ∧ scrubbed.power.dormant = false ∧ scrubbed.inWindow (SMap.at scrubbed.flt.granules (2097152 / 2097152) []) ≠ [] ∧ 2097152 / 2097152 ∉ scrubbed.flt.retired ∧ 0 ≤ scrubbed.now := by
  decide +kernel

/-! ## Resets -/

def resetFn (x : Fn) : State := { up with fns := [(0, up.fnOf 0), (1, x)] }
theorem witness_FunctionResets : up.reach 0 = true ∧ up.inFlr 0 = false ∧ (let r := reqOf 4 0 .waiting
      (holds up r).req? 0 = some r ∧ r.fn = 0 ∧ r.peer = none) ∧ (let r := reqOf 4 0 .running
      (holds up r).req? 0 = some r ∧ ((holds up r).advance 5).tokensQueued 0 = [])
      ∧ (resetFn { flr := some 0 }).inFlr 1 = true ∧ ((resetFn { flr := some 0 }).advance 5).reqsOfFn 1 = [] ∧ ((resetFn { flr := some 0 }).fnOf 1).flr = some 0 ∧ 0 + 10000000 ≤ ((atTime 10000000 (resetFn { flr := some 0 })).advance 0).now := by
  refine ⟨?_, ?_, ⟨rfl, ?_, ?_⟩, ⟨rfl, ?_⟩, ?_⟩ <;> decide +kernel
theorem witness_FunctionResets_virtual : (up.advance 5).reach 0 = true ∧ fnVf 0 = 0 ∧ (up.fnOf 0).vfEnable = false ∧ up.vfTotal + 63 ≤ 252 ∧ 63 < 64
      ∧ (let s := { up with fns := [(0, { up.fnOf 0 with vfEnable := true, numVfs := 2 })] }
         (s.advance 5).reach 0 = true ∧ (s.fnOf 0).vfEnable = true ∧ 1 < (s.fnOf 0).numVfs)
      ∧ up.running = true ∧ 3 < up.member.ports ∧ (up.port 0).linkUp = true ∧ 0 = up.ownerPort ∧ 0 < up.pfCount 0 := by decide +kernel

def inReset (pin m : Bool) : State := { up with power := { phase := .up, modrst := m }, rst := some { byPin := pin } }
theorem witness_ModuleResets : up.ownerAt 5 0 ∧ bitW (up.reg Reg.rstLock) 0 = false ∧ ({ up with regs := [(Reg.rstLock, 1)] } : State).ownerAt 5 0 ∧ bitW (({ up with regs := [(Reg.rstLock, 1)] } : State).reg Reg.rstLock) 0 = true
      ∧ up.power.phase = .up ∧ up.rst = none ∧ (200 ≤ 200 ∧ 149 < 150 ∧ 150 ≤ 150 ∧ 199 < 200 ∧ 4999 < 5000) ∧ (inReset false false).rst = some { byPin := false } ∧ (inReset false false).power.modrst = false
      ∧ (inReset true true).rst = some { byPin := true } ∧ (inReset true true).power.modrst = true ∧ (inReset true true).power.phase = .up ∧ State.reset.power.phase = .rails ∧ State.reset.power.modrst = false
      ∧ ({ State.reset with power := { modrst := true } } : State).power.phase = .rails
      ∧ 0 + 10000 ≤ ((inReset true true).advance 10000).now ∧ ((inReset true true).advance 9999).now < 0 + 10000 := by decide +kernel

def inPartReset (s : State) : State := { s with parts := [(0, { resetting := true })], fw := { state := 3 } }
theorem witness_PartitionResets : up.ownerAt 5 0 ∧ bitW (up.reg (Reg.partCtrl 0)) 0 = true ∧ (up.part 0).resetting = false ∧ bitW (up.reg (Reg.partCtrl 15)) 0 = false ∧ (inPartReset up).ownerAt 5 0
      ∧ ((inPartReset up).part 0).resetting = true ∧ (inPartReset up).running = true ∧ (∀ e ∈ (inPartReset up).reqs, e.2.part ≠ 0) ∧ (∀ e ∈ (inPartReset up).flt.phys, e.2.state = 3 → (inPartReset up).physIn 0 e.2 = false)
      ∧ (∃ e ∈ (holds up (reqOf 4 0 .running)).reqs, e.2.part = 0) ∧ 0 ∈ up.partLands 0 ∧ (counted.sync 0).live = true ∧ (counted.sync 0).part = 0 := by decide +kernel
theorem witness_PartitionResets_idle (i : Nat) : ((inPartReset up).proc i).state ≠ 2 := Nat.zero_ne_add_one 1
theorem witness_PartitionResets_request : let r := reqOf 4 0 .running
    (holds up r).req? 0 = some r ∧ r.part = 0 ∧ r.opc ≠ 0x13 ∧ r.phase = .running ∧ r.stopped = false ∧ (holds up r).ownerAt 5 0 := by
  refine ⟨rfl, rfl, ?_, rfl, rfl, ?_⟩ <;> decide +kernel

/-! ## The Aperture, loadable units, memory and tenant registers -/

theorem witness_ApertureAccess : up.ownerAt 5 0 ∧ 2 ^ 36 - 1 + [1#8].length ≤ 2 ^ 36 ∧ up.memWf = true ∧ bitsW up.admin.aptBase 39 21 * 2097152 + 0 + 8 ≤ up.member.hbmBytes
      ∧ (let s := { up with admin := { aptBase := 0x8700000000 } }
         s.ownerAt 5 0 ∧ s.member.hbmBytes ≤ bitsW s.admin.aptBase 39 21 * 2097152 + 0) := by decide +kernel

/-- The three selectors at an index, with walker word 127 staged or not, and the three locks. -/
def unitsAt (mp tbl walk : Nat) (l : Nat) (w : List (Nat × Word)) : State := { up with
  regs := [(Reg.sfuMpSel, BitVec.ofNat 64 (256 * mp)), (Reg.sfuTblSel, BitVec.ofNat 64 (1024 * tbl)), (Reg.memWalkSel, BitVec.ofNat 64 (256 * walk + 16)), (Reg.sfuLock, BitVec.ofNat 64 l), (Reg.memLock, BitVec.ofNat 64 l), (Reg.txtLock, BitVec.ofNat 64 l)]
  units := { walk := { staged := w } } }
theorem witness_LoadableUnits : (∀ i ∈ [0, 64, 65], (unitsAt i 1023 126 0 []).ownerAt 5 0 ∧ bitsW ((unitsAt i 1023 126 0 []).reg Reg.sfuMpSel) 14 8 = i) ∧ bitsW ((unitsAt 0 1023 126 0 []).reg Reg.sfuTblSel) 19 10 = 1023
      ∧ bitsW ((unitsAt 0 0 126 0 []).reg Reg.memWalkSel) 14 8 = 126 ∧ bitsW ((unitsAt 0 0 127 0 []).reg Reg.memWalkSel) 14 8 = 127 ∧ SMap.find (unitsAt 0 0 127 0 []).units.walk.staged 127 = none
      ∧ SMap.find (unitsAt 0 0 127 0 [(127, 1)]).units.walk.staged 127 ≠ none ∧ bitsW ((unitsAt 0 0 0 0 []).reg Reg.memWalkSel) 5 0 = 16 ∧ bitsW (up.reg Reg.memWalkSel) 5 0 < 16 ∧ (unitsAt 0 0 0 1 []).ownerAt 5 0
      ∧ bitW ((unitsAt 0 0 0 1 []).reg Reg.txtLock) 0 = true ∧ bitW (up.reg Reg.txtLock) 0 = false ∧ up.normUsed 0 = false ∧ Blob.u32 (Memory.readN up.hbm 0 0) 0 ≠ 0x4C4E524D := by decide +kernel
/-- A table image without records, and a model that uses slot 0. -/
def normBody : Blob := bytesOf 60 [(0, leBytes 4 0x4C4E524D), (4, leBytes 1 1), (56, leBytes 4 64)]
def normImage : Blob := normBody ++ leBytes 4 (crc32c normBody).toNat
theorem witness_LoadableUnits_norm : normImage.length = 64 ∧ normErr normImage = 0 ∧ (let s := { up with hbm := cells 0 normImage }
      Memory.readN s.hbm (s.regN Reg.txtNormSrc) (min (leNat (Memory.readN s.hbm (s.regN Reg.txtNormSrc + 56) 4)) 4194304) = normImage ∧ s.ownerAt 5 0) ∧ served.normUsed 0 = true := by decide +kernel

def pinned : State := { up with regs := [(Reg.memAlcPin 0, 0xFF), (Reg.memPcSet 0, 3)], objs := { tables := [(1, { tableOf_ 1 0 with set_ := 0, gran := [(0, 5)] })] } }
theorem witness_MemoryRegisters : up.rwlAt 5 0 Reg.memLock ∧ 3 < up.member.alcoves ∧ up.pinRefused 3 0x3FFF = false ∧ up.pinRefused 3 0x7FFF = true ∧ (31 < 32 ∧ 15 < 16 ∧ 7 < up.member.halls)
      ∧ bitW ((0 &&& 0xFFFFFFFF00FFFF37) ||| 0) 0 = false ∧ pinned.rwlAt 5 0 Reg.memLock ∧ pinned.regionBad 0 0x801 = true ∧ pinned.usedOn 0 0 ≠ 0 ∧ pinned.usedOn 1 0 = 0
      ∧ (pinned.regN (Reg.memPcSet (8 * 0 + 0)) &&& (1 &&& dieChannels pinned.member 0)) ≠ 0
      ∧ (∀ k, k < 16 → k ≠ 1 → (pinned.regN (Reg.memPcSet (8 * k + 0)) &&& (4 &&& dieChannels pinned.member 0)) = 0) := by decide +kernel
theorem witness_TenantRegisters : (∀ o ∈ [0x11000, 0x11F48], up.rwlAt 5 0 Reg.partLock ∧ partOff o = true ∧ (regAt o).isSome = true ∧ o % 0x100 ≠ 0x30) ∧ up.partRefused 0x11500 1 = none ∧ up.partRefused (Reg.partWings 0) 1 = some 1
      ∧ bitW (2 : Word) 1 ≠ bitW (up.reg (Reg.partCtrl 0)) 1 ∧ (up.regN (Reg.partWings 0) &&& 1) ≠ 0 ∧ bitW (up.reg (Reg.partCtrl 5)) 0 = false ∧ up.rwlAt 5 0 Reg.tenLock
      ∧ (∀ k ∈ [0x7FFFFFFF7FFFFFFF, 0x100000001, 0x100000000], let v := BitVec.ofNat 64 k; bitsW v 31 0 ≤ bitsW v 63 32 ∧ bitsW v 63 32 ≠ 0 ∧ bitsW v 63 32 < 2 ^ 31) ∧ bitsW (1 : Word) 63 32 < bitsW (1 : Word) 31 0
      ∧ up.tenRefused (0x22000 + 8 * 1011) 1 = 0 ∧ 0 = up.ownerPort ∧ up.ownerAt 5 0 ∧ bitW (1 : Word) 0 = true := by decide +kernel

/-! ## Time and counters -/

theorem witness_NewelRegisters : up.rwlAt 5 0 Reg.newelLock ∧ (∀ k ∈ [5, 500], let v := BitVec.ofNat 64 k; 5 ≤ bitsW v 8 0 ∧ bitsW v 8 0 ≤ 500) ∧ bitsW (501 : Word) 8 0 = 501 ∧ bitsW (4 : Word) 8 0 = 4
      ∧ bitsW (4 : Word) 1 0 = 0 ∧ bitsW (7 : Word) 1 0 ≠ 0 ∧ (up.advance 5).reach 0 = true ∧ fnVf 0 = 0
      ∧ (let s := atTime 1000000000 { up with regs := [(Reg.newelPpsOut, 0x10000)] }
         s.running = true ∧ bitW (s.reg Reg.newelPpsOut) 16 = true ∧ (s.advance 0).now % 1000000000 = 0) := by decide +kernel
/-- Source k; the servo in state v; master 9 heard at time 0, or none. -/
def sourced (k v : Nat) (p : Option Nat) : State := { peered with regs := (Reg.newelCtrl, BitVec.ofNat 64 (k + 32)) :: peered.regs
                                                                  newel := { servo := v, holdFrom := some 0, time := 2000000000000, nextB := 2000000025000, lastPulse := p, master := some 9, masters := [(9, { rank := 5, interval := 1000 })], reqT3 := some 7 } }
theorem witness_OffsetMeasurements : ∀ v ∈ [2, 3], let s := sourced 1 v none
    let q := sourced 2 v (some 5)
    let w := sourced 3 v none
    s.running = true ∧ (s.proc 4).state = 1 ∧ s.timeSrc = 1 ∧ s.newel.master = some 9 ∧ s.newel.reqT3 = some 7 ∧ q.timeSrc = 2 ∧ q.running = true ∧ (q.proc 4).state = 1 ∧ q.newel.lastPulse ≠ none
      ∧ q.reg Reg.newelTod = q.newel.todSeen ∧ w.timeSrc = 3 ∧ w.timePeer = 2 ∧ (w.peer 2).state = 2 ∧ w.running = true ∧ (w.proc 4).state = 1 ∧ q.newel.servo = v
      ∧ q.newel.lastPulse.getD 0 + 1500000000 ≤ (q.advance 0).now ∧ s.newel.syncT2 + 3 * (SMap.at s.newel.masters 9 {}).interval ≤ (s.advance 0).now ∧ s.newel.servo = v ∧ s.newel.holdFrom = some 0
      ∧ 0 + 1000000000000 ≤ (s.advance 0).now := by decide +kernel

/-- Landing 0 with full sampling buffers or not, which wrap or not; the counters frozen or not. -/
def counting (frozen : Bool) (cfg n : Nat) : State := { up with cnt := { frozen := frozen }, lands := [(0, { landDefault 0 with cnt := { smpCfg := 2147483648 + 256 + cfg, entries := (List.range n).map fun i => (i, []) } })] }
theorem witness_CounterEffects : (counting false 1 0).ownerAt 5 0 ∧ (counting true 1 0).ownerAt 5 0 ∧ 383 < up.member.landings ∧ landWing 0 ∉ up.power.wings ∧ 7 < 8 ∧ (up.fnOf 0).cntSel < up.member.landings
      ∧ bitsW (1 : Word) 7 0 ∈ eventCodes ∧ bitsW (1 : Word) 21 20 = 0 ∧ bitsW (0xFF : Word) 7 0 ≠ 0 ∧ bitsW (0xFF : Word) 7 0 ∉ eventCodes ∧ (counting false 1 0).running = true := by decide +kernel
theorem witness_CounterEffects_sample : (∀ n ∈ [1023, 1024], let s := counting false 1 n
        let c := (s.land 0).cnt
        s.running = true ∧ s.cnt.frozen = false ∧ bitN c.smpCfg 31 = true ∧ bitsN c.smpCfg 7 0 = 1 ∧ bitsN c.smpCfg 27 8 ≠ 0 ∧ eventOcc 1 = false ∧ c.entries.length = n ∧ bitN c.smpCfg 28 = false)
      ∧ bitN ((counting false (1 + 2 ^ 28) 1024).land 0).cnt.smpCfg 28 = true
      ∧ (∀ k ∈ [0, 256], let s := { up with regs := [(Reg.cntSchedCtrl 3, BitVec.ofNat 64 (k + 0x17))] }
          let ctl := s.reg (Reg.cntSchedCtrl 3)
          s.running = true ∧ bitW ctl 0 = true ∧ bitW ctl 4 = true ∧ bitN s.cnt.late 3 = false ∧ s.regN (Reg.cntSchedTime 3) ≤ (s.advance 5).now ∧ bitsW ctl 3 1 = 3 ∧ bitsW ctl 23 8 = k / 256 ∧ (s.advance 5).schedBefore 3 = [])
      ∧ up.schedDue 3 = false := by decide +kernel

/-! ## Register writes -/

theorem witness_RegisterWrites : up.ownerAt 5 0 ∧ fnVf 0 = 0 ∧ (∀ o ∈ [Reg.fltPolicy, Reg.pwrCap, Reg.pwrCtrl, Reg.memLend, Reg.galLoss, Reg.idxWarn, Reg.newelPpsOut], ((regAt o).map Prod.snd) = some 0 ∧
        (regAt o).any fun x => x.1.width == 64 || x.1.width == 32)
      ∧ (∀ o ∈ [Reg.pwrStatus, Reg.rstStatus, Reg.fltStatus, Reg.galStatus, Reg.memStatus, Reg.partStatus, Reg.tenStatus, Reg.newelStatus, Reg.cntStatus, Reg.idxStatus], (regAt o).map Prod.snd = some 0)
      ∧ ((regAt Reg.memLend).any fun x => up.valueOk x.1 0x111 && !up.valueOk x.1 0x101) = true ∧ ((regAt Reg.memLend).any fun x => x.1.access == .rwl) = true ∧ lockOf Reg.memLend = some Reg.memLock
      ∧ bitW (up.reg Reg.memLock) 0 = false ∧ ({ up with regs := [(Reg.memLock, 1)] } : State).ownerAt 5 0 ∧ bitW (({ up with regs := [(Reg.memLock, 1)] } : State).reg Reg.memLock) 0 = true
      ∧ fnVf 16 ≠ 0 ∧ 0x9000 ≤ 0x9000 := by decide +kernel
theorem witness_NonOwnerWrites : up.isOwner 1 = false ∧ up.isOwner 16 = false := by decide

/-! ## Supply, start-up, heat, power states -/

/-- The module with its power fields set. -/
def powered (p : Power) : State := { up with power := p }
theorem witness_SupplyEvents : up.power.phase = .up ∧ up.power.warn = none ∧ (powered { phase := .up, warn := some {} }).power.warn = some {} ∧ up.power.overrun = none
      ∧ (powered { phase := .up, overrun := some {} }).power.overrun = some {} ∧ (powered { phase := .up, warn := some {}, hold := some 0 }).power.hold = some 0
      ∧ (∀ k ∈ [99999, 100000], ((atTime k (powered { phase := .up, warn := some {}, hold := some 0 })).advance 0).now = k) ∧ (5999 < 6000 ∧ 6200 ≤ 6200 ∧ 8200 ≤ 8200 ∧ 7999 < 8000) ∧ up.running = true
      ∧ (let s := { up with regs := [(Reg.pwrCap, 1000)] }
         bitsW (s.reg Reg.pwrCap) 12 0 = 1000 ∧ s.power.capStep = 16 ∧ 1000 < 1001 ∧ 100 * 949 < 95 * 1000 ∧ 95 * 1000 ≤ 100 * 950) := by decide +kernel
theorem witness_StartUp : (∀ x ∈ [PowerPhase.off, .qualify, .charge], (powered { phase := x }).power.phase = x) ∧ 3 < up.member.ports ∧ up.running = true ∧ (up.port 0).perst = false ∧ (State.reset.port 0).perst = true
      ∧ (let v : LtrVal := { pf := 0, enable := true, snoop := 100, noSnoop := 50, relaxed := true }
         v.pf < up.pfCount 0 ∧ ∀ x ∈ [v], x.pf = v.pf → x = v) := by decide +kernel
theorem witness_ThermalConditions : up.running = true ∧ up.power.tripped = false ∧ up.power.phase = .up ∧ (∀ k ∈ [1, 2, 3, 5], ∀ x ∈ [0, 15, 31, 0xFF],
      up.power.thermal.any (fun c => c.kind == k && c.site == x) = false ∧ (powered { phase := .up, thermal := [{ kind := k, site := x }] }).power.thermal.any (fun c => c.kind == k && c.site == x) = true ∧
        (powered { phase := .up, thermal := [{ kind := k, site := x }] }).running = true) := by decide +kernel

def resting (k : Nat) : State := atTime 1000000000 { up with power := { phase := .up, depth := k, idleFrom := some 0 }, regs := [(Reg.pwrCtrl, 0x103)], tenants := [(1, { cfg := 1, rate := 0x500000001, own := 3, surplus := 2 })] }
theorem witness_PowerStates : (∀ k ∈ [1, 2, 3], (resting k).running = true ∧ (resting k).power.depth = k) ∧ ((resting 1).land 0).queued = 0 ∧ ((resting 1).land 0).running = [] ∧ ((resting 1).land 0).gated = false
      ∧ ((resting 1).land 0).idleFrom + 1000 ≤ ((resting 1).advance 0).now ∧ (resting 1).crowded 0 = false ∧ up.power.depth = 0 ∧ 47 < up.member.wings ∧ up.wingUsed 47 = false ∧ up.power.warn = none ∧ 47 ∉ up.power.wings
      ∧ (powered { phase := .up, wings := [3], wingWake := [3] }).power.wingWake = [3] ∧ (let s := { resting 2 with regs := up.regs, lands := (List.range 8).map fun i => (i, { landDefault i with gated := true, gatedFor := 16 }) }
         s.running = true ∧ s.wingUsed 0 = true ∧ 2 ≤ s.power.depth ∧ ∀ k ∈ wingLands 0, (s.land k).gated = true ∧ 16 ≤ (s.land k).gatedFor) := by decide +kernel
theorem witness_PowerStates_dormant : let s := resting 3
    let idle := bitsW (s.reg Reg.pwrCtrl) 15 8 * 10000000
    s.power.idleFrom = some 0 ∧ s.power.dormant = false ∧ s.quiet = true ∧ 0 + idle ≤ (s.advance 0).now ∧ s.power.activeTo ≤ (s.advance 0).now ∧ (holds s (reqOf 4 0 .running)).quiet = false
      ∧ (let d := { s with power := { s.power with dormant := true, waking := some 5 } }
         d.running = true ∧ d.power.dormant = true ∧ d.power.waking ≠ none) ∧ up.ownerAt 5 0 ∧ (atTime s.store.due s).store.due ≤ ((atTime s.store.due s).advance 0).now ∧ (s.advance 0).now < s.store.due := by decide +kernel

/-! ## The Gallery and attestation -/

/-- Gallery port 1 in a state, at a width that may be four lanes, after n replays of flit 3. -/
def ported (k n : Nat) (x4 : Bool) : State := { peered with regs := (Reg.galPortCtrl 1, if x4 then 3 else 1) :: peered.regs, gal := { peered.gal with ports := [(1, { state := k, lanes := 8, peer := 2, replaySeq := 3, replays := n })] } }
theorem witness_GalleryLinks : (∀ k ∈ [0, 1, 2, 3], ∀ x ∈ [true, false], (ported k 0 x).galPortOk 1 = true ∧ ((ported k 0 x).galPort 1).state = k ∧ bitW ((ported k 0 x).reg (Reg.galPortCtrl 1)) 1 = x)
      ∧ (up.proc (4 + 1 / 3)).state = 1 ∧ (ported 2 0 true).ownerAt 5 0 ∧ (∀ n ∈ [14, 15], ((ported 2 n true).galPort 1).replaySeq = 3 ∧ ((ported 2 n true).galPort 1).replays = n) := by decide +kernel
def hello_ : HelloMsg := { moduleId := 2, groupTag := 0, orderCode := 0, behaviour := up.fuses.behaviour, ifVersion := up.fw.ifVer, gen := 0, peerPort := 4 }
theorem witness_GalleryLinks_hello : let s := ported 1 0 true
    s.helloRefusal 1 hello_ = 0 ∧ genLater (s.peer 2).expGen hello_.gen = false ∧ s.helloRefusal 1 { hello_ with groupTag := 7 } ≠ 0 ∧ s.helloRefusal 1 { hello_ with moduleId := s.gal.moduleId } ≠ 0
      ∧ s.helloRefusal 1 { hello_ with ifVersion := s.fw.ifVer + 65536 } ≠ 0 ∧ hello_.groupTag = s.gal.groupTag ∧ genLater (s.peer 2).expGen 255 = true ∧ 255 < 256
      ∧ s.helloRefusal 1 { hello_ with gen := 255 } = 0 := by decide +kernel
theorem witness_Peers : let s := ported 2 0 true
    s.running = true ∧ (s.peer 2).state = 2 ∧ s.galPortOk 1 = true ∧ (s.galPort 1).state = 2 ∧ 0 = (s.peer 2).expGen ∧ 1 ≠ (s.peer 2).expGen ∧ s.gal.enabled = true ∧ s.ownerAt 5 0 ∧ 2 ≠ s.gal.moduleId
      ∧ (∀ k ∈ [999999, 1000000], ((atTime k s).advance 0).now = k) ∧ (s.peer 2).lastFlit + 1000 * bitsW (s.reg Reg.galLoss) 19 0 = 1000000 := by decide +kernel
def askedR : Req := { reqOf 2 0 .running with cur := some .scan, needs := [2], xs := { peers := [(2, {})], t3Sent := [(64, 2)] } }
theorem witness_PeerRequests : let s := holds (ported 2 0 true) askedR
    let w : SubReq := { tag := 9, tenant := 1, part := 0, deadline := 0, block := [], index := 0, query := [0], compat := false }
    s.running = true ∧ (s.peer 2).state = 2 ∧ w.part < 16 ∧ w.query ≠ [] ∧ s.req? 0 = some askedR ∧ askedR.phase = .running ∧ SMap.find askedR.xs.peers 2 = some {} ∧ ({} : PeerPool).pool = none ∧ askedR.cur ≠ some .fetch
      ∧ askedR.xs.t3Sent.any (fun e => e.1 == 64) = true ∧ askedR.xs.t3Got.any (fun e => e.1 == 64) = false ∧ askedR.opc = 0x02 ∧ (updateR 0 []).opc ∈ [0x20, 0x21, 0x22] ∧ (updateR 0 []).phase ≠ .epoch
      ∧ (updateR 0 []).stopped = false := by
  refine ⟨?_, ?_, ?_, ?_, rfl, ?_, ?_, ?_, ?_, ?_, ?_, ?_, ?_, ?_, ?_⟩ <;> decide +kernel

/-- The mailbox of function 0 and MCTP open, both negotiated up to a stage in version 1.2; MFP-0 in a state. -/
def attested (stage fw proc : Nat) : State := { up with regs := [(Reg.secSpdmCtrl, 0x10001)], spdm := { stage := [(0, 16 * 0x12 + stage), (16, 16 * 0x12 + stage)] }, fw := { state := fw, procs := [(4, { state := proc })] } }
theorem witness_SpdmResponses : ∀ e ∈ [SpdmEnd.doe 0, .mctp], ∀ k ∈ [0, 1, 2, 3], let s := attested k 3 1
    s.spdmOpen e = true ∧ (s.proc 4).state = 1 ∧ s.fw.state = 3 ∧ s.spdmStage e % 16 = k ∧ s.spdmVer e = 0x12 ∧ (attested k 3 3).spdmOpen e = true ∧ ((attested k 3 3).proc 4).state = 3
      ∧ (attested k 3 2).spdmOpen e = true ∧ ((attested k 3 2).proc 4).state = 2 ∧ ({ up with regs := [(Reg.secSpdmCtrl, 0)] } : State).spdmOpen e = false ∧ fnVf 0 = 0 := by decide +kernel
theorem witness_SpdmResponses_requests : let n : List Byte := [0x12#8, 0xE3#8, 0#8, 0#8, 0#8, 0#8, 0#8, 0#8, 0x00#8, 0x02#8, 0#8, 0#8, 0x40#8, 0#8, 0#8, 0#8]
    Blob.u8 n 0 = 0x12 ∧ bitN (Blob.u32 n 8) 9 = true ∧ bitN (Blob.u32 n 12) 6 = true ∧ bitN (Blob.u32 (n.take 8) 8) 9 = false ∧ Blob.u8 n 2 % 16 = 0 ∧ Blob.u8 [0x12#8, 0x82#8, 1#8] 2 % 16 ≠ 0
      ∧ (∀ o ∈ [0, 12, 13, 0xFF], Blob.u8 [0x12#8, 0xE0#8, 0#8, BitVec.ofNat 8 o] 3 = o) ∧ Blob.u8 [0x13#8] 0 = 0x13 := by decide +kernel
/-- The chain begins with its length, so GET_CERTIFICATE of its first bytes meets the premises. -/
theorem witness_SpdmResponses_certificate : Blob.u16 [0x12#8, 0x82#8, 0#8, 0#8, 0#8, 0#8] 4 < up.certChain.length := by
  have h : Blob.u16 [0x12#8, 0x82#8, 0#8, 0#8, 0#8, 0#8] 4 = 0 := by decide
  rw [h]
  unfold State.certChain
  simp [leBytes]

end Sys2Proof.Tests
end

section
/-! SUPPORT. What holds around every operation of the model, whatever it is: `State.evolves`. -/

namespace Sys2Proof

set_option Elab.async false

/-- A byte write leaves the bytes at other addresses as they were, in a memory of any form. -/
theorem Memory.read_write_ne (m : Memory) (k j : Nat) (b : Byte) (h : j ≠ k) : Memory.read (Memory.write m k b) j = Memory.read m j := by
  induction m with
  | nil => by_cases hb : b = Memory.blank <;> simp [Memory.write, Memory.read, hb, Ne.symm h]
  | cons p m ih =>
    obtain ⟨a, c⟩ := p
    simp only [Memory.write]
    split
    · split
      · rfl
      · simp [Memory.read, Ne.symm h]
    · split
      · rename_i hk
        subst hk
        split <;> simp [Memory.read, Ne.symm h]
      · simp only [Memory.read, ih]

/-- A write of bytes leaves the bytes outside it as they were, in a memory of any form. -/
theorem Memory.read_writeN_outside (m : Memory) (a j : Nat) (d : Blob) (h : j < a ∨ a + d.length ≤ j) :
    Memory.read (Memory.writeN m a d) j = Memory.read m j := by
  induction d generalizing m a with
  | nil => rfl
  | cons b d ih =>
    simp only [List.length_cons] at h
    rw [Memory.writeN, ih _ _ (by omega), Memory.read_write_ne _ _ _ _ (by omega)]

namespace Machine

/-- What every operation keeps: the member and the fuses (R1, R8), the messages already sent, each byte of host memory outside the writes that the
operation sends, and the canonical form of the memories. -/
structure State.evolves (s q : State) : Prop where
  member : q.member = s.member
  fuses  : q.fuses = s.fuses
  sent   : ∃ l, q.out = l ++ s.out ∧
    ∀ p a, (∀ f b d x, OutMsg.host f b d x ∈ l → fnPort f = p → a < b ∨ b + d.length ≤ a) → Memory.read (q.hostMemOf p) a = Memory.read (s.hostMemOf p) a
  mem    : s.memWf = true → q.memWf = true

theorem State.evolves.refl (s : State) : s.evolves s where
  member := rfl
  fuses := rfl
  sent := ⟨[], rfl, fun _ _ _ => rfl⟩
  mem := id

theorem State.evolves.trans {s q r : State} (h : s.evolves q) (k : q.evolves r) : s.evolves r := by
  obtain ⟨l, hl, hread⟩ := h.sent
  obtain ⟨l', hl', hread'⟩ := k.sent
  refine ⟨k.member.trans h.member, k.fuses.trans h.fuses, ⟨l' ++ l, by rw [hl', hl, List.append_assoc], fun p a hout => ?_⟩, fun w => k.mem (h.mem w)⟩
  rw [hread' p a fun f b d x hm => hout f b d x (List.mem_append_left l hm), hread p a fun f b d x hm => hout f b d x (List.mem_append_right l' hm)]

/-- An update of State that leaves the member, the fuses, the output and the memories as they are. -/
theorem State.evolves.update {s q r : State} (h : s.evolves q)
    (e : (r.member, r.fuses, r.out, r.hostMem, r.hbm) = (q.member, q.fuses, q.out, q.hostMem, q.hbm) := by with_reducible rfl) : s.evolves r := by
  simp only [Prod.mk.injEq] at e
  obtain ⟨hm, hf, ho, hh, hd⟩ := e
  refine h.trans ⟨hm, hf, ⟨[], ho, fun p a _ => ?_⟩, fun w => ?_⟩
  · simp only [State.hostMemOf, hh]
  · simpa only [State.memWf, hh, hd] using w

theorem State.evolves_send (s : State) (m : OutMsg) : s.evolves (s.send m) :=
  ⟨rfl, rfl, ⟨[m], rfl, fun _ _ _ => rfl⟩, id⟩

theorem State.evolves_hostWrite (s : State) (f a : Nat) (d : Blob) (x : Bool) : s.evolves (s.hostWrite f a d x) := by
  refine ⟨?_, ?_, ?_, s.memWf_hostWrite f a d x⟩
  · unfold State.hostWrite; split <;> rfl
  · unfold State.hostWrite; split <;> rfl
  · unfold State.hostWrite
    split
    · exact ⟨[], rfl, fun _ _ _ => rfl⟩
    · refine ⟨[_], rfl, fun p b hout => ?_⟩
      simp only [State.hostMemOf]
      by_cases hp : p = fnPort f
      · subst hp
        rw [SMap.at_put_self, Memory.read_writeN_outside _ _ _ _ (hout f a d _ (List.mem_singleton.mpr rfl) rfl)]
      · rw [SMap.at_put_ne _ _ _ _ _ hp]

theorem State.evolves_devWrite (s : State) (a : Nat) (d : Blob) : s.evolves (s.devWrite a d) := by
  have hmem := s.memWf_devWrite a d
  obtain ⟨x, e⟩ := s.devWrite_eq a d
  rw [e] at hmem ⊢
  exact ⟨rfl, rfl, ⟨[], rfl, fun _ _ _ => rfl⟩, hmem⟩

/-- Every answer of a meaning is a state that evolved from `s`. -/
def State.leads (s : State) (r : Res) : Prop := ∀ q, r = .next q → s.evolves q

theorem State.leads.next {s q : State} (h : s.evolves q) : s.leads (.next q) := by
  intro r e
  cases e
  exact h

theorem State.leads.ite {s : State} {a b : Res} {c : Prop} {_ : Decidable c} (ha : s.leads a) (hb : s.leads b) : s.leads (if c then a else b) := by
  split <;> assumption

/-- The meaning that a register write is, where it is one, leads from `s` when it runs in `q`. -/
def State.leadsBy (s q : State) (c : Option (State → Res)) : Prop := ∀ m, c = some m → s.leads (m q)

theorem State.leadsBy.some {s q : State} {m : State → Res} (h : s.leads (m q)) : s.leadsBy q (some m) := by
  intro m' e
  cases e
  exact h

theorem State.leadsBy.none {s q : State} : s.leadsBy q none := fun _ e => nomatch e

theorem State.leadsBy.ite {s q : State} {a b : Option (State → Res)} {c : Prop} {_ : Decidable c} (ha : s.leadsBy q a) (hb : s.leadsBy q b) :
    s.leadsBy q (if c then a else b) := by
  split <;> assumption

theorem State.evolves.ite {s a b : State} {c : Prop} {_ : Decidable c} (ha : s.evolves a) (hb : s.evolves b) : s.evolves (if c then a else b) := by
  split <;> assumption

theorem State.evolves.iteFst {α : Type} {s : State} {a b : State × α} {c : Prop} {_ : Decidable c} (ha : s.evolves a.1) (hb : s.evolves b.1) :
    s.evolves (if c then a else b).1 := by
  split <;> assumption

theorem State.evolves.iteSnd {α : Type} {s : State} {a b : α × State} {c : Prop} {_ : Decidable c} (ha : s.evolves a.2) (hb : s.evolves b.2) :
    s.evolves (if c then a else b).2 := by
  split <;> assumption

/-- A fold whose steps evolve the state that its accumulator holds. -/
theorem State.evolves.foldlOn {α β : Type} (st : β → State) {s : State} {b : β} {f : β → α → β} {xs : List α} (h : s.evolves (st b))
    (hf : ∀ {b x}, s.evolves (st b) → s.evolves (st (f b x))) : s.evolves (st (xs.foldl f b)) := by
  induction xs generalizing b with
  | nil => exact h
  | cons x xs ih => exact ih (hf h)

/-- A fold of an operation that evolves the state. -/
theorem State.evolves.foldl {α : Type} {s q : State} {f : State → α → State} {xs : List α} (h : s.evolves q)
    (hf : ∀ {q x}, s.evolves q → s.evolves (f q x)) : s.evolves (xs.foldl f q) :=
  State.evolves.foldlOn id h hf

theorem State.evolves.send {s q : State} {m : OutMsg} (h : s.evolves q) : s.evolves (q.send m) := h.trans (q.evolves_send m)

theorem State.evolves.hostWrite {s q : State} {f a : Nat} {d : Blob} {x : Bool} (h : s.evolves q) : s.evolves (q.hostWrite f a d x) :=
  h.trans (q.evolves_hostWrite f a d x)

theorem State.evolves.devWrite {s q : State} {a : Nat} {d : Blob} (h : s.evolves q) : s.evolves (q.devWrite a d) :=
  h.trans (q.evolves_devWrite a d)

end Machine

end Sys2Proof
end

section
/-! SUPPORT. `State.evolves` for each operation of the model and `State.leads` for each command, in the order of the model's files. A proof mirrors the operation's
text: where the operation is `(s.f x).g y`, its lemma is `h.f.g`. Those of O4 to O6 follow from `exec_leads`. -/

namespace Sys2Proof.Machine

open Sys2Proof

set_option Elab.async false

section Operations

variable {s q : State} (h : s.evolves q)
include h

/-! ### The shared operations -/

theorem State.evolves.advance {t : Nat} : s.evolves (State.advance t q) := h.update rfl
theorem State.evolves.setReg {off : Nat} {v : Word} : s.evolves (q.setReg off v) := h.update rfl
theorem State.evolves.setRegN {off v : Nat} : s.evolves (q.setRegN off v) := h.setReg
theorem State.evolves.orReg {off bit : Nat} : s.evolves (q.orReg off bit) := h.setReg
theorem State.evolves.satField {off hi lo n : Nat} : s.evolves (q.satField off hi lo n) := h.setReg
theorem State.evolves.setFn {f : Nat} {x : Fn} : s.evolves (q.setFn f x) := h.update rfl
theorem State.evolves.updFn {f : Nat} {g : Fn → Fn} : s.evolves (q.updFn f g) := h.setFn
theorem State.evolves.updPort {p : Nat} {g : Port → Port} : s.evolves (q.updPort p g) := h.update rfl
theorem State.evolves.hostWrites {f : Nat} {ws : List (Nat × Blob)} : s.evolves (q.hostWrites f ws) := h.foldl (·.hostWrite)
theorem State.evolves.takeFresh : s.evolves q.takeFresh.2 := h.update rfl
theorem State.evolves.setRing {f n : Nat} {r : Ring} : s.evolves (q.setRing f n r) := h.updFn
theorem State.evolves.ringAdvance {f n : Nat} : s.evolves (q.ringAdvance f n) := .ite h.setRing h.setRing.hostWrite
theorem State.evolves.ringPut {f n : Nat} {e : Blob} : s.evolves (q.ringPut f n e) := h.hostWrite.ringAdvance
theorem State.evolves.setVec {f v : Nat} {x : Vec} : s.evolves (q.setVec f v x) := h.updFn
theorem State.evolves.sendVec {f v : Nat} : s.evolves (q.sendVec f v) := .ite h.setVec h.setVec.send
theorem State.evolves.countEvent {f v : Nat} : s.evolves (q.countEvent f v) := .ite h (.ite h.setVec.sendVec h.setVec)
theorem State.evolves.setLand {l : Nat} {x : Landing} : s.evolves (q.setLand l x) := h.update rfl
theorem State.evolves.updLand {l : Nat} {g : Landing → Landing} : s.evolves (q.updLand l g) := h.setLand
theorem State.evolves.setPhys {k : Nat} {x : Phys} : s.evolves (q.setPhys k x) := h.update rfl
theorem State.evolves.updPhys {k : Nat} {g : Phys → Phys} : s.evolves (q.updPhys k g) := h.setPhys
theorem State.evolves.recount {ls : List Nat} : s.evolves (q.recount ls) := .ite h (h.foldl (·.updLand))
theorem State.evolves.updPart {p : Nat} {g : Part → Part} : s.evolves (q.updPart p g) := h.update rfl
theorem State.evolves.updProc {i : Nat} {g : Proc → Proc} : s.evolves (q.updProc i g) := h.update rfl

theorem State.evolves.recTo {f : Nat} {r : Rec} {seq : Nat} {logged : Bool} : s.evolves (q.recTo f r seq logged) := by
  unfold State.recTo
  split
  · exact h
  · exact .ite h (.ite h (.ite h.setRing h.setRing.ringPut.countEvent))

theorem State.evolves.emit {r : Rec} : s.evolves (q.emit r) := by
  unfold State.emit
  dsimp only
  split
  · exact .ite (.update (h.foldl (·.recTo))) (.update (h.foldl (·.recTo)))
  · exact .orReg (.update (h.foldl (·.recTo)))
  · exact .update (h.foldl (·.recTo))

theorem State.evolves.setReq {slot : Nat} {r : Req} : s.evolves (q.setReq slot r) := h.update rfl
theorem State.evolves.updReq {slot : Nat} {g : Req → Req} : s.evolves (q.updReq slot g) := h.update rfl
theorem State.evolves.cntPart {p c n : Nat} : s.evolves (q.cntPart p c n) := .ite h h.update

theorem State.evolves.dropSpec {slot : Nat} : s.evolves (q.dropSpec slot) := by
  unfold State.dropSpec
  split
  · exact h
  · exact .ite h.update h.update.cntPart

theorem State.evolves.arcadeStart {slot : Nat} : s.evolves (q.arcadeStart slot) := h.update rfl
theorem State.evolves.arcadeLeave {slot : Nat} : s.evolves (q.arcadeLeave slot) := h.update rfl

theorem State.evolves.dropTasks {slot : Nat} : s.evolves (q.dropTasks slot) := by
  unfold State.dropTasks
  exact h.dropSpec.arcadeLeave.update

theorem State.evolves.freeSlot {slot : Nat} : s.evolves (q.freeSlot slot) := h.dropTasks.update rfl

theorem State.evolves.endReq {slot status : Nat} : s.evolves (q.endReq slot status) := by
  unfold State.endReq
  split
  · exact h
  · exact .ite h h.dropTasks.setReq

theorem State.evolves.doubt {slot causes stepId record : Nat} : s.evolves (q.doubt slot causes stepId record) := by
  unfold State.doubt
  split
  · exact h
  · exact .ite h h.setReq

theorem State.evolves.statusBlock {slot st : Nat} : s.evolves (q.statusBlock slot st) := by
  unfold State.statusBlock
  split
  · exact h
  · exact .ite h h.setReq.hostWrite

theorem State.evolves.postCpl {r : Req} {c : Cpl} : s.evolves (q.postCpl r c) := .ite h.ringPut.setRing.countEvent h.ringPut.setRing

theorem State.evolves.putEnd {r : Req} {status flags : Nat} : s.evolves (q.putEnd r status flags) := by
  unfold State.putEnd
  split
  · exact h
  · exact h.ringPut.countEvent

theorem State.evolves.streamFlush {k slot : Nat} : s.evolves (State.streamFlush k q slot) := by
  induction k generalizing q with
  | zero => exact h
  | succ k ih =>
    unfold State.streamFlush
    split
    · exact h
    · split
      · exact .ite h (ih (.ite h.ringPut.setReq.countEvent h.ringPut.setReq))
      · exact h

theorem State.evolves.streamPut {slot : Nat} {es : List Blob} : s.evolves (q.streamPut slot es) := by
  unfold State.streamPut
  split
  · exact h
  · exact h.setReq.streamFlush

theorem State.evolves.wakeDormant : s.evolves q.wakeDormant := .ite h.update h
theorem State.evolves.rouse : s.evolves q.rouse := h.wakeDormant.update rfl
theorem State.evolves.withhold {slot : Nat} {r : Req} : s.evolves (q.withhold slot r) := h.hostWrites.putEnd.statusBlock.postCpl.update.orReg
theorem State.evolves.complete {slot : Nat} {r : Req} : s.evolves (q.complete slot r) := h.hostWrites.putEnd.statusBlock.postCpl

theorem State.evolves.finish {slot : Nat} : s.evolves (q.finish slot) := by
  unfold State.finish
  split
  · exact h
  · exact .ite h.freeSlot (.ite h.freeSlot (.ite h.setReq (.ite h.withhold.freeSlot h.complete.freeSlot)))

/-! ### Device memory and the Alcove dies -/

theorem State.evolves.updObjs {g : Objs → Objs} : s.evolves (q.updObjs g) := h.update rfl
theorem State.evolves.updAlc {g : Alcoves → Alcoves} : s.evolves (q.updAlc g) := h.update rfl
theorem State.evolves.setAlcSet {k : Nat} {x : AlcSet} : s.evolves (q.setAlcSet k x) := h.updAlc

theorem State.evolves.alcRead {p addr : Nat} {t2 : Blob} : s.evolves (q.alcRead p addr t2).2 := by
  unfold State.alcRead
  refine .iteSnd h ?_
  dsimp only
  split
  · exact h.setAlcSet
  · exact h.setAlcSet

theorem State.evolves.alcDrop {line : Nat} : s.evolves (q.alcDrop line) := by
  unfold State.alcDrop
  exact h.updAlc

theorem State.evolves.alcPrefetch {p land addr : Nat} {t2 : Blob} : s.evolves (q.alcPrefetch p land addr t2) := .ite h h.updAlc
theorem State.evolves.alcArrive : s.evolves q.alcArrive := h.updAlc.foldl fun h => .ite h h.setAlcSet
theorem State.evolves.alcEmpty {a ways : Nat} : s.evolves (q.alcEmpty a ways) := .ite h h.updAlc

theorem State.evolves.stairFill {p n layer l : Nat} : s.evolves (q.stairFill p n layer l) := by
  unfold State.stairFill
  exact h.updLand

theorem State.evolves.stairRefill {l : Nat} : s.evolves (q.stairRefill l) := by
  unfold State.stairRefill
  split
  · exact .ite h (h.foldl (·.stairFill))
  · exact h

theorem State.evolves.setPinMem {a : Nat} {m : Memory} : s.evolves (q.setPinMem a m) := h.updAlc
theorem State.evolves.regionWrite {i off : Nat} {d : Blob} : s.evolves (q.regionWrite i off d) := h.devWrite.setPinMem
theorem State.evolves.regionReload {i : Nat} : s.evolves (q.regionReload i) := .ite h h.setPinMem
theorem State.evolves.reloadAll : s.evolves q.reloadAll := h.foldl (·.regionReload)
theorem State.evolves.flipHalf {i : Nat} : s.evolves (q.flipHalf i) := h.setReg

omit h in
/-- What a host makes visible stands in its memory whatever time it is. -/
theorem State.publish_evolves_advance (q : State) (t f : Nat) (pub : List HostPub) : (q.publish f pub).evolves ((State.advance t q).publish f pub) := by
  unfold State.publish
  cases pub.isEmpty
  · exact (State.evolves.refl _).update rfl
  · exact (State.evolves.refl _).advance

/-! ### Rings and interrupts -/

theorem State.evolves.doorbell {f off size : Nat} {v : Word} : s.evolves (q.doorbell f off size v) :=
  .ite h.updFn (.ite (.wakeDormant (h.setRing.foldl (·.streamFlush))) (h.setRing.foldl (·.streamFlush)))

omit h in
theorem execDoorbellWrite_leads {t fn off size : Nat} {value : Word} {pub : List HostPub} (q : State) :
    (q.publish fn pub).leads (execDoorbellWrite t fn off size value pub q) :=
  .next (.ite (q.publish_evolves_advance t fn pub).doorbell (q.publish_evolves_advance t fn pub))

theorem State.evolves.takeDesc {f n : Nat} : s.evolves (q.takeDesc f n) := h.ringAdvance.setRing.update.setRing

theorem execDescriptorFetchError_leads {t fn ring : Nat} : s.leads (execDescriptorFetchError t fn ring q) :=
  .ite (.next h.advance) (.next h.advance.setRing.updFn.emit)

theorem State.evolves.ringCfg {f n : Nat} {value : Word} : s.evolves (q.ringCfg f n value) :=
  .ite (.ite h (.ite h.updFn (.ite h.updFn (.ite h.updFn h.setRing)))) (.ite h.setRing (.ite h.setRing h.setRing.updFn))

theorem execRingCfgWrite_leads {t fn ring : Nat} {value : Word} : s.leads (execRingCfgWrite t fn ring value q) := .next (.ite h.advance.ringCfg h.advance)
theorem State.evolves.unmask {f v : Nat} : s.evolves (q.unmask f v) := .ite h.setVec.send h.setVec
theorem execMsixUnmask_leads {t fn vec : Nat} : s.leads (execMsixUnmask t fn vec q) := .next (.ite h.advance.unmask h.advance)
theorem execIrqForce_leads {t fn : Nat} {value : Word} : s.leads (execIrqForce t fn value q) := .next (.ite h.advance.sendVec h.advance)
theorem execModerationCount_leads {t fn vec : Nat} : s.leads (execModerationCount t fn vec q) := .next (.ite h.advance.sendVec h.advance)

theorem execModerationTimeExpiry_leads {t fn vec : Nat} : s.leads (execModerationTimeExpiry t fn vec q) := by
  unfold execModerationTimeExpiry
  dsimp only
  split
  · exact .next (.ite h.advance.sendVec h.advance)
  · exact .next h.advance

theorem execStatusBlockWrite_leads {t slot : Nat} : s.leads (execStatusBlockWrite t slot q) := by
  unfold execStatusBlockWrite
  dsimp only
  split
  · exact .next (.ite h.advance.statusBlock h.advance)
  · exact .next h.advance

/-! ### The store and admin commands -/

theorem State.evolves.boot : s.evolves q.boot := by
  unfold State.boot
  refine .setRegN ?_
  dsimp only
  split
  · refine .ite (.update (.setRegN (.setRegN (.setRegN (.setRegN ?_))))) (.setRegN (.setRegN (.setRegN ?_))) <;> exact h.update
  · exact h.update

theorem execStoreTokenAdd_leads {t : Nat} : s.leads (execStoreTokenAdd t q) := .ite (.next h.advance.update) (.next h.advance)
theorem State.evolves.adminTake : s.evolves q.adminTake := h.update rfl
theorem State.evolves.adminPost {tag : Nat} {c : Cpl} : s.evolves (q.adminPost tag c) := h.devWrite.update rfl

theorem State.evolves.adminRun {code : Nat} {body : State → Blob → State} (hbody : ∀ {r d}, s.evolves r → s.evolves (body r d)) : s.evolves (q.adminRun code body) :=
  .ite h (.ite (hbody h.adminTake) (.ite h.adminTake.adminPost h))

theorem execAdminDoorbell_leads {t fn : Nat} {value : Word} : s.leads (execAdminDoorbell t fn value q) :=
  .ite (.next h.advance) (.next (.ite h.advance.update.rouse h.advance.update))

theorem execIdentify_leads {t : Nat} : s.leads (execIdentify t q) := .next (h.advance.adminRun fun h => .ite h.adminPost h.devWrite.adminPost)
theorem execLogRead_leads {t : Nat} : s.leads (execLogRead t q) := .next (h.advance.adminRun fun h => .ite h.adminPost h.devWrite.adminPost)

theorem execSnapshotRead_leads {t : Nat} : s.leads (execSnapshotRead t q) := by
  unfold execSnapshotRead
  refine .next (h.advance.adminRun fun h => .ite h.adminPost ?_)
  split
  · exact h.devWrite.adminPost
  · exact h.adminPost

theorem State.evolves.storeBegin {w : StoreWrite} : s.evolves (q.storeBegin w) := .ite h.update.adminPost (.ite h.update.orReg h.update)

theorem execStoreWrite_leads {t : Nat} : s.leads (execStoreWrite t q) :=
  .next (h.advance.adminRun fun h => .ite h.adminPost (.ite h.adminPost (.ite h.adminPost h.storeBegin)))

theorem execRaiseFloor_leads {t : Nat} : s.leads (execRaiseFloor t q) := .next (h.advance.adminRun fun h => .ite h.adminPost (.ite h.adminPost h.storeBegin))

theorem execConfigWriteComplete_leads {t : Nat} {readBackOk : Bool} : s.leads (execConfigWriteComplete t readBackOk q) := by
  unfold execConfigWriteComplete
  dsimp only
  split
  · exact .next h.advance
  · exact .ite (.next h.advance) (.ite (.next h.advance.update.adminPost) (.next h.advance.update.adminPost))

/-! ### Firmware -/

theorem execFwStart_leads {t fn : Nat} {value : Word} : s.leads (execFwStart t fn value q) :=
  .ite (.next h.advance) (.ite (.next h.advance.wakeDormant.update) (.next h.advance.wakeDormant.update))

theorem execFwImageChecked_leads {t : Nat} : s.leads (execFwImageChecked t q) :=
  .ite (.next h.advance) (.ite (.next h.advance.update) (.next h.advance.update.updProc))

theorem execFwRunning_leads {t : Nat} : s.leads (execFwRunning t q) := .ite (.next h.advance) (.next (.setReg (.update (h.advance.foldl (·.updProc)))))
theorem State.evolves.expiryDoubt {i record : Nat} : s.evolves (q.expiryDoubt i record) := h.foldl (·.doubt)

theorem State.evolves.procRestart {i : Nat} {regs trace : Blob} {counted : Bool} : s.evolves (q.procRestart i regs trace counted) :=
  .ite h.updProc.emit.expiryDoubt.update h.updProc.emit.expiryDoubt

theorem State.evolves.fence {p i record : Nat} : s.evolves (q.fence p i record) := h.updPart.foldl (·.doubt.dropSpec)

theorem State.evolves.procFail {i : Nat} : s.evolves (q.procFail i) :=
  .ite (.update (h.updProc.emit.foldl (·.fence))) (.ite (.update (h.updProc.emit.foldl (·.fence))) (h.updProc.emit.foldl (·.fence)))

theorem execWatchdogExpiry_leads {t proc : Nat} {regs trace : List Byte} : s.leads (execWatchdogExpiry t proc regs trace q) :=
  .ite (.next h.advance) (.next (.ite h.advance.procRestart.procFail h.advance.procRestart))

theorem execProcessorReady_leads {t proc : Nat} : s.leads (execProcessorReady t proc q) := .ite (.next h.advance.updProc) (.next h.advance)
theorem execRevive_leads {t : Nat} : s.leads (execRevive t q) := .next (h.advance.adminRun fun h => .ite h.adminPost h.procRestart.updProc.adminPost)

/-! ### Faults -/

theorem State.evolves.wakeLand {l : Nat} : s.evolves (q.wakeLand l) := h.update rfl
theorem State.evolves.enqueue {l : Nat} {x : Task} : s.evolves (q.enqueue l x) := .ite h.updPart h.updLand.wakeLand
theorem State.evolves.pushRound {ls : List Nat} {ts : List Task} : s.evolves (q.pushRound ls ts) := .ite (h.foldl (·.enqueue)) (h.foldl (·.enqueue))

theorem State.evolves.rehome {l : Nat} : s.evolves (q.rehome l) := by
  unfold State.rehome
  split
  · exact h
  · exact h.setLand.updPart.pushRound

theorem State.evolves.declareDead {k cause : Nat} : s.evolves (q.declareDead k cause) := by
  unfold State.declareDead
  refine .ite h ?_
  extract_lets die log gen s1 spare want s2 record s3 s4 s5
  have h1 : s.evolves s1 := h.setPhys
  have h2 : s.evolves s2 := by
    clear_value spare want
    dsimp only [s2]
    split
    · exact h1.updPhys
    · exact h1
  have h5 : s.evolves s5 := .emit (.ite h2.orReg.orReg h2.orReg)
  clear_value log want s5
  split
  · split
    · exact .ite h5.rehome h5
    · exact h5
  · exact .ite (.rehome (.foldl (h5.setLand.recount.foldl (·.doubt)) (·.doubt))) (.foldl (h5.setLand.recount.foldl (·.doubt)) (·.doubt))

theorem State.evolves.takeOver {k : Nat} : s.evolves (q.takeOver k) := by
  unfold State.takeOver
  split
  · exact h
  · exact .stairRefill (h.updPhys.setLand.recount.foldl (·.enqueue))

theorem State.evolves.spareTakeovers : s.evolves q.spareTakeovers := h.foldl (·.takeOver)
theorem State.evolves.countResidue {k : Nat} {counts : Bool} : s.evolves (q.countResidue k counts) := .ite h.updPhys.declareDead h.updPhys
theorem State.evolves.countEcc {k : Nat} {counts : Bool} : s.evolves (q.countEcc k counts) := .ite h.updPhys.declareDead h.updPhys
theorem State.evolves.granuleError {addr : Nat} : s.evolves (q.granuleError addr) := .ite h.update.update.orReg.emit h.update

theorem execLandingHang_leads {t landing : Nat} : s.leads (execLandingHang t landing q) := by
  unfold execLandingHang
  dsimp only
  split
  · exact .next (.ite h.advance.declareDead h.advance)
  · exact .next h.advance

theorem execDeclareLandingDead_leads {t fn die phys : Nat} : s.leads (execDeclareLandingDead t fn die phys q) :=
  .next (.ite h.advance.wakeDormant.declareDead h.advance)

theorem State.evolves.arm {fn landing : Nat} {set : Landing → Landing} : s.evolves (q.arm fn landing set) := .ite h.wakeDormant.updLand h
theorem execInjectResidue_leads {t fn landing : Nat} {noCount : Bool} : s.leads (execInjectResidue t fn landing noCount q) := .next h.advance.arm
theorem execInjectEcc_leads {t fn landing : Nat} {noCount : Bool} : s.leads (execInjectEcc t fn landing noCount q) := .next h.advance.arm

theorem State.evolves.readmit {k : Nat} : s.evolves (q.readmit k) := by
  unfold State.readmit
  refine .emit ?_
  split
  · exact h.updPhys.updLand.recount
  · exact h.updPhys

theorem execSelfTestComplete_leads {t die phys failed : Nat} : s.leads (execSelfTestComplete t die phys failed q) :=
  .ite (.next h.advance) (.ite (.ite (.next h.advance.readmit) (.next h.advance.updPhys.emit)) (.ite (.next h.advance.emit.declareDead) (.next h.advance)))

theorem execSparePeriodicTest_leads {t die phys failed : Nat} : s.leads (execSparePeriodicTest t die phys failed q) :=
  .ite (.next h.advance.emit.declareDead) (.next h.advance)

theorem execSelfTest_leads {t failed durationUs : Nat} : s.leads (execSelfTest t failed durationUs q) :=
  .next (h.advance.adminRun fun h => .ite h.adminPost (.adminPost (.devWrite (.ite h.declareDead h))))

theorem execStaleSpeaker_leads {t die phys gen count : Nat} : s.leads (execStaleSpeaker t die phys gen count q) :=
  .ite (.next h.advance) (.next h.advance.updPhys.update.orReg)

theorem State.evolves.staleRecords : s.evolves q.staleRecords := h.foldl (·.updPhys.emit)
theorem State.evolves.edgesBoundary : s.evolves q.edgesBoundary := h.update rfl

theorem execEdgeFenced_leads {t edge : Nat} {inFlight : List Nat} : s.leads (execEdgeFenced t edge inFlight q) :=
  .ite (.next h.advance) (.next (h.advance.update.orReg.emit.foldl (·.doubt)))

theorem State.evolves.scrubOne {f : ScrubFinding} : s.evolves (q.scrubOne f) := .ite (.ite h h.satField) (.ite h.satField.emit.granuleError h.satField.emit)

theorem execPatrolScrub_leads {t : Nat} {findings : List ScrubFinding} : s.leads (execPatrolScrub t findings q) :=
  .next (.ite (h.advance.foldl (·.scrubOne)) h.advance)

/-! ### Time -/

theorem State.evolves.updNewel {g : Newel → Newel} : s.evolves (q.updNewel g) := h.update rfl
theorem State.evolves.enterHoldover : s.evolves q.enterHoldover := .ite h.updNewel.orReg h
theorem State.evolves.markLate {a b : Nat} : s.evolves (q.markLate a b) := h.update rfl

theorem State.evolves.measure {offset : Int} : s.evolves (q.measure offset) :=
  .ite h (.ite (.orReg (.updNewel (.markLate (.ite h.update.orReg h.update)))) (.ite h.update.orReg h.update))

theorem execNewelTreadWrite_leads {t fn : Nat} {value : Word} : s.leads (execNewelTreadWrite t fn value q) :=
  .ite (.next h.advance.wakeDormant.setRegN.updNewel) (.next h.advance)

theorem execNewelTimeRead_leads {t fn : Nat} : s.leads (execNewelTimeRead t fn q) := .ite (.next h.advance.takeFresh.updNewel.send) (.next h.advance)

theorem execNewelCtrlWrite_leads {t fn : Nat} {value : Word} : s.leads (execNewelCtrlWrite t fn value q) :=
  .ite (.next (.ite h.advance.wakeDormant.setReg.updNewel h.advance.wakeDormant.setReg)) (.next h.advance)

theorem execPpsInEdge_leads {t : Nat} : s.leads (execPpsInEdge t q) := .ite (.next h.advance) (.next (.measure (.ite h.advance.updNewel.orReg h.advance.updNewel)))
theorem execPpsOutEdge_leads {t : Nat} : s.leads (execPpsOutEdge t q) := .next (.ite h.advance.send h.advance)

theorem execSourceTimeout_leads {t : Nat} : s.leads (execSourceTimeout t q) :=
  .ite (.next h.advance) (.next (.enterHoldover (.ite h.advance.updNewel.orReg h.advance)))

theorem execHoldoverLong_leads {t : Nat} : s.leads (execHoldoverLong t q) := by
  unfold execHoldoverLong
  dsimp only
  split
  · exact .ite (.next h.advance.updNewel.orReg) (.next h.advance)
  · exact .next h.advance

theorem execPtpAnnounce_leads {t master rank intervalNs : Nat} : s.leads (execPtpAnnounce t master rank intervalNs q) :=
  .ite (.next h.advance) (.next h.advance.updNewel.setRegN)

theorem execPtpSync_leads {t master originNs : Nat} {followUp : Bool} : s.leads (execPtpSync t master originNs followUp q) :=
  .ite (.next h.advance) (.ite (.next h.advance.updNewel) (.next h.advance.updNewel.send))

theorem execPtpDelayResp_leads {t master reqNs respNs : Nat} : s.leads (execPtpDelayResp t master reqNs respNs q) :=
  .ite (.next h.advance) (.next h.advance.updNewel.measure)

theorem execGalleryTimeExchange_leads {t peer : Nat} {offset : Int} {locked : Bool} : s.leads (execGalleryTimeExchange t peer offset locked q) :=
  .ite (.next h.advance) (.ite (.next h.advance.measure) (.next h.advance.enterHoldover))

/-! ### Power -/

theorem State.evolves.updPower {g : Power → Power} : s.evolves (q.updPower g) := h.update rfl
theorem execSupplyWarning_leads {t vin : Nat} : s.leads (execSupplyWarning t vin q) := .ite (.next h.advance) (.next h.advance.updPower.update.orReg)

theorem execInputCrosses62v_leads {t : Nat} {rising : Bool} {vin : Nat} : s.leads (execInputCrosses62v t rising vin q) := by
  unfold execInputCrosses62v
  dsimp only
  split
  · exact .next (.ite h.advance.updPower.updPower h.advance.updPower)
  · exact .next h.advance.updPower.updPower
  · exact .next (.ite h.advance.updPower.updPower h.advance.updPower)
  · exact .next h.advance.updPower

theorem execSupplyWarningClear_leads {t vin : Nat} : s.leads (execSupplyWarningClear t vin q) := by
  unfold execSupplyWarningClear
  dsimp only
  split
  · exact .ite (.next h.advance) (.next h.advance.updPower.update.satField.setRegN.emit)
  · exact .next h.advance

theorem execOvervoltage_leads {t vin : Nat} : s.leads (execOvervoltage t vin q) := by
  unfold execOvervoltage
  refine .ite (.next h.advance) ?_
  split
  · exact .next h.advance.updPower
  · exact .next h.advance.updPower.orReg.satField

theorem execOvervoltageEnd_leads {t vin : Nat} : s.leads (execOvervoltageEnd t vin q) := by
  unfold execOvervoltageEnd
  dsimp only
  split
  · exact .ite (.next h.advance) (.next h.advance.updPower.setRegN.emit)
  · exact .next h.advance

theorem execInputQualify_leads {t vin : Nat} : s.leads (execInputQualify t vin q) := .next (.ite h.advance.updPower h.advance)
theorem execInputEnable_leads {t : Nat} : s.leads (execInputEnable t q) := .next (.ite h.advance.updPower h.advance)
theorem execChargeComplete_leads {t : Nat} : s.leads (execChargeComplete t q) := .next (.ite h.advance.updPower h.advance)

theorem execPowerCapEvaluate_leads {t avgW iin : Nat} : s.leads (execPowerCapEvaluate t avgW iin q) :=
  .ite (.next h.advance) (.next (.ite h.advance.updPower.orReg.satField h.advance.updPower))

theorem State.evolves.thermalRec {kind site temp us : Nat} : s.evolves (q.thermalRec kind site temp us) := h.emit
theorem State.evolves.thermalBegin {kind site temp : Nat} : s.evolves (q.thermalBegin kind site temp) := .ite h.updPower h.updPower.thermalRec
theorem execDieWarn_leads {t site temp : Nat} : s.leads (execDieWarn t site temp q) := .next (.ite h.advance.thermalBegin h.advance)
theorem execDieThrottle_leads {t site temp : Nat} : s.leads (execDieThrottle t site temp q) := .next (.ite h.advance.thermalBegin h.advance)
theorem execCoolantHigh_leads {t temp : Nat} : s.leads (execCoolantHigh t temp q) := .next (.ite h.advance.thermalBegin h.advance)
theorem execLeak_leads {t : Nat} : s.leads (execLeak t q) := .next (.ite h.advance.thermalBegin h.advance)

theorem execThermalConditionClear_leads {t kind site : Nat} : s.leads (execThermalConditionClear t kind site q) := by
  unfold execThermalConditionClear
  dsimp only
  split
  · exact .ite (.next h.advance) (.next h.advance.updPower.thermalRec)
  · exact .next h.advance

theorem State.evolves.evalDepth : s.evolves q.evalDepth := by
  unfold State.evalDepth
  exact h.updPower

theorem execLandingClockGate_leads {t landing : Nat} : s.leads (execLandingClockGate t landing q) := .next (.ite h.advance.setLand h.advance)

theorem execWingPowerGate_leads {t wing : Nat} : s.leads (execWingPowerGate t wing q) :=
  .ite (.next h.advance) (.next (.recount (h.advance.updPower.foldl (·.updLand))))

theorem execStillExitComplete_leads {t wing : Nat} : s.leads (execStillExitComplete t wing q) :=
  .ite (.next h.advance) (.next (.recount (h.advance.updPower.foldl (·.updLand.stairRefill))))

theorem execDormantEntry_leads {t : Nat} : s.leads (execDormantEntry t q) := by
  unfold execDormantEntry
  dsimp only
  split
  · exact .ite (.next (.recount (.satField (h.advance.updPower.foldl (·.updProc))))) (.next h.advance)
  · exact .next h.advance

theorem execDormantExitComplete_leads {t : Nat} : s.leads (execDormantExitComplete t q) :=
  .ite (.next h.advance) (.next (.recount (.update (.reloadAll (.updAlc (h.advance.updPower.foldl (·.updProc)))))))

theorem execClearMin_leads {t fn : Nat} : s.leads (execClearMin t fn q) := .next (.ite h.advance.wakeDormant.updPower h.advance)
theorem execWake_leads {t fn : Nat} : s.leads (execWake t fn q) := .next (.ite h.advance.wakeDormant.updPower h.advance)
theorem execPerstNRelease_leads {t port : Nat} : s.leads (execPerstNRelease t port q) := .next (.ite h.advance.updPort h.advance)

theorem execHostLinkTrained_leads {t port : Nat} {ltr : List LtrVal} : s.leads (execHostLinkTrained t port ltr q) :=
  .ite (.next h.advance) (.next (.evalDepth (h.advance.updPort.foldl fun h => .ite h.updFn h)))

/-! ### The Gallery -/

theorem State.evolves.updGal {g : Gallery → Gallery} : s.evolves (q.updGal g) := h.update rfl
theorem State.evolves.updGalPort {p : Nat} {g : GalPort → GalPort} : s.evolves (q.updGalPort p g) := h.updGal
theorem State.evolves.updPeer {p : Nat} {g : Peer → Peer} : s.evolves (q.updPeer p g) := h.updGal
theorem State.evolves.galDown {p st : Nat} : s.evolves (q.galDown p st) := h.updGalPort.updGal.orReg

theorem execGalleryLinkTrained_leads {t port lanes : Nat} : s.leads (execGalleryLinkTrained t port lanes q) :=
  .ite (.next h.advance) (.next h.advance.updGalPort.send)

theorem execGalleryLaneLoss_leads {t port : Nat} {halfTrains : Bool} : s.leads (execGalleryLaneLoss t port halfTrains q) :=
  .ite (.next h.advance) (.ite (.next h.advance.updGalPort.updGal) (.next h.advance.galDown))

theorem execHello_leads {t port : Nat} {msg : HelloMsg} : s.leads (execHello t port msg q) :=
  .ite (.next h.advance) (.ite (.next h.advance.updGalPort.updGal.setReg) (.ite (.next h.advance.updGalPort.updGal.send)
      (.next h.advance.updGalPort.updGal.updPeer)))

theorem execFlitError_leads {t port seq : Nat} : s.leads (execFlitError t port seq q) := .next (.ite h.advance.send h.advance)

theorem execReplayRequest_leads {t port seq : Nat} : s.leads (execReplayRequest t port seq q) :=
  .ite (.next h.advance) (.next (.ite h.advance.updGalPort.galDown h.advance.updGalPort.send))

theorem State.evolves.staleFlits {peer count : Nat} : s.evolves (q.staleFlits peer count) := h.updPeer.updGal.orReg
theorem execStaleFlitDrop_leads {t peer gen count : Nat} : s.leads (execStaleFlitDrop t peer gen count q) := .next (.ite h.advance.staleFlits h.advance)
theorem execHeartbeatSend_leads {t : Nat} : s.leads (execHeartbeatSend t q) := .next (.ite (h.advance.foldl (·.send)) h.advance)

theorem execHeartbeat_leads {t port peer gen : Nat} : s.leads (execHeartbeat t port peer gen q) :=
  .ite (.next h.advance) (.ite (.next h.advance.updPeer) (.next h.advance.staleFlits))

theorem execPeerLossTimeout_leads {t peer : Nat} : s.leads (execPeerLossTimeout t peer q) := .next (.ite h.advance.updPeer h.advance)
theorem execDeclarePeerLost_leads {t fn peer : Nat} : s.leads (execDeclarePeerLost t fn peer q) := .next (.ite h.advance.wakeDormant.updPeer h.advance)
theorem execRetrainPort_leads {t fn port : Nat} : s.leads (execRetrainPort t fn port q) := .next (.ite h.advance.wakeDormant.updGalPort.updGal h.advance)

theorem execLossNotice_leads {t peer : Nat} {msg : LossMsg} : s.leads (execLossNotice t peer msg q) :=
  .ite (.next h.advance) (.ite (.next h.advance.updGal) (.ite (.next h.advance.updPeer) (.next h.advance)))

theorem State.evolves.peerEnd {slot record : Nat} : s.evolves (q.peerEnd slot record) := by
  unfold State.peerEnd
  split
  · exact h
  · exact h.dropTasks.setReq

theorem State.evolves.losePeer {p : Nat} : s.evolves (q.losePeer p) :=
  .foldl (.foldl (.emit (.orReg (.ite (.enterHoldover (.update (h.updPeer.updGal.foldl (·.send)))) (.update (h.updPeer.updGal.foldl (·.send)))))) (·.freeSlot)) (·.peerEnd)

theorem State.evolves.reroutes : s.evolves q.reroutes := .ite h h.updGal
theorem State.evolves.galBoundary : s.evolves q.galBoundary := .reroutes (.foldl (.foldl (h.foldl (·.losePeer)) (·.updPeer)) (·.updPeer.emit))
theorem execPeerDirectory_leads {t peer : Nat} {dir : PeerDir} : s.leads (execPeerDirectory t peer dir q) := .next (.ite h.advance.updPeer.updGal h.advance)

/-! ### Counters -/

theorem State.evolves.countLand {l event n : Nat} {spec : Bool} {kind : Nat} : s.evolves (q.countLand l event n spec kind) := .ite h h.updLand
theorem State.evolves.allCnt {g : Counters → Counters} : s.evolves (q.allCnt g) := h.foldl (·.updLand)

theorem State.evolves.cntAction {op : Nat} : s.evolves (q.cntAction op) := by
  unfold State.cntAction
  split
  · exact .ite h h.allCnt.update
  · exact .ite h (.update (h.foldl (·.updLand)))
  · exact h.allCnt.update
  · exact h.allCnt.update
  · exact h

theorem execEvselWrite_leads {t fn i : Nat} {value : Word} : s.leads (execEvselWrite t fn i value q) :=
  .ite (.next h.advance) (.ite (.next h.advance.wakeDormant.orReg) (.ite (.next h.advance.wakeDormant) (.next h.advance.wakeDormant.updLand)))

theorem State.evolves.schedApply {j : Nat} : s.evolves (q.schedApply j) :=
  .ite (.setReg (.cntAction (.ite h.update.orReg h))) (.setRegN (.cntAction (.ite h.update.orReg h)))

theorem State.evolves.schedBoundary : s.evolves q.schedBoundary := h.foldl fun h => .ite h.schedApply h

theorem State.evolves.schedRun {n : Nat} : s.evolves (State.schedRun n q) := by
  induction n generalizing q with
  | zero => exact h
  | succ n ih =>
    unfold State.schedRun
    split
    · exact ih h.schedApply
    · exact h

theorem State.evolves.schedNow : s.evolves q.schedNow := h.schedRun
theorem State.evolves.cntCmd {fn op : Nat} : s.evolves (q.cntCmd fn op) := .ite h.wakeDormant.schedNow.cntAction h
theorem execFreeze_leads {t fn : Nat} : s.leads (execFreeze t fn q) := .next h.advance.cntCmd
theorem execUnfreeze_leads {t fn : Nat} : s.leads (execUnfreeze t fn q) := .next h.advance.cntCmd
theorem execSnapshot_leads {t fn : Nat} : s.leads (execSnapshot t fn q) := .next h.advance.cntCmd
theorem execClear_leads {t fn : Nat} : s.leads (execClear t fn q) := .next h.advance.cntCmd
theorem execScheduledCounterAction_leads {t j : Nat} : s.leads (execScheduledCounterAction t j q) := .next (.ite h.advance.schedApply h.advance)
theorem execProgCounterWrap_leads {t landing i amount : Nat} : s.leads (execProgCounterWrap t landing i amount q) := .next (.ite h.advance.updLand h.advance)
theorem execSampleWrite_leads {t landing : Nat} {entry : SampleFields} : s.leads (execSampleWrite t landing entry q) := .next (.ite h.advance.updLand h.advance)

/-! ### Loadable units -/

theorem State.evolves.updUnits {g : Units → Units} : s.evolves (q.updUnits g) := h.update rfl
theorem State.evolves.stageWord {sel hi lo top : Nat} {l : Loader} {v : Word} : s.evolves (q.stageWord sel hi lo top l v).1 := .iteFst h h.setReg

theorem execMpDataWrite_leads {t fn : Nat} {value : Word} : s.leads (execMpDataWrite t fn value q) :=
  .ite (.next h.advance) (.next h.advance.wakeDormant.stageWord.updUnits)

theorem execMpCommit_leads {t fn : Nat} : s.leads (execMpCommit t fn q) := .ite (.next h.advance) (.next h.advance.wakeDormant.updUnits)
theorem execMpClear_leads {t fn : Nat} : s.leads (execMpClear t fn q) := .ite (.next h.advance) (.next h.advance.wakeDormant.updUnits)

theorem execTblDataWrite_leads {t fn : Nat} {value : Word} : s.leads (execTblDataWrite t fn value q) :=
  .ite (.next h.advance) (.next h.advance.wakeDormant.setReg.updUnits)

theorem execTblCommit_leads {t fn : Nat} : s.leads (execTblCommit t fn q) := .ite (.next h.advance) (.next h.advance.wakeDormant.updUnits)
theorem execTblClear_leads {t fn : Nat} : s.leads (execTblClear t fn q) := .ite (.next h.advance) (.next h.advance.wakeDormant.updUnits)

theorem execWalkDataWrite_leads {t fn : Nat} {value : Word} : s.leads (execWalkDataWrite t fn value q) :=
  .ite (.next h.advance) (.ite (.ite (.next h.advance.wakeDormant.updUnits) (.next h.advance.wakeDormant.updUnits)) (.next h.advance.wakeDormant.stageWord.updUnits))

theorem State.evolves.walkCommand {fn : Nat} {content : Option (Except (Nat × Nat) Prog)} : s.evolves (q.walkCommand fn content) := .ite h h.wakeDormant.updUnits
theorem execWalkCommit_leads {t fn : Nat} : s.leads (execWalkCommit t fn q) := .next h.advance.walkCommand
theorem execWalkClear_leads {t fn : Nat} : s.leads (execWalkClear t fn q) := .next h.advance.walkCommand
theorem State.evolves.normCommand {fn : Nat} {commit : Bool} : s.evolves (q.normCommand fn commit) := .ite h h.wakeDormant.updUnits
theorem execNormCommit_leads {t fn : Nat} : s.leads (execNormCommit t fn q) := .next h.advance.normCommand
theorem execNormClear_leads {t fn : Nat} : s.leads (execNormClear t fn q) := .next h.advance.normCommand
theorem State.evolves.unitsBoundary : s.evolves q.unitsBoundary := h.update rfl

theorem execEccCountClear_leads {t fn : Nat} {value : Word} : s.leads (execEccCountClear t fn value q) :=
  .ite (.next h.advance) (.next (h.advance.wakeDormant.foldl fun h => .ite h.setReg h))

theorem State.evolves.stage {off : Nat} {v : Word} : s.evolves (q.stage off v) := h.update rfl

theorem execAlcPinWrite_leads {t fn alcove : Nat} {value : Word} : s.leads (execAlcPinWrite t fn alcove value q) :=
  .ite (.next h.advance) (.next (.ite h.advance.wakeDormant.orReg h.advance.wakeDormant.stage))

theorem execPcSetWrite_leads {t fn set die : Nat} {value : Word} : s.leads (execPcSetWrite t fn set die value q) :=
  .ite (.next h.advance) (.next (.ite (.ite h.advance.wakeDormant.orReg h.advance.wakeDormant) (.setRegN (.ite h.advance.wakeDormant.orReg h.advance.wakeDormant))))

/-! ### Objects -/

theorem State.evolves.setIndex {i : Nat} {x : Index} : s.evolves (q.setIndex i x) := h.updObjs
theorem State.evolves.updTable {n : Nat} {g : Table → Table} : s.evolves (q.updTable n g) := h.updObjs

/-! ### Pinned regions and caches -/

theorem State.evolves.regionSync {i off : Nat} : s.evolves (q.regionSync i off) := h.foldl (·.regionWrite)
theorem State.evolves.syncContent {content : Nat} : s.evolves (q.syncContent content) := h.foldl (·.regionSync)
theorem State.evolves.staticWrite {content : Nat} : s.evolves (q.staticWrite content) := .ite h.updAlc h.syncContent
theorem State.evolves.staticDue : s.evolves q.staticDue := .ite h (.updAlc (h.foldl (·.syncContent)))
theorem State.evolves.regionLoad {i : Nat} : s.evolves (q.regionLoad i) := .ite h.staticWrite (.ite h.regionSync h.regionSync)

theorem execPinRegionWrite_leads {t fn region : Nat} {value : Word} : s.leads (execPinRegionWrite t fn region value q) :=
  .ite (.next h.advance) (.next (.ite h.advance.wakeDormant.orReg (.ite h.advance.wakeDormant.setReg.regionLoad h.advance.wakeDormant.setReg)))

theorem State.evolves.prefLine {key : Nat} : s.evolves (q.prefLine key) := h.foldl (·.regionWrite)
theorem State.evolves.prefsChange {is : PrefEnt → Bool} {g : PrefEnt → Option PrefEnt} : s.evolves (q.prefsChange is g) := h.updObjs.foldl (·.prefLine)
theorem State.evolves.prefDrop {is : PrefEnt → Bool} : s.evolves (q.prefDrop is) := h.prefsChange

theorem State.evolves.evictOne {p : Nat} {r : State} (e : q.evictOne p = some r) : s.evolves r := by
  unfold State.evictOne at e
  dsimp only at e
  split at e <;> cases e
  · exact h.updObjs
  · exact h.prefDrop
  · exact .ite h.updObjs h.prefDrop

theorem State.evolves.evictUntil {p n : Nat} {ok : State → Bool} : s.evolves (State.evictUntil p ok n q) := by
  induction n generalizing q with
  | zero => exact h
  | succ n ih =>
    unfold State.evictUntil
    refine .ite h ?_
    split
    next hr => exact ih (h.evictOne hr)
    next => exact h

theorem State.evolves.evictFor {set : Nat} {ok : State → Bool} : s.evolves (q.evictFor set ok) := .ite h.evictUntil h
theorem State.evolves.roomDies {set : Nat} {needs : List (Nat × Nat)} : s.evolves (q.roomDies set needs) := h.evictFor
theorem State.evolves.room {set n : Nat} : s.evolves (q.room set n) := h.evictFor
theorem State.evolves.prefetch {p l a : Nat} : s.evolves (q.prefetch p l a) := .ite h.alcPrefetch h

/-! ### Admission -/

theorem State.evolves.updTenant {t : Nat} {g : Tenant → Tenant} : s.evolves (q.updTenant t g) := h.update rfl
theorem State.evolves.refuse {slot status : Nat} : s.evolves (q.refuse slot status) := h.updReq.finish

theorem State.evolves.check56 {slot : Nat} : s.evolves (q.check56 slot) := by
  unfold State.check56
  split
  · exact h
  · refine .ite h.setReq (.ite h.updTenant.refuse (.ite h.setReq (.ite h.refuse (.setReq ?_))))
    split
    · exact .ite h.update h
    · exact h

theorem State.evolves.entered {f n slot : Nat} : s.evolves (q.entered f n slot) := by
  unfold State.entered
  exact h.takeDesc.setReq.update

theorem State.evolves.accepted {slot : Nat} {d : Blob} : s.evolves (q.accepted slot d) := h.updReq.statusBlock

theorem State.evolves.admitWith {f n : Nat} {act : AtAdmit} {own : Bool} (hact : ∀ {r slot}, s.evolves r → s.evolves (act r slot)) :
    s.evolves (q.admitWith f n act own) := by
  unfold State.admitWith
  split
  · exact h
  · exact .ite h.entered.updReq.refuse (.ite (hact h.entered.accepted) (.ite h.entered.accepted.updReq (hact (.check56
      (.ite h.entered.accepted.updPart h.entered.accepted)))))

theorem State.evolves.descriptor {t f n o : Nat} {sub : Option (Nat × Nat × Nat)} {act : AtAdmit} {own : Bool} (hact : ∀ {r slot}, s.evolves r → s.evolves (act r slot)) :
    s.evolves (q.descriptor t f n o sub act own) :=
  .ite (h.advance.admitWith hact) h.advance

/-! ### Sync counters, sessions and endings -/

theorem State.evolves.setSync {i : Nat} {x : Sync} : s.evolves (q.setSync i x) := h.update rfl
theorem State.evolves.endWith {slot status : Nat} {ext : Blob} : s.evolves (q.endWith slot status ext) := h.updReq.finish
theorem State.evolves.orphanWaits {h' v : Nat} : s.evolves (q.orphanWaits h' v) := h.update rfl

theorem State.evolves.signal {slot : Nat} : s.evolves (q.signal slot) := by
  unfold State.signal
  split
  · exact h
  · dsimp only
    split
    · refine .ite h.endWith ?_
      split
      · exact h.endWith
      · exact h.setSync.endWith
    · split
      · exact h.endWith
      · exact .ite h.setSync.endWith h.setSync.orphanWaits.endWith

theorem State.evolves.admitSignal {slot : Nat} : s.evolves (q.admitSignal slot) := by
  unfold State.admitSignal
  split
  · exact h
  · exact .ite h.endWith (.ite h.setReq h.signal)

theorem execSyncAdd_leads {t fn ring : Nat} : s.leads (execSyncAdd t fn ring q) := .next (h.descriptor (·.admitSignal))
theorem execSyncCreate_leads {t fn ring : Nat} : s.leads (execSyncCreate t fn ring q) := .next (h.descriptor (·.admitSignal))
theorem execSyncDestroy_leads {t fn ring : Nat} : s.leads (execSyncDestroy t fn ring q) := .next (h.descriptor (·.admitSignal))

theorem execSyncAfterRingEffect_leads {t slot : Nat} : s.leads (execSyncAfterRingEffect t slot q) := by
  unfold execSyncAfterRingEffect
  dsimp only
  split
  · exact .next (.ite h.advance.signal h.advance)
  · exact .next h.advance

theorem State.evolves.evalWait {slot : Nat} {boundary : Bool} : s.evolves (q.evalWait slot boundary) := by
  unfold State.evalWait
  split
  · exact h
  · refine .ite h (.ite (.ite h.finish h) ?_)
    split
    · exact .ite h.endWith h
    · exact .ite h.endWith (.ite h.endWith h)

theorem execSyncWait_leads {t fn ring : Nat} : s.leads (execSyncWait t fn ring q) := by
  unfold execSyncWait
  refine .next (h.descriptor fun h => ?_)
  split
  · exact h
  · exact .ite h.endWith h.setReq.evalWait

theorem execSyncWaitTimeout_leads {t slot : Nat} : s.leads (execSyncWaitTimeout t slot q) := by
  unfold execSyncWaitTimeout
  dsimp only
  split
  · exact .next (.ite h.advance.evalWait h.advance)
  · exact .next h.advance

theorem State.evolves.stopReq {slot status : Nat} : s.evolves (q.stopReq slot status) := by
  unfold State.stopReq
  split
  · exact h
  · exact .ite h.endReq.updReq.finish h.endReq.updReq

theorem State.evolves.deadlineOne {slot b : Nat} : s.evolves (q.deadlineOne slot b) := by
  unfold State.deadlineOne
  split
  · exact h
  · exact .ite h h.stopReq

theorem execDeadlineExpiry_leads {t slot : Nat} : s.leads (execDeadlineExpiry t slot q) := .next (.ite h.advance.deadlineOne h.advance)

theorem State.evolves.cancelOne {slot : Nat} : s.evolves (q.cancelOne slot) := by
  unfold State.cancelOne
  split
  · exact h
  · exact .ite h.setReq h.stopReq

theorem execCancel_leads {t fn ring : Nat} : s.leads (execCancel t fn ring q) := by
  unfold execCancel
  refine .next (h.descriptor fun h => ?_)
  split
  · exact h
  · dsimp only
    split
    · exact .ite (.finish (.setReq (h.setReq.foldl (·.cancelOne)))) (h.setReq.foldl (·.cancelOne))
    · exact h.setReq.foldl (·.cancelOne)

theorem execCancelComplete_leads {t slot : Nat} : s.leads (execCancelComplete t slot q) := by
  unfold execCancelComplete
  dsimp only
  split
  · exact .next (.ite h.advance.setReq.finish h.advance)
  · exact .next h.advance

theorem execSessionOpen_leads {t fn ring : Nat} : s.leads (execSessionOpen t fn ring q) := by
  unfold execSessionOpen
  refine .next (h.descriptor fun h => ?_)
  split
  · exact h
  · refine .ite h.refuse ?_
    split
    · exact h.refuse
    · exact h.update.setReq.finish

theorem State.evolves.closeSession {i : Nat} : s.evolves (q.closeSession i) := h.update rfl

theorem execSessionClose_leads {t fn ring : Nat} : s.leads (execSessionClose t fn ring q) := by
  unfold execSessionClose
  refine .next (h.descriptor fun h => ?_)
  split
  · exact h
  · split
    · exact h.refuse
    · exact .ite h.setReq.update h.closeSession.endWith

theorem execSessionCloseComplete_leads {t slot : Nat} : s.leads (execSessionCloseComplete t slot q) := by
  unfold execSessionCloseComplete
  dsimp only
  split
  · exact .next (.ite h.advance.closeSession.endWith h.advance)
  · exact .next h.advance

/-! ### The index -/

theorem State.evolves.writeCopies {i e : Nat} {proto : Entry} {copies : List (Nat × Bool)} : s.evolves (q.writeCopies i e proto copies).1 := by
  unfold State.writeCopies
  refine .iteFst h (.iteFst h ?_)
  dsimp only
  split
  · exact h
  · exact h.setIndex

theorem State.evolves.recOne {i opc stride e : Nat} {b : Blob} : s.evolves (q.recOne i opc stride e b).1 := by
  unfold State.recOne
  split
  · exact .iteFst h (.iteFst h (.iteFst h h.setIndex))
  · refine .iteFst h ?_
    split
    · exact h
    · exact h.writeCopies
  · dsimp only
    split
    · exact h
    · exact h.writeCopies

theorem State.evolves.runBatch {one : State → Blob → State × RecResult} {bs : List Blob} (hone : ∀ {r b}, s.evolves r → s.evolves (one r b).1) :
    s.evolves (runBatch one bs q).1 := by
  induction bs generalizing q with
  | nil => exact h
  | cons b bs ih => exact .iteFst h (ih (hone h))

theorem State.evolves.idxWarn : s.evolves q.idxWarn := .ite h h.setReg.emit
theorem State.evolves.noteCommit : s.evolves q.noteCommit := h.updObjs.idxWarn

theorem State.evolves.batchDone {slot e : Nat} {rs : List RecResult} {commit : Bool} : s.evolves (q.batchDone slot e rs commit) := by
  unfold State.batchDone
  split
  · exact h
  · exact .ite h.setReq h.setReq.noteCommit

theorem State.evolves.writeCoarse {x : Index} : s.evolves (q.writeCoarse x) := h.foldl fun h => .ite h.regionWrite.regionWrite h
theorem State.evolves.runUpdate {r : Req} : s.evolves (q.runUpdate r).1 := h.runBatch (·.recOne)

theorem State.evolves.commitNow {slot : Nat} : s.evolves (q.commitNow slot) := by
  unfold State.commitNow
  split
  · exact h
  · refine .ite h.setIndex.writeCoarse.setReq.noteCommit ?_
    dsimp only
    split
    · exact .ite h.runUpdate.batchDone h.runUpdate.batchDone.finish
    · exact h.runUpdate.batchDone

theorem State.evolves.defer {slot : Nat} : s.evolves (q.defer slot) := by
  unfold State.defer
  split
  · exact .ite h h.setReq.update
  · exact h

theorem execIndexCommit_leads {t slot : Nat} : s.leads (execIndexCommit t slot q) := by
  unfold execIndexCommit
  dsimp only
  split
  · exact .next h.advance
  · exact .ite (.next h.advance) (.ite (.next h.advance.defer) (.next (.ite h.advance.commitNow h.advance)))

theorem State.evolves.epochClose : s.evolves q.epochClose := by
  unfold State.epochClose
  refine .ite (.updObjs (h.foldl fun h => ?_)) (h.foldl fun h => ?_)
  · dsimp only
    split
    · exact .finish (.ite h.setIndex h)
    · exact h
  · dsimp only
    split
    · exact .finish (.ite h.setIndex h)
    · exact h

theorem State.evolves.buildBegin {slot : Nat} {r : Req} : s.evolves (q.buildBegin slot r) := by
  unfold State.buildBegin
  refine .ite h.setReq ?_
  dsimp only
  split
  · exact h.roomDies.setReq
  · exact h.roomDies.setIndex.setReq

theorem State.evolves.buildOne {i stride : Nat} {b : Blob} : s.evolves (q.buildOne i stride b).1 := by
  unfold State.buildOne
  dsimp only
  split
  · exact h
  · refine .iteFst h ?_
    split
    · exact h
    · exact h.setIndex

theorem State.evolves.buildPhase {slot : Nat} {r : Req} : s.evolves (q.buildPhase slot r) := by
  unfold State.buildPhase
  dsimp only
  split
  · exact h.buildBegin
  · exact .ite h.setReq (.ite (.ite h.setReq (.batchDone (.setReq (h.runBatch (·.buildOne))))) (.ite h h.setIndex.setReq))

theorem State.evolves.consRelease {slot : Nat} {r : Req} : s.evolves (q.consRelease slot r).1 :=
  .iteFst h.setReq (.iteFst h.setReq (.iteFst h.setReq.orReg h.setReq))

theorem State.evolves.switchBatch {slot e : Nat} {r : Req} : s.evolves (q.switchBatch slot e r) := .ite h.setIndex.setReq.noteCommit h.setIndex.setReq

theorem execConsolidationSwitch_leads {t slot : Nat} : s.leads (execConsolidationSwitch t slot q) := by
  unfold execConsolidationSwitch
  dsimp only
  split
  · exact .next h.advance
  · exact .ite (.next h.advance) (.ite (.next h.advance.defer) (.ite (.next h.advance) (.ite (.next h.advance.switchBatch) (.ite (.next h.advance.orReg)
      (.next h.advance.setReq)))))

theorem execRoomVersionReclaim_leads {t index room : Nat} : s.leads (execRoomVersionReclaim t index room q) := .next (.ite h.advance.setIndex h.advance)
theorem execIndexInsert_leads {t fn ring : Nat} : s.leads (execIndexInsert t fn ring q) := .next (h.descriptor fun h => h)
theorem execIndexDelete_leads {t fn ring : Nat} : s.leads (execIndexDelete t fn ring q) := .next (h.descriptor fun h => h)
theorem execIndexSetAttr_leads {t fn ring : Nat} : s.leads (execIndexSetAttr t fn ring q) := .next (h.descriptor fun h => h)
theorem execIndexConsolidate_leads {t fn ring : Nat} : s.leads (execIndexConsolidate t fn ring q) := .next (h.descriptor fun h => h)
theorem execIndexBuildBegin_leads {t fn ring : Nat} : s.leads (execIndexBuildBegin t fn ring q) := .next (h.descriptor fun h => h)
theorem execIndexBuildAdd_leads {t fn ring : Nat} : s.leads (execIndexBuildAdd t fn ring q) := .next (h.descriptor fun h => h)
theorem execIndexBuildFinish_leads {t fn ring : Nat} : s.leads (execIndexBuildFinish t fn ring q) := .next (h.descriptor fun h => h)
theorem execIndexBuildAbort_leads {t fn ring : Nat} : s.leads (execIndexBuildAbort t fn ring q) := .next (h.descriptor fun h => h)

theorem State.evolves.indexDone {slot : Nat} : s.evolves (q.indexDone slot) := by
  unfold State.indexDone
  split
  · exact h
  · exact .ite h (.ite h.setReq (.ite h.buildPhase h.setReq))

/-! ### Search -/

theorem State.evolves.fixSnapshot {slot : Nat} {r : Req} : s.evolves (q.fixSnapshot slot r) := h.setReq.foldl (·.send)
theorem State.evolves.probeDone {slot : Nat} {r : Req} : s.evolves (q.probeDone slot r) := h.setReq
theorem State.evolves.scanRelease {slot : Nat} {r : Req} : s.evolves (q.scanRelease slot r) := .ite h.setReq h.setReq
theorem State.evolves.scanDone {slot : Nat} {r : Req} : s.evolves (q.scanDone slot r) := h.setReq
theorem State.evolves.selectDone {slot : Nat} {r : Req} : s.evolves (q.selectDone slot r) := .ite h.setReq (.ite h.setReq h.setReq)
theorem State.evolves.refineDone {slot : Nat} {r : Req} : s.evolves (q.refineDone slot r) := h.setReq
theorem State.evolves.mergeDone {slot : Nat} {r : Req} : s.evolves (q.mergeDone slot r) := .ite h.setReq h.setReq
theorem execRetrieve_leads {t fn ring : Nat} : s.leads (execRetrieve t fn ring q) := .next (h.descriptor fun h => h)
theorem execRecallProbe_leads {t fn ring : Nat} : s.leads (execRecallProbe t fn ring q) := .next (h.descriptor fun h => h)

theorem execSubRequest_leads {t peer : Nat} {msg : SubReq} : s.leads (execSubRequest t peer msg q) :=
  .ite (.next h.advance) (.next h.advance.updPeer.wakeDormant.setReq.update)

theorem State.evolves.admitSub {slot : Nat} {r : Req} : s.evolves (q.admitSub slot r) := by
  unfold State.admitSub
  dsimp only
  split
  · exact h
  · exact .ite h.setReq h.send.freeSlot

theorem State.evolves.finishSub {slot : Nat} : s.evolves (q.finishSub slot) := by
  unfold State.finishSub
  split
  · exact h
  · split
    · exact h
    · exact .freeSlot (.ite h.send (.ite h h.send))

theorem State.evolves.galCrc {slot port peer : Nat} : s.evolves (q.galCrc slot port peer) := by
  unfold State.galCrc
  dsimp only
  split
  · exact h.updGalPort.emit.doubt
  · exact h.updGalPort.emit

theorem State.evolves.peerDoubt {slot causes : Nat} : s.evolves (q.peerDoubt slot causes) := .ite h h.doubt

theorem execSubRequestPool_leads {t peer slot : Nat} {pool : List Cand} {causes : Nat} {crcOk : Bool} {counts : List Nat} :
    s.leads (execSubRequestPool t peer slot pool causes crcOk counts q) := by
  unfold execSubRequestPool
  dsimp only
  split
  · exact .next h.advance
  · exact .ite (.next h.advance) (.ite (.next h.advance.updPeer.galCrc) (.next h.advance.updPeer.setReq.peerDoubt))

/-! ### The Arcade engines -/

theorem State.evolves.countReplaced {slot n : Nat} : s.evolves (q.countReplaced slot n) := .ite h h.satField
theorem State.evolves.formPrompt {slot : Nat} {r : Req} {prompt : List Nat} : s.evolves (q.formPrompt slot r prompt) := h.setReq

theorem State.evolves.finishUnrun {slot : Nat} : s.evolves (q.finishUnrun slot) := by
  unfold State.finishUnrun
  split
  · exact .ite h.setReq.finish h
  · exact h

theorem State.evolves.admitTokens {slot : Nat} : s.evolves (q.admitTokens slot) := by
  unfold State.admitTokens
  split
  · exact h
  · refine .ite h ?_
    dsimp only
    split
    · exact h.endWith
    · exact .ite h.formPrompt h.setReq

theorem State.evolves.tokenizeDone {slot : Nat} {r : Req} {v : Blob} {o : TextOut} : s.evolves (q.tokenizeDone slot r v o) := h.setReq

theorem State.evolves.tokeniseDone {slot : Nat} {r : Req} : s.evolves (q.tokeniseDone slot r) := by
  unfold State.tokeniseDone
  dsimp only
  split
  · exact h.countReplaced.setReq
  · exact .ite h.countReplaced.tokenizeDone (.ite h.countReplaced.formPrompt h.countReplaced.setReq)

theorem State.evolves.detokeniseDone {slot : Nat} {r : Req} : s.evolves (q.detokeniseDone slot r) := by
  unfold State.detokeniseDone
  dsimp only
  split
  · exact h.setReq
  · exact h.countReplaced.setReq

theorem State.evolves.embedDone {slot : Nat} {r : Req} : s.evolves (q.embedDone slot r) := .ite h.setReq h.setReq
theorem execEmbed_leads {t fn ring : Nat} : s.leads (execEmbed t fn ring q) := .next (h.descriptor (·.admitTokens))
theorem execTokenize_leads {t fn ring : Nat} : s.leads (execTokenize t fn ring q) := .next (h.descriptor fun h => h)
theorem execDetokenize_leads {t fn ring : Nat} : s.leads (execDetokenize t fn ring q) := .next (h.descriptor fun h => h)

/-! ### Fetch, rerank and the prompt -/

theorem State.evolves.cacheTouch {p : Nat} {kv : Bool} {key : Blob} : s.evolves (q.cacheTouch p kv key) := h.updObjs

theorem State.evolves.trimHot {p size n : Nat} : s.evolves (State.trimHot p size n q) := by
  induction n generalizing q with
  | zero => exact h
  | succ n ih =>
    unfold State.trimHot
    refine .ite h ?_
    split
    · exact ih h.updObjs
    · exact h

theorem State.evolves.cacheRoom {p size : Nat} : s.evolves (q.cacheRoom p size).1 := .iteFst h h.evictFor
theorem State.evolves.of_cacheRoom {p size : Nat} {r : State × Option Nat} (e : q.cacheRoom p size = r) : s.evolves r.1 := e ▸ h.cacheRoom

theorem State.evolves.cacheInsert {e : CacheEnt} : s.evolves (q.cacheInsert e) := by
  unfold State.cacheInsert
  refine .ite h.cacheTouch (.ite (.ite h h.trimHot) ?_)
  split
  next he => exact .of_cacheRoom (.ite h h.trimHot) he
  next he => exact .updObjs (.of_cacheRoom (.ite h h.trimHot) he)

theorem State.evolves.sendNeeds {slot : Nat} {r : Req} {found : List (Cand × Fetched)} : s.evolves (q.sendNeeds slot r found) := h.setReq.foldl (·.send)
theorem State.evolves.sendReads {slot : Nat} {r : Req} : s.evolves (q.sendReads slot r) := h.sendNeeds

theorem State.evolves.fetchRelease {slot : Nat} {r : Req} : s.evolves (q.fetchRelease slot r) :=
  .ite (.setReq (h.foldl (·.cacheTouch))) (.ite (.peerEnd (.setReq (h.foldl (·.cacheTouch)))) (.sendReads (h.foldl (·.cacheTouch))))

theorem State.evolves.fetchDone {slot : Nat} {r : Req} : s.evolves (q.fetchDone slot r) := .setReq (.ite h (h.foldl (·.cacheInsert)))
theorem State.evolves.rerankDone {slot : Nat} {r : Req} : s.evolves (q.rerankDone slot r) := h.setReq
theorem State.evolves.putContext {r : Req} {promptLen : Nat} {cut : Bool} : s.evolves (q.putContext r promptLen cut) := .ite h h.hostWrite

theorem State.evolves.packDone {slot : Nat} {r : Req} : s.evolves (q.packDone slot r) := by
  unfold State.packDone
  exact .ite h.putContext.setReq h.putContext.formPrompt

theorem State.evolves.prefInsert {ks : List (Nat × List Nat)} {p word : Nat} {rows : List Blob} {i : Nat} : s.evolves (q.prefInsert ks p word rows i) := by
  unfold State.prefInsert
  refine .ite h.cntPart (.ite h ?_)
  extract_lets bucket free enabled share rich victim slot r size
  have hr : s.evolves r := by
    refine .ite h ?_
    clear_value victim
    split
    · exact h.prefDrop
    · exact h
  clear_value bucket free enabled share rich victim slot r size
  cases slot with
  | none => exact h.cntPart
  | some n =>
    cases hc : r.cacheRoom p size with
    | mk r' a =>
      have hr' := hr.of_cacheRoom hc
      cases a with
      | none => exact hr'.cntPart
      | some a => exact .cntPart (.prefLine hr'.updObjs)

theorem State.evolves.pinBlock {ks : List (Nat × List Nat)} {p i : Nat} {pin : Bool} : s.evolves (q.pinBlock ks p i pin) := .ite h (.ite h.cntPart h.prefsChange)

theorem State.evolves.prefillReuse {r : Req} {plan : Nat × Bool × Nat} : s.evolves (q.prefillReuse r plan) :=
  .foldl (.ite (.cntPart (.ite h h.prefsChange.cntPart)) (.ite h h.prefsChange.cntPart)) (·.cacheTouch.cntPart)

theorem State.evolves.prefillInsert {slot : Nat} {r : Req} : s.evolves (q.prefillInsert slot r) := by
  unfold State.prefillInsert
  refine .ite h ?_
  extract_lets p word x kvs forms work gen q1 ks q2 inAnchor q3
  have h2 : s.evolves q2 := h.setReq.foldl (·.prefInsert)
  have h3 : s.evolves q3 := .ite (h2.foldl (·.pinBlock)) (.ite (h2.foldl (·.pinBlock)) h2)
  exact .ite h3 (h3.foldl (·.cacheInsert))

/-! ### Generation -/

theorem State.evolves.prefillRelease {slot : Nat} {r : Req} : s.evolves (q.prefillRelease slot r).1 := by
  unfold State.prefillRelease
  dsimp only
  split
  · exact h.setReq.room.setReq
  · exact h.setReq.room.setReq.prefillReuse

theorem State.evolves.decodeRelease {slot : Nat} {r : Req} : s.evolves (q.decodeRelease slot r) := h.setReq

theorem State.evolves.release {slot n : Nat} {b : Blob} : s.evolves (q.release slot n b).1 := by
  unfold State.release
  split
  · exact h
  · exact .iteFst h (.iteFst h.setReq.streamPut (.setReq (.ite h h.hostWrite)))

theorem State.evolves.handOne {slot : Nat} : s.evolves (q.handOne slot).1 := by
  unfold State.handOne
  split
  · exact h
  · dsimp only
    split
    · exact h
    · split
      · exact h.setReq.countReplaced.release
      · exact .iteFst h.setReq.countReplaced.release.setReq.satField (.iteFst
          (.iteFst h.setReq.countReplaced.release h.setReq.countReplaced.release.setReq) h.setReq.countReplaced.release)

theorem State.evolves.handOver {n slot : Nat} : s.evolves (State.handOver n slot q).1 := by
  induction n generalizing q with
  | zero => exact h
  | succ n ih => exact .iteFst h.handOne (ih h.handOne)

theorem State.evolves.genFinish {slot : Nat} : s.evolves (q.genFinish slot) := by
  unfold State.genFinish
  split
  · exact h
  · exact h.setReq.countReplaced.release.updReq

theorem State.evolves.genStepDone {slot : Nat} {r : Req} : s.evolves (q.genStepDone slot r) := by
  unfold State.genStepDone
  refine .ite h ?_
  dsimp only
  split
  · exact h.handOver
  · refine .ite h.handOver.setReq.genFinish ?_
    split
    · exact .setReq (.ite h.handOver.setReq h.handOver.setReq.cntPart.cntPart.updPart)
    · exact .ite (.genFinish (.setReq (.ite h.handOver.setReq h.handOver.setReq.cntPart.cntPart.updPart))) (.setReq
        (.ite h.handOver.setReq h.handOver.setReq.cntPart.cntPart.updPart))

theorem execCheckPassHandover_leads {t slot : Nat} : s.leads (execCheckPassHandover t slot q) := by
  unfold execCheckPassHandover
  dsimp only
  split
  · exact .next h.advance
  · exact .ite (.next h.advance) (.ite (.next h.advance.setReq) (.next h.advance.setReq.handOver.genFinish))

theorem State.evolves.admitGenerate {slot : Nat} : s.evolves (q.admitGenerate slot) := by
  unfold State.admitGenerate
  split
  · exact h
  · exact h.setReq.admitTokens.updReq.finishUnrun

theorem execGenerate_leads {t fn ring : Nat} : s.leads (execGenerate t fn ring q) := .next (h.descriptor (·.admitGenerate))

/-! ### Models -/

theorem State.evolves.placeObject {b d : Blob} {p : Nat} : s.evolves (q.placeObject b d p).1 := .ite h.room.updObjs.staticWrite h.room.updObjs
theorem State.evolves.loadDone {slot : Nat} {r : Req} : s.evolves (q.loadDone slot r) := .ite h (.ite h.setReq h.placeObject.setReq)
theorem execModelLoad_leads {t fn ring : Nat} : s.leads (execModelLoad t fn ring q) := .next (h.descriptor fun h => h)

theorem State.evolves.markUnloads : s.evolves q.markUnloads := by
  unfold State.markUnloads
  exact h.updObjs

theorem State.evolves.beginUnload {slot : Nat} : s.evolves (q.beginUnload slot) := by
  unfold State.beginUnload
  split
  · exact h
  · exact .ite h (.ite h.refuse h.setReq.markUnloads)

theorem execModelUnload_leads {t fn ring : Nat} : s.leads (execModelUnload t fn ring q) := .next (h.descriptor (·.beginUnload))
theorem execIndexUnload_leads {t fn ring : Nat} : s.leads (execIndexUnload t fn ring q) := .next (h.descriptor (·.beginUnload))
theorem execExpertSetUnload_leads {t fn ring : Nat} : s.leads (execExpertSetUnload t fn ring q) := .next (h.descriptor (·.beginUnload))
theorem execSteeringSetUnload_leads {t fn ring : Nat} : s.leads (execSteeringSetUnload t fn ring q) := .next (h.descriptor (·.beginUnload))
theorem execGrammarUnload_leads {t fn ring : Nat} : s.leads (execGrammarUnload t fn ring q) := .next (h.descriptor (·.beginUnload))

theorem State.evolves.releaseObj {x : Obj} : s.evolves (q.releaseObj x) := by
  unfold State.releaseObj
  dsimp only
  split
  · split
    · exact h.updObjs.prefDrop.staticWrite
    · exact h.updObjs
  · exact h.updObjs

theorem State.evolves.releaseUnload {slot : Nat} {r : Req} : s.evolves (q.releaseUnload slot r) := .ite h h.releaseObj.setReq.finish.markUnloads

/-! ### Tables -/

theorem State.evolves.beginControl {slot : Nat} : s.evolves (q.beginControl slot) := by
  unfold State.beginControl
  split
  · exact h
  · exact .ite h.beginUnload (.ite h (.ite (.ite h.endWith h.roomDies.updObjs.endWith) (.ite h.refuse (.ite h.setReq.updTable h.setReq.finish))))

theorem State.evolves.markDestroys : s.evolves q.markDestroys := by
  unfold State.markDestroys
  exact h.updObjs

theorem execObjectRelease_leads {t slot : Nat} : s.leads (execObjectRelease t slot q) := by
  unfold execObjectRelease
  dsimp only
  split
  · exact .next h.advance
  · exact .ite (.next h.advance) (.ite (.next h.advance.releaseUnload) (.ite (.next h.advance) (.next h.advance.updObjs.endWith)))

theorem State.evolves.nextList {r : Req} : s.evolves (q.nextList r) := by
  unfold State.nextList
  refine h.foldl fun h => ?_
  dsimp only
  split
  · exact h.foldl (·.prefetch)
  · exact h

theorem State.evolves.gatherRelease {slot : Nat} {r : Req} : s.evolves (q.gatherRelease slot r) := .ite h.nextList.setReq.peerEnd (h.nextList.setReq.foldl (·.send))
theorem State.evolves.countHot {num : Nat} {rows : List Nat} : s.evolves (q.countHot num rows) := .ite h (h.foldl fun h => .ite h h.updObjs)

theorem State.evolves.hotBoundary : s.evolves q.hotBoundary := by
  unfold State.hotBoundary
  exact .updObjs (h.foldl fun h => .ite h.updTable h)

theorem execHotRowRebuild_leads {t die : Nat} : s.leads (execHotRowRebuild t die q) := .ite (.next h.advance) (.next h.advance.updObjs)
theorem State.evolves.flipTable {num : Nat} {rows : SMap Blob} : s.evolves (q.flipTable num rows) := .updTable (h.foldl (·.regionWrite.flipHalf))

theorem State.evolves.flipReplicas : s.evolves q.flipReplicas := by
  unfold State.flipReplicas
  refine h.foldl fun h => ?_
  split
  · exact h.flipTable
  · exact h

theorem State.evolves.gatherDone {slot : Nat} {r : Req} : s.evolves (q.gatherDone slot r) := h.countHot.setReq
theorem State.evolves.gradientDone {slot : Nat} {r : Req} : s.evolves (q.gradientDone slot r) := h.setReq
theorem State.evolves.toOwner {slot : Nat} {r : Req} {m row : Nat} {w : RowWork} : s.evolves (q.toOwner slot r m row w) := h.send

theorem State.evolves.askStaging {slot : Nat} {r : Req} : s.evolves (q.askStaging slot r) := by
  unfold State.askStaging
  split
  · exact h.toOwner
  · exact h

theorem State.evolves.updateRelease {slot : Nat} {r : Req} : s.evolves (q.updateRelease slot r).1 := by
  unfold State.updateRelease
  refine .iteFst h.setReq (.iteFst h ?_)
  dsimp only
  have hroom {c : Prop} {_ : Decidable c} {set n : Nat} : s.evolves (if c then q else q.room set n) := .ite h h.room
  split
  · exact hroom
  · exact .iteFst hroom.setReq.peerEnd (.iteFst hroom.setReq.askStaging hroom.setReq)

theorem execTableAddApply_leads {t slot k : Nat} : s.leads (execTableAddApply t slot k q) := by
  unfold execTableAddApply
  dsimp only
  split
  · exact .next h.advance
  · split
    · exact .next h.advance
    · refine .ite (.next h.advance) (.ite (.next h.advance.setReq.toOwner) ?_)
      split
      · exact .next h.advance.setReq.updTable
      · exact .ite (.next h.advance.setReq) (.next h.advance.setReq.updTable)

theorem State.evolves.applyStaged {slot : Nat} {r : Req} : s.evolves (q.applyStaged slot r) := h.updTable.setReq.foldl (·.toOwner)

theorem execStagedRowsApply_leads {t slot : Nat} : s.leads (execStagedRowsApply t slot q) := by
  unfold execStagedRowsApply
  dsimp only
  split
  · exact .next h.advance
  · exact .next (.ite h.advance.applyStaged h.advance)

theorem State.evolves.updateDone {slot : Nat} {r : Req} : s.evolves (q.updateDone slot r) := h.setReq

theorem State.evolves.settleStaged {slot : Nat} : s.evolves (q.settleStaged slot) := by
  unfold State.settleStaged
  split
  · exact .ite h (.ite h.applyStaged (h.foldl (·.toOwner)))
  · exact h

theorem State.evolves.postUpdates : s.evolves q.postUpdates := by
  unfold State.postUpdates
  refine h.flipReplicas.foldl fun h => ?_
  split
  · exact h
  · exact .ite h h.finish

theorem State.evolves.grantStaging : s.evolves q.grantStaging := by
  unfold State.grantStaging
  refine .ite h ?_
  split
  · exact h
  · exact h.updObjs.send

theorem State.evolves.ownerWork {peer : Nat} {msg : RemoteAdd} {x : Table} : s.evolves (q.ownerWork peer msg x) := by
  unfold State.ownerWork
  dsimp only
  split
  · exact h.updTable.send
  · exact h.updTable.send
  · exact h.updObjs.grantStaging
  · exact .ite h (.ite h.updObjs.send h.updTable.send)
  · exact .ite h h.updTable.updObjs.send.grantStaging
  · exact h.updObjs.grantStaging

theorem execRemoteTableAdd_leads {t peer : Nat} {msg : RemoteAdd} : s.leads (execRemoteTableAdd t peer msg q) := by
  unfold execRemoteTableAdd
  refine .ite (.next h.advance) ?_
  dsimp only
  split
  · exact .ite (.next h.advance.updPeer.rouse.ownerWork) (.next h.advance.updPeer.rouse.send)
  · exact .next h.advance.updPeer.rouse.send

theorem execT3Read_leads {t peer addr len tag : Nat} : s.leads (execT3Read t peer addr len tag q) :=
  .ite (.next h.advance) (.ite (.next h.advance.updPeer.rouse.send) (.next (.send (.ite h.advance.updPeer.rouse.countHot h.advance.updPeer.rouse))))

theorem execTableGather_leads {t fn ring : Nat} : s.leads (execTableGather t fn ring q) := .next (h.descriptor fun h => h)
theorem execTableAdd_leads {t fn ring : Nat} : s.leads (execTableAdd t fn ring q) := .next (h.descriptor fun h => h)
theorem execTableWrite_leads {t fn ring : Nat} : s.leads (execTableWrite t fn ring q) := .next (h.descriptor fun h => h)
theorem execTableCreate_leads {t fn ring : Nat} : s.leads (execTableCreate t fn ring q) := .next (h.descriptor (·.beginControl))
theorem execTableDestroy_leads {t fn ring : Nat} : s.leads (execTableDestroy t fn ring q) := .next (h.descriptor (·.beginControl))
theorem execTableInfo_leads {t fn ring : Nat} : s.leads (execTableInfo t fn ring q) := .next (h.descriptor (·.beginControl))
theorem execTableStep_leads {t fn ring : Nat} : s.leads (execTableStep t fn ring q) := .next (h.descriptor fun h => h)

/-! ### Tenants and partitions -/

theorem execPartRegisterWrite_leads {t fn off : Nat} {value : Word} : s.leads (execPartRegisterWrite t fn off value q) := by
  unfold execPartRegisterWrite
  refine .ite (.next h.advance) ?_
  dsimp only
  split
  · exact .next h.advance.wakeDormant
  · refine .ite (.next h.advance.wakeDormant) ?_
    split
    · exact .next h.advance.wakeDormant.orReg
    · exact .next h.advance.wakeDormant.stage

theorem State.evolves.applyPart {off : Nat} {v : Word} : s.evolves (q.applyPart off v) := by
  unfold State.applyPart
  split
  · exact h.orReg
  · exact .ite h.setReg.updPower h.setReg

theorem State.evolves.scratchFit {p : Nat} : s.evolves (q.scratchFit p) := by
  unfold State.scratchFit
  refine .ite (.ite h h.updPart) (.ite (.updPart (.ite h h.updPart)) (.ite (.ite h h.updPart) ?_))
  dsimp only
  split
  · exact .updPart (.room (.ite h h.updPart))
  · exact .room (.ite h h.updPart)

theorem State.evolves.scratchFits : s.evolves q.scratchFits := h.foldl (·.scratchFit)
theorem State.evolves.tenStatus {bits : Nat} : s.evolves (q.tenStatus bits) := h.setReg

theorem execTenRegisterWrite_leads {t fn off : Nat} {value : Word} : s.leads (execTenRegisterWrite t fn off value q) := by
  unfold execTenRegisterWrite
  refine .ite (.next h.advance) ?_
  dsimp only
  split
  · exact .next h.advance.wakeDormant.tenStatus
  · exact .ite (.next h.advance.wakeDormant.stage) (.ite (.next h.advance.wakeDormant.stage) (.next h.advance.wakeDormant.stage))

theorem execTenRefill_leads {t fn : Nat} {value : Word} : s.leads (execTenRefill t fn value q) := .next (.ite h.advance.wakeDormant.updTenant h.advance)
theorem State.evolves.applyTen {key : Nat} {v : Word} : s.evolves (q.applyTen key v) := .ite h.updTenant h.updTenant

theorem State.evolves.applyBind {off : Nat} {v : Word} : s.evolves (q.applyBind off v) := by
  unfold State.applyBind
  split
  · exact h.tenStatus
  · exact h.update

theorem State.evolves.applyPlain {off : Nat} {v : Word} : s.evolves (q.applyPlain off v) := .ite (.ite h.orReg h.setReg.alcEmpty) h.setReg
theorem State.evolves.applyStaged4 : s.evolves q.applyStaged4 := h.update.foldl fun h => .ite h.applyPart (.ite h.applyTen (.ite h.applyBind h.applyPlain))
theorem State.evolves.refill : s.evolves q.refill := h.update rfl

/-! ### Deques -/

theorem State.evolves.place {x : Task} : s.evolves (q.place x) := by
  unfold State.place
  split
  · exact h.updLand
  · exact h.enqueue

theorem State.evolves.loadShard {l n : Nat} : s.evolves (q.loadShard l n) := h.setLand.countLand.countLand.foldl (·.place)

theorem execDecodeBatchThreshold_leads {t landing shard : Nat} : s.leads (execDecodeBatchThreshold t landing shard q) := by
  unfold execDecodeBatchThreshold
  dsimp only
  split
  · exact .next h.advance
  · exact .next (.ite h.advance.loadShard h.advance)

theorem State.evolves.feed {p l n : Nat} : s.evolves (State.feed p l n q) := by
  induction n generalizing q with
  | zero => exact h
  | succ n ih =>
    unfold State.feed
    split
    · exact h
    · exact .ite h (ih h.updPart.updLand)

theorem execTaskTake_leads {t landing : Nat} : s.leads (execTaskTake t landing q) := by
  unfold execTaskTake
  dsimp only
  split
  · exact .next h.advance
  · refine .ite (.next h.advance) ?_
    split
    · exact .next h.advance.feed.countLand
    · exact .next (.updLand (.ite h.advance.feed.updLand.feed.countLand.countLand.countLand h.advance.feed.updLand.feed.countLand.countLand))

/-! ### A task on its landing -/

theorem State.evolves.t0Put {l a : Nat} {d : Blob} {f : Fmt} : s.evolves (q.t0Put l a d f) := h.updLand
theorem State.evolves.t0PutF {l a : Nat} {xs : List F32} : s.evolves (q.t0PutF l a xs) := h.t0Put
theorem State.evolves.countTask {l : Nat} {x : Task} {event n : Nat} : s.evolves (q.countTask l x event n) := h.countLand
theorem State.evolves.lineRead {l : Nat} {x : Task} {a : Nat} : s.evolves (q.lineRead l x a).2 := h.alcRead.countTask

theorem State.evolves.hbmRead {l : Nat} {x : Task} {a n : Nat} : s.evolves (q.hbmRead l x a n).2 :=
  State.evolves.foldlOn Prod.snd (b := ([], q)) h fun h => h.lineRead

theorem State.evolves.tierRead {l : Nat} {x : Task} {tier : Tier} {a n : Nat} : s.evolves (q.tierRead l x tier a n).2 := by
  unfold State.tierRead
  cases tier with
  | own => exact h
  | pinned => exact h.countTask
  | hbm => exact h.hbmRead
  | lent =>
    dsimp only
    split
    · exact h.countTask
    · exact h.hbmRead
  | peer =>
    dsimp only
    split
    · exact h.countTask
    · exact h
  | host => exact h.countTask

theorem State.evolves.stepFails {x : Task} : s.evolves (q.stepFails x) := h.endReq

theorem State.evolves.tierWrite {l : Nat} {x : Task} {tier : Tier} {a : Nat} {d : Blob} : s.evolves (q.tierWrite l x tier a d) := by
  unfold State.tierWrite
  split
  · exact h.t0Put
  · exact .ite h h.devWrite
  · exact h.stepFails

theorem State.evolves.taskDoubt {x : Task} {causes : Nat} {rec : Rec} : s.evolves (q.taskDoubt x causes rec) := by
  unfold State.taskDoubt
  dsimp only
  split
  · exact h.emit.doubt
  · exact h

theorem State.evolves.residueFault {l k : Nat} {x : Task} {detail causes : Nat} {counts : Bool} : s.evolves (q.residueFault l k x detail causes counts) :=
  h.taskDoubt.countResidue

theorem State.evolves.eccFault {l k : Nat} {x : Task} {store addr detail causes : Nat} {counts : Bool} :
    s.evolves (q.eccFault l k x store addr detail causes counts) := by
  unfold State.eccFault
  extract_lets record id mates site q1 q2 q3
  have h3 : s.evolves q3 := h.satField.taskDoubt.foldl (·.doubt)
  exact .ite h3.countEcc (.ite (h3.foldl (·.regionReload)) (.ite h3.granuleError h3))

theorem State.evolves.taskFault {l k : Nat} {x : Task} {f : TaskFault} : s.evolves (State.taskFault l k x q f) := by
  unfold State.taskFault
  split
  · exact h.residueFault
  · exact h.eccFault
  · exact h.taskDoubt
  · exact h.taskDoubt
  · exact h.galCrc
  · exact h.satField.alcDrop
  · split
    · exact h.eccFault
    · exact h
  · split
    · exact h.countTask.satField
    · exact h.satField
    · exact h.satField

theorem State.evolves.tileOutput {l k : Nat} {x : Task} {kind : Tile.Kind} {ktile : Nat} {o : Nat × List (Tile.Opnd × Tile.Opnd)} :
    s.evolves (State.tileOutput l k x kind ktile q o) := by
  unfold State.tileOutput
  dsimp only
  split
  · exact .residueFault (.countTask (.ite h.t0PutF.countTask h.t0PutF))
  · exact .ite h.t0PutF.countTask h.t0PutF

theorem State.evolves.tilePass {l k : Nat} {x : Task} {kind : Tile.Kind} {transposed : Bool} {image : Option Nat} {act vectors out ku nu ktile : Nat} :
    s.evolves (q.tilePass l k x kind transposed image act vectors out ku nu ktile) := by
  unfold State.tilePass
  dsimp only
  split
  · exact h.stepFails
  · exact .ite h.stepFails (h.updReq.updLand.countTask.countTask.foldl (·.tileOutput))

theorem State.evolves.convert {l : Nat} {x : Task} {from_ to_ : Fmt} {src dst n : Nat} : s.evolves (q.convert l x from_ to_ src dst n) := by
  unfold State.convert
  refine .countTask ?_
  split
  · exact h.t0Put.t0Put
  · exact h.t0Put

theorem State.evolves.walkRead {e : WalkEnv} {a n : Nat} : s.evolves (q.walkRead e a n).2 := by
  unfold State.walkRead
  split
  · exact h.tierRead
  · exact h

theorem State.evolves.walkIssue {e : WalkEnv} {u : Usher} {i : Nat} : s.evolves (q.walkIssue e u i).1 := by
  unfold State.walkIssue
  extract_lets t r
  have hr : s.evolves r := h.countTask
  clear_value r
  split
  · exact h
  · refine .iteFst hr ?_
    dsimp only
    split
    case h_3 =>
      split
      · exact hr.prefetch
      · exact hr
    case h_12 =>
      split
      · exact hr
      · exact hr
    case h_13 => exact hr.walkRead
    all_goals exact hr

theorem State.evolves.walkArrive {e : WalkEnv} {u : Usher} : s.evolves (q.walkArrive e u).1 := by
  unfold State.walkArrive
  split
  · exact h
  · exact h.walkRead

theorem State.evolves.walkLoop {e : WalkEnv} {n : Nat} {u : Usher} : s.evolves (State.walkLoop e n q u).1 := by
  induction n generalizing q u with
  | zero => exact h
  | succ n ih =>
    unfold State.walkLoop
    split
    · exact .iteFst (ih h.walkIssue) h.walkIssue
    · exact .iteFst h (ih h.walkArrive)

theorem State.evolves.walk {l : Nat} {x : Task} {w : WalkRun} : s.evolves (q.walk l x w) := by
  unfold State.walk
  split
  · exact h.stepFails
  · refine .ite h.walkLoop.updLand.stepFails ?_
    split
    · exact h.walkLoop.updLand.t0Put
    · exact h.walkLoop.updLand

theorem State.evolves.prefetchTile {p l : Nat} {m : Model} {t : TileRec} : s.evolves (q.prefetchTile p l m t) := h.foldl (·.prefetch)

theorem State.evolves.stairLayer {p n a : Nat} : s.evolves (q.stairLayer p n a) := by
  unfold State.stairLayer
  refine .ite h (.foldl (h.foldl (·.stairFill)) fun h => h.foldl fun h => ?_)
  split
  · exact h.prefetchTile
  · exact h

theorem State.evolves.routed {x : Task} {layer : Nat} {experts : List Nat} : s.evolves (q.routed x layer experts) := by
  unfold State.routed
  split
  · exact h
  · extract_lets p n m e0 own priv routes work gen xs q1 q2 q3 es ls
    have h3 : s.evolves q3 := by
      refine .ite h.setReq ((h.setReq.foldl (·.updLand)).foldl fun h => ?_)
      split
      · exact h.prefetchTile
      · exact h
    exact .ite h3 (h3.foldl fun h => .ite h h.updReq.place)

theorem State.evolves.unitOp {l k : Nat} {x : Task} {op : UnitOp} : s.evolves (State.unitOp l k x q op) := by
  unfold State.unitOp
  split
  · exact h
  · refine .ite h ?_
    dsimp only
    split
    · exact h.tierRead.t0Put
    · exact h.tierWrite
    · exact h.tilePass
    · exact h.t0PutF
    · exact h.t0PutF
    · exact h.convert
    · split
      · exact h.t0PutF.countTask
      · exact h.stepFails
    · exact h.t0PutF.countTask
    · exact h.t0PutF
    · refine .ite h.stepFails ?_
      split
      · exact h.t0PutF
      · exact h.stepFails
    · exact h.t0PutF
    · exact h.t0PutF
    · exact h.t0PutF
    · exact h.walk
    · exact h.stairLayer
    · exact h.t0Put.t0PutF.routed
    · exact h.t0PutF
    · exact h.t0PutF

theorem execLandingBecomesLender_leads {t landing : Nat} {loans : List Loan} : s.leads (execLandingBecomesLender t landing loans q) :=
  .ite (.next h.advance) (.next (.updLand (h.advance.foldl (·.t0Put))))

theorem State.evolves.loansBoundary : s.evolves q.loansBoundary := h.update rfl

/-! ### The engine -/

theorem State.evolves.stageEffect {slot : Nat} {st : Stage} {r : Req} : s.evolves (q.stageEffect slot st r) := by
  unfold State.stageEffect
  split
  · exact h.tokeniseDone
  · exact h.detokeniseDone
  · exact h.embedDone
  · exact h.probeDone
  · exact h.scanDone
  · exact h.selectDone
  · exact h.refineDone
  · exact h.mergeDone
  · exact h.fetchDone
  · exact h.rerankDone
  · exact h.packDone
  · dsimp only
    split
    · exact h.prefillInsert.genStepDone
    · exact h.prefillInsert
  · exact h.genStepDone.updReq
  · exact h
  · exact h.indexDone
  · exact h.gatherDone
  · exact h.gradientDone
  · exact h.updateDone
  · exact h.loadDone

theorem State.evolves.stageDone {slot : Nat} {st : Stage} : s.evolves (q.stageDone slot st) := by
  unfold State.stageDone
  split
  · exact h
  · exact .ite h.setReq.update.updReq h.setReq.update.stageEffect.updReq

theorem execArcadeStepComplete_leads {t slot : Nat} : s.leads (execArcadeStepComplete t slot q) := by
  unfold execArcadeStepComplete
  dsimp only
  split
  · exact .next h.advance
  · split
    · exact .next (.ite h.advance.stageDone.arcadeLeave h.advance)
    · exact .next (.ite h.advance.stageDone.arcadeLeave h.advance)
    · exact .next h.advance

theorem State.evolves.fireInjections {l k : Nat} {x : Task} {rep : TaskReport} : s.evolves (q.fireInjections l k x rep) := by
  unfold State.fireInjections
  dsimp only
  split
  · refine .eccFault (.updLand (.takeFresh ?_))
    split
    · exact h.takeFresh.updLand.residueFault
    · exact h
  · split
    · exact h.takeFresh.updLand.residueFault
    · exact h

theorem State.evolves.taskEnds {x : Task} : s.evolves (q.taskEnds x) := by
  unfold State.taskEnds
  split
  · exact h
  · split
    · exact .ite h (.ite h.setReq h.updPart.cntPart)
    · exact .ite h (.ite h.setReq.stageDone h.setReq)

theorem State.evolves.taskEvents {l : Nat} {x : Task} : s.evolves (q.taskEvents l x) := by
  unfold State.taskEvents
  split
  · exact h
  · split
    · split
      · exact h.countTask.countTask.countTask.countTask
      · exact h
    · exact h.countTask
    · exact h.countTask
    · exact h

theorem execTaskComplete_leads {t landing step : Nat} {rep : TaskReport} : s.leads (execTaskComplete t landing step rep q) := by
  unfold execTaskComplete
  extract_lets q1 l fixed
  have h1 : s.evolves q1 := h.advance
  clear_value l
  split
  · refine .ite (.next h1) ?_
    extract_lets q2 q3 q4 q5 q6
    have h3 : s.evolves q3 := .foldl (.taskEvents (h1.foldl (·.unitOp))) (·.countLand)
    have h5 : s.evolves q5 := .foldl (.ite h3 h3.satField) (·.taskFault)
    exact .next h5.fireInjections.updLand.taskEnds
  · exact .next h1

theorem execPartialArrival_leads {t landing : Nat} {msg : PartialMsg} : s.leads (execPartialArrival t landing msg q) := by
  unfold execPartialArrival
  dsimp only
  split
  · exact .next h.advance
  · exact .ite (.next h.advance) (.ite (.next h.advance.updPhys.update.orReg) (.ite (.next h.advance.setLand.countLand) (.ite (.next h.advance)
      (.next h.advance.setLand))))

theorem State.evolves.validate {slot : Nat} {r : Req} : s.evolves (q.validate slot r) := h.setReq.dropSpec.updReq.cntPart

theorem State.evolves.validateAll : s.evolves q.validateAll := by
  unfold State.validateAll
  refine h.foldl fun h => ?_
  split
  · exact h.validate
  · exact h

theorem State.evolves.specReads {slot : Nat} : s.evolves (q.specReads slot) := by
  unfold State.specReads
  split
  · exact h
  · exact .ite h h.sendNeeds

theorem State.evolves.provisional {slot : Nat} {r : Req} : s.evolves (q.provisional slot r) := .ite h (.specReads (h.foldl (·.place)))

theorem State.evolves.provisionals : s.evolves q.provisionals := by
  unfold State.provisionals
  refine h.foldl fun h => ?_
  split
  · exact h.provisional
  · exact h

theorem State.evolves.releaseHook {slot : Nat} {st : Stage} {r : Req} : s.evolves (q.releaseHook slot st r).1 := by
  unfold State.releaseHook
  split
  · exact h.fixSnapshot
  · dsimp only
    split
    · exact .scanRelease (.ite h.fixSnapshot h.setReq)
    · exact .ite h.fixSnapshot h.setReq
  · exact h.fetchRelease
  · exact .iteFst h.setReq h.prefillRelease
  · exact h.decodeRelease
  · exact h.gatherRelease
  · exact h.updateRelease
  · exact .iteFst h.consRelease h.setReq
  · exact h.setReq

theorem State.evolves.releaseOne {slot : Nat} {homes : List Nat} : s.evolves (q.releaseOne slot homes).1 := by
  unfold State.releaseOne
  split
  · exact h
  · refine .iteFst h (.iteFst h (.iteFst h.setReq ?_))
    split
    · exact h.setReq
    · refine .iteFst h ?_
      extract_lets cost old work hook r
      have hr : s.evolves r := h.releaseHook
      clear_value r
      split
      · exact hr
      · refine .iteFst (.ite hr.setReq.finishUnrun hr) (.iteFst hr ?_)
        extract_lets q1 hs n ts q2 q3
        have h3 : s.evolves q3 := .foldl (.setReq (.ite hr hr.updTenant)) (·.place)
        exact .ite h3.arcadeStart (.ite (.stageDone h3) h3)

theorem State.evolves.releaseAll {homes : List Nat} : s.evolves (q.releaseAll homes) :=
  State.evolves.foldlOn Prod.fst (b := (q, homes)) h fun h => h.releaseOne

theorem execBalustradeStep_leads {t slot : Nat} : s.leads (execBalustradeStep t slot q) := by
  unfold execBalustradeStep
  dsimp only
  split
  · exact .next h.advance
  · refine .ite (.next h.advance) (.ite (.next h.advance.finishSub) (.ite ?_ (.ite (.next h.advance.setReq) (.next h.advance.settleStaged.finish))))
    split
    · exact .next h.advance.batchDone.finish
    · exact .next h.advance.setReq

theorem State.evolves.stopFenced : s.evolves q.stopFenced := h.foldl (·.dropTasks.updReq)
theorem State.evolves.endResets : s.evolves q.endResets := h.update rfl

theorem State.evolves.action4 : s.evolves q.action4 :=
  .scratchFits (.staticDue (.alcArrive (.loansBoundary (.edgesBoundary (.stopFenced (.postUpdates (.endResets (.spareTakeovers
      (.ite h.applyStaged4.unitsBoundary h.applyStaged4.unitsBoundary.staticWrite)))))))))

theorem State.evolves.action5 : s.evolves q.action5 := h.foldl (·.deadlineOne)
theorem State.evolves.action6 : s.evolves q.action6 := h.foldl (·.evalWait)

theorem State.evolves.jobTurn {p : Nat} : s.evolves (q.jobTurn p) := by
  unfold State.jobTurn
  refine .ite h ?_
  split
  · exact h.updPart.check56
  · exact h

theorem State.evolves.action7 : s.evolves q.action7 := by
  unfold State.action7
  refine .foldl (h.foldl fun h => ?_) (·.jobTurn)
  split
  · exact .ite h.admitSub h.check56.finishUnrun.beginControl
  · exact h

theorem State.evolves.action8 : s.evolves q.action8 := h.foldl (·.loadShard)

theorem State.evolves.boundaryRest : s.evolves q.boundaryRest := by
  have hrest := h.galBoundary.grantStaging.staleRecords.hotBoundary.markUnloads.markDestroys.evalDepth
  unfold State.boundaryRest
  generalize q.galBoundary.grantStaging.staleRecords.hotBoundary.markUnloads.markDestroys.evalDepth = r at hrest ⊢
  refine .foldl (.ite (.update (.updPower ?_)) (.updPower ?_)) (·.send) <;> exact hrest.update

theorem State.evolves.actions {homes : List Nat} : s.evolves (q.actions homes) :=
  .releaseAll (.provisionals (.validateAll (.action8 (.action7 (.action6 (.action5 (.action4 (.boundaryRest
      (.ite h.epochClose.schedBoundary h.epochClose.schedBoundary.refill)))))))))

theorem State.evolves.toBoundary : s.evolves q.toBoundary := h.updNewel
theorem execTreadBoundary_leads {homes : List Nat} : s.leads (execTreadBoundary homes q) := .next (.ite h.toBoundary.actions h)

theorem execTreadLengthChange_leads {homes : List Nat} : s.leads (execTreadLengthChange homes q) := by
  unfold execTreadLengthChange
  split
  · exact .next (.ite h.toBoundary.actions h)
  · exact .next h

theorem State.evolves.stageAnswer {slot peer : Nat} {r : Req} : s.evolves (q.stageAnswer slot peer r) := .ite h.setReq.askStaging h.setReq

theorem execGalleryResponse_leads {t peer : Nat} {resp : GalResp} {crcOk : Bool} : s.leads (execGalleryResponse t peer resp crcOk q) := by
  unfold execGalleryResponse
  refine .ite (.next h.advance) ?_
  dsimp only
  split
  · exact .next h.advance.updPeer
  · refine .ite (.next h.advance.updPeer.galCrc) ?_
    split
    · exact .ite (.next h.advance.updPeer) (.next (.ite h.advance.updPeer.sendReads h.advance.updPeer.setReq))
    · exact .next h.advance.updPeer.setReq
    · exact .next h.advance.updPeer.stageAnswer
    · exact .ite (.next (.ite h.advance.updPeer.endReq h.advance.updPeer.peerEnd)) (.next h.advance.updPeer.setReq.peerDoubt)

/-! ### Resets -/

theorem State.evolves.flrReq {slot : Nat} : s.evolves (q.flrReq slot) := by
  unfold State.flrReq
  split
  · exact h
  · extract_lets q1 q2 queued left
    have h2 : s.evolves q2 := .ite h.dropSpec.stageDone h.dropSpec
    exact .ite h2.updReq (.ite (.ite h2.freeSlot h2.update.updReq) h2.settleStaged.freeSlot)

theorem State.evolves.flrSessions {f : Nat} : s.evolves (q.flrSessions f) := h.update rfl
theorem State.evolves.flrStart {f : Nat} : s.evolves (q.flrStart f) := .ite h (.satField (.flrSessions (h.updFn.foldl (·.flrReq))))

theorem State.evolves.vfClear {pf : Nat} : s.evolves (q.vfClear pf) := by
  unfold State.vfClear
  exact .update (.updFn (h.foldl (·.flrStart)))

theorem State.evolves.flrFn {f : Nat} : s.evolves (q.flrFn f) := .flrStart (.ite h.vfClear h)
theorem execFunctionLevelReset_leads {t fn : Nat} : s.leads (execFunctionLevelReset t fn q) := .next (.ite h.advance.flrFn h.advance)
theorem State.evolves.flrEnd {f : Nat} : s.evolves (q.flrEnd f) := h.update.setFn
theorem execFlrComplete_leads {t fn : Nat} : s.leads (execFlrComplete t fn q) := .next (.ite h.advance.flrEnd h.advance)

theorem execFlrTimeout_leads {t fn : Nat} : s.leads (execFlrTimeout t fn q) := by
  unfold execFlrTimeout
  dsimp only
  split
  · exact .ite (.next h.advance) (.next (.flrEnd (h.advance.foldl (·.settleStaged.freeSlot))))
  · exact .next h.advance

theorem execVfEnableWrite_leads {t fn : Nat} {enable : Bool} {numVfs : Nat} : s.leads (execVfEnableWrite t fn enable numVfs q) :=
  .ite (.next h.advance) (.ite (.next (.ite h.advance.vfClear h.advance)) (.ite (.next h.advance) (.ite (.next h.advance.updFn) (.next h.advance.emit))))

theorem State.evolves.portReset {p last : Nat} : s.evolves (q.portReset p last) := .satField (.updPort (.ite (.update (h.foldl (·.flrFn))) (h.foldl (·.flrFn))))

theorem execPortFundamentalReset_leads {t port : Nat} : s.leads (execPortFundamentalReset t port q) :=
  .ite (.next h.advance) (.next (.ite h.advance.updPort.portReset h.advance.updPort))

theorem execPortHotReset_leads {t port : Nat} : s.leads (execPortHotReset t port q) := .next (.ite h.advance.portReset h.advance)
theorem execPortLinkDown_leads {t port : Nat} : s.leads (execPortLinkDown t port q) := .next (.ite h.advance.portReset h.advance)

/-- A reset empties the device memory and keeps what `State.evolves` speaks of beside it. -/
theorem State.evolves.resetBody {cold : Bool} : s.evolves (q.resetBody cold) := by
  refine h.trans ⟨rfl, rfl, ⟨[], rfl, fun _ _ _ => rfl⟩, fun w => ?_⟩
  simp only [State.memWf, Bool.and_eq_true] at w ⊢
  exact ⟨rfl, w.2⟩

theorem State.evolves.moduleReset {byPin : Bool} : s.evolves (q.moduleReset byPin) := by
  unfold State.moduleReset
  exact h.resetBody.satField.setRegN.update

theorem State.evolves.resetEnd : s.evolves q.resetEnd := h.update.boot
theorem execModule_leads {t fn key : Nat} : s.leads (execModule t fn key q) := .ite (.next h.advance) (.ite (.next h.advance.orReg) (.next h.advance.moduleReset))

theorem execModrstNAssert_leads {t widthNs : Nat} : s.leads (execModrstNAssert t widthNs q) := by
  unfold execModrstNAssert
  refine .ite (.next h.advance) (.ite (.next (.ite h.advance.takeFresh h.advance)) ?_)
  split
  · exact .ite (.next (.updPower (.ite h.advance.takeFresh h.advance))) (.next (.moduleReset (.updPower (.ite h.advance.takeFresh h.advance))))
  · exact .next (.ite h.advance.takeFresh h.advance)
  · exact .next (.updPower (.ite h.advance.takeFresh h.advance))
  · exact .next (.updPower (.ite h.advance.takeFresh h.advance))
  · exact .next (.updPower (.ite h.advance.takeFresh h.advance))

theorem execModrstNRelease_leads {t : Nat} : s.leads (execModrstNRelease t q) := by
  unfold execModrstNRelease
  dsimp only
  split
  · exact .next (.ite h.advance.updPower.resetEnd h.advance.updPower)
  · exact .next h.advance.updPower

theorem execModuleResetEnd_leads {t : Nat} : s.leads (execModuleResetEnd t q) := by
  unfold execModuleResetEnd
  dsimp only
  split
  · exact .next (.ite h.advance h.advance.resetEnd)
  · exact .next h.advance

theorem execSupplyReset_leads {t vin : Nat} {enOpen : Bool} : s.leads (execSupplyReset t vin enOpen q) :=
  .ite (.next h.advance) (.next h.advance.update.resetBody.updPower)

theorem execPowerOk_leads {t : Nat} : s.leads (execPowerOk t q) := .ite (.next h.advance) (.next (.ite h.advance.updPower.update h.advance.updPower.resetEnd))
theorem execDieTrip_leads {t site temp : Nat} : s.leads (execDieTrip t site temp q) := .ite (.next h.advance) (.next h.advance.update.updPower.thermalRec)

theorem State.evolves.resetOne {slot : Nat} : s.evolves (q.resetOne slot) := by
  unfold State.resetOne
  split
  · exact h
  · exact .ite h.setReq h.stopReq

theorem State.evolves.resetStores {p : Nat} : s.evolves (q.resetStores p) := h.prefDrop.update rfl

theorem execPartition_leads {t fn p key : Nat} : s.leads (execPartition t fn p key q) :=
  .ite (.next h.advance) (.ite (.next h.advance.wakeDormant.orReg) (.next (.satField (.update (.resetStores (h.advance.wakeDormant.updPart.foldl (·.resetOne)))))))

theorem execPartitionResetComplete_leads {t p : Nat} : s.leads (execPartitionResetComplete t p q) := .next (.ite h.advance.updPart h.advance)

theorem execProcessor_leads {t fn proc key : Nat} : s.leads (execProcessor t fn proc key q) :=
  .ite (.next h.advance) (.ite (.next h.advance.wakeDormant.orReg) (.next h.advance.wakeDormant.procRestart))

theorem execApertureWrite_leads {t fn off : Nat} {data : List Byte} : s.leads (execApertureWrite t fn off data q) :=
  .next (.ite h.advance.wakeDormant.devWrite h.advance)

theorem execApertureRead_leads {t fn off len : Nat} {badLine : Option Nat} : s.leads (execApertureRead t fn off len badLine q) := by
  unfold execApertureRead
  refine .ite (.next h.advance) ?_
  dsimp only
  split
  · exact .next h.advance.wakeDormant.send.emit
  · exact .next h.advance.wakeDormant.send

/-! ### SPDM -/

theorem State.evolves.spdmSend {e : SpdmEnd} {req rsp : Blob} : s.evolves (q.spdmSend e req rsp) := h.update.send
theorem State.evolves.spdmError {e : SpdmEnd} {req : Blob} {code data : Nat} : s.evolves (q.spdmError e req code data) := h.spdmSend

theorem State.evolves.spdmServe {e : SpdmEnd} {req : Blob} {body : State → State} (hbody : ∀ {r}, s.evolves r → s.evolves (body r)) :
    s.evolves (q.spdmServe e req body) := by
  unfold State.spdmServe
  refine .ite h (.ite ?_ (.ite h.spdmError (hbody h)))
  split
  · exact h.send
  · exact h

theorem State.evolves.spdmAfter {e : SpdmEnd} {req : Blob} {stage : Nat} {body : State → State} (hbody : ∀ {r}, s.evolves r → s.evolves (body r)) :
    s.evolves (q.spdmAfter e req stage body) :=
  .ite h.spdmError (.ite h.spdmError (hbody h))

theorem State.evolves.spdmAt {e : SpdmEnd} {v : Nat} : s.evolves (q.spdmAt e v) := h.update rfl
theorem execSpdmGetVersion_leads {t : Nat} {ep : SpdmEnd} : s.leads (execSpdmGetVersion t ep q) := .next (h.advance.spdmServe (·.update.spdmSend))

theorem execSpdmGetCapabilities_leads {t : Nat} {ep : SpdmEnd} {req : List Byte} : s.leads (execSpdmGetCapabilities t ep req q) :=
  .next (h.advance.spdmServe fun h => .ite h.spdmError (.ite h.spdmError h.takeFresh.spdmAt.spdmSend))

theorem execSpdmNegotiateAlgorithms_leads {t : Nat} {ep : SpdmEnd} {req : List Byte} : s.leads (execSpdmNegotiateAlgorithms t ep req q) :=
  .next (h.advance.spdmServe fun h => h.spdmAfter fun h => .ite h.spdmError h.spdmAt.spdmSend)

theorem execSpdmGetDigests_leads {t : Nat} {ep : SpdmEnd} {req : List Byte} : s.leads (execSpdmGetDigests t ep req q) :=
  .next (h.advance.spdmServe fun h => h.spdmAfter (·.spdmSend))

theorem execSpdmGetCertificate_leads {t : Nat} {ep : SpdmEnd} {req : List Byte} : s.leads (execSpdmGetCertificate t ep req q) :=
  .next (h.advance.spdmServe fun h => h.spdmAfter fun h => .ite h.spdmError h.spdmSend)

theorem State.evolves.spdmSigned {e : SpdmEnd} {req rsp tail : Blob} {sign : Bool} : s.evolves (q.spdmSigned e req rsp tail sign) := h.takeFresh.spdmSend

theorem execSpdmChallenge_leads {t : Nat} {ep : SpdmEnd} {req : List Byte} : s.leads (execSpdmChallenge t ep req q) :=
  .next (h.advance.spdmServe fun h => h.spdmAfter fun h => .ite h.spdmError h.spdmSigned)

theorem execSpdmGetMeasurements_leads {t : Nat} {ep : SpdmEnd} {req : List Byte} : s.leads (execSpdmGetMeasurements t ep req q) :=
  .next (h.advance.spdmServe fun h => h.spdmAfter fun h => .ite h.spdmError h.spdmSigned)

theorem execSpdmUnsupported_leads {t : Nat} {ep : SpdmEnd} {req : List Byte} : s.leads (execSpdmUnsupported t ep req q) := .next (h.advance.spdmServe (·.spdmError))

theorem execDoeDiscovery_leads {t fn index : Nat} : s.leads (execDoeDiscovery t fn index q) :=
  .ite (.next h.advance) (.ite (.next h.advance.send) (.next h.advance.send))

/-! ### Register writes -/

theorem State.evolves.writeClear {f o : Nat} {v : Word} : s.evolves (q.writeClear f o v) := .ite h.updFn (.ite (.ite h.updLand h) h.setReg)
theorem State.evolves.writeSched {o j : Nat} {v : Word} : s.evolves (q.writeSched o j v) := h.update.setReg

theorem State.evolves.writePlain {f o : Nat} {r : RegRow} {i : Nat} {v : Word} : s.evolves (q.writePlain f o r i v) :=
  .ite h.setReg (.ite h.update (.ite h.setRing (.ite h.setRing (.ite h.setVec (.ite h.updFn (.ite h.updFn (.ite (.ite h.updLand h) (.ite h.writeSched (.ite h.stage
      (.ite h.setReg.updUnits (.ite h.setReg.updUnits (.ite (.ite h.setReg.galDown h.setReg) (.ite (.ite h h.setReg) (.ite h.setRegN h.setReg))))))))))))))

theorem State.evolves.plainWrite {f o : Nat} {r : RegRow} {i : Nat} {v : Word} : s.evolves (q.plainWrite f o r i v) := by
  unfold State.plainWrite
  refine .ite h ?_
  split
  · exact h
  · exact h
  · exact h.writeClear
  · exact .ite h.writePlain h
  · exact .ite h.writePlain h

theorem State.evolves.msixWrite {f off size : Nat} {v : Word} : s.evolves (q.msixWrite f off size v) := .ite h (.ite h.setVec.unmask h.setVec)

theorem regCommand_leads {t f o i : Nat} {r : RegRow} {v : Word} : s.leadsBy q (regCommand t f o r i v) := by
  unfold regCommand
  refine .ite (.some (execRingCfgWrite_leads h)) ?_
  refine .ite (.some (execIrqForce_leads h)) ?_
  refine .ite (.some (execAdminDoorbell_leads h)) ?_
  refine .ite (.some (execFwStart_leads h)) ?_
  refine .ite (.some (execPartRegisterWrite_leads h)) ?_
  refine .ite (.some (execTenRegisterWrite_leads h)) ?_
  refine .ite (.some (execTenRefill_leads h)) ?_
  refine .ite (.some (execNewelTreadWrite_leads h)) ?_
  refine .ite (.some (execNewelCtrlWrite_leads h)) ?_
  refine .ite ?pwrCmd (.ite ?rstCmd (.ite (.ite (.some (execDeclareLandingDead_leads h)) .none) (.ite ?fltInject (.ite ?cntCmd ?_))))
  case pwrCmd =>
    split
    · exact .some (execClearMin_leads h)
    · exact .some (execWake_leads h)
    · exact .none
  case rstCmd =>
    split
    · exact .some (execModule_leads h)
    · exact .some (execPartition_leads h)
    · exact .some (execProcessor_leads h)
    · exact .none
  case fltInject =>
    split
    · exact .some (execInjectResidue_leads h)
    · exact .some (execInjectEcc_leads h)
    · exact .none
  case cntCmd =>
    split
    · exact .some (execFreeze_leads h)
    · exact .some (execUnfreeze_leads h)
    · exact .some (execSnapshot_leads h)
    · exact .some (execClear_leads h)
    · exact .none
  refine .ite (.some (execEvselWrite_leads h)) ?_
  refine .ite (.some (execMpDataWrite_leads h)) ?_
  refine .ite ?mpCmd (.ite (.some (execTblDataWrite_leads h)) (.ite ?tblCmd (.ite ?galCmd ?_)))
  case mpCmd =>
    split
    · exact .some (execMpCommit_leads h)
    · exact .some (execMpClear_leads h)
    · exact .none
  case tblCmd =>
    split
    · exact .some (execTblCommit_leads h)
    · exact .some (execTblClear_leads h)
    · exact .none
  case galCmd =>
    split
    · exact .some (execRetrainPort_leads h)
    · exact .some (execDeclarePeerLost_leads h)
    · exact .none
  refine .ite (.some (execEccCountClear_leads h)) ?_
  refine .ite (.some (execAlcPinWrite_leads h)) ?_
  refine .ite (.some (execPinRegionWrite_leads h)) ?_
  refine .ite (.some (execPcSetWrite_leads h)) ?_
  refine .ite (.some (execWalkDataWrite_leads h)) (.ite ?walkCmd (.ite ?normCmd .none))
  case walkCmd =>
    split
    · exact .some (execWalkCommit_leads h)
    · exact .some (execWalkClear_leads h)
    · exact .none
  case normCmd =>
    split
    · exact .some (execNormCommit_leads h)
    · exact .some (execNormClear_leads h)
    · exact .none

theorem execRegisterWrite_leads {t fn off size : Nat} {value : Word} : s.leads (execRegisterWrite t fn off size value q) := by
  unfold execRegisterWrite
  dsimp only
  split
  · exact .next h.advance
  · have hwake {c : Prop} {_ : Decidable c} : s.evolves (if c then (State.advance t q).wakeDormant else State.advance t q) := .ite h.advance.wakeDormant h.advance
    refine .ite (.next h.advance) (.ite (.next hwake.msixWrite) ?_)
    split
    · exact .next hwake
    · split
      next hc => exact regCommand_leads hwake _ hc
      next => exact .next hwake.plainWrite

/-! ### Step -/

theorem State.evolves.withFetchWord {nbits w : Nat} : s.evolves (q.withFetchWord nbits w) := h

/-! ### Safety -/

theorem State.evolves.atCheck5 {f n slot : Nat} : s.evolves (q.atCheck5 f n slot) := h.entered.accepted
theorem State.evolves.atAct {f n slot : Nat} : s.evolves (q.atAct f n slot) := h.atCheck5.check56

end Operations

/-! ### Every command -/

/-- Every command's answer evolves from the state that it finds: the meaning of each command does so (R1, R8). -/
theorem exec_leads : ∀ (c : Instr) (s : State), (s.hostSees c).leads (exec c s)
  | .doorbellWrite .., s => execDoorbellWrite_leads s
  | .descriptorFetchError .., s => execDescriptorFetchError_leads (.refl s)
  | .embed .., s => execEmbed_leads (.refl s)
  | .retrieve .., s => execRetrieve_leads (.refl s)
  | .generate .., s => execGenerate_leads (.refl s)
  | .tokenize .., s => execTokenize_leads (.refl s)
  | .detokenize .., s => execDetokenize_leads (.refl s)
  | .indexInsert .., s => execIndexInsert_leads (.refl s)
  | .indexDelete .., s => execIndexDelete_leads (.refl s)
  | .indexSetAttr .., s => execIndexSetAttr_leads (.refl s)
  | .indexConsolidate .., s => execIndexConsolidate_leads (.refl s)
  | .indexBuildBegin .., s => execIndexBuildBegin_leads (.refl s)
  | .indexBuildAdd .., s => execIndexBuildAdd_leads (.refl s)
  | .indexBuildFinish .., s => execIndexBuildFinish_leads (.refl s)
  | .indexBuildAbort .., s => execIndexBuildAbort_leads (.refl s)
  | .recallProbe .., s => execRecallProbe_leads (.refl s)
  | .tableGather .., s => execTableGather_leads (.refl s)
  | .tableAdd .., s => execTableAdd_leads (.refl s)
  | .tableWrite .., s => execTableWrite_leads (.refl s)
  | .tableCreate .., s => execTableCreate_leads (.refl s)
  | .tableDestroy .., s => execTableDestroy_leads (.refl s)
  | .tableInfo .., s => execTableInfo_leads (.refl s)
  | .tableStep .., s => execTableStep_leads (.refl s)
  | .modelLoad .., s => execModelLoad_leads (.refl s)
  | .modelUnload .., s => execModelUnload_leads (.refl s)
  | .indexUnload .., s => execIndexUnload_leads (.refl s)
  | .expertSetUnload .., s => execExpertSetUnload_leads (.refl s)
  | .steeringSetUnload .., s => execSteeringSetUnload_leads (.refl s)
  | .grammarUnload .., s => execGrammarUnload_leads (.refl s)
  | .sessionOpen .., s => execSessionOpen_leads (.refl s)
  | .sessionClose .., s => execSessionClose_leads (.refl s)
  | .syncAdd .., s => execSyncAdd_leads (.refl s)
  | .syncCreate .., s => execSyncCreate_leads (.refl s)
  | .syncDestroy .., s => execSyncDestroy_leads (.refl s)
  | .syncWait .., s => execSyncWait_leads (.refl s)
  | .cancel .., s => execCancel_leads (.refl s)
  | .cancelComplete .., s => execCancelComplete_leads (.refl s)
  | .syncAfterRingEffect .., s => execSyncAfterRingEffect_leads (.refl s)
  | .sessionCloseComplete .., s => execSessionCloseComplete_leads (.refl s)
  | .objectRelease .., s => execObjectRelease_leads (.refl s)
  | .treadBoundary .., s => execTreadBoundary_leads (.refl s)
  | .deadlineExpiry .., s => execDeadlineExpiry_leads (.refl s)
  | .syncWaitTimeout .., s => execSyncWaitTimeout_leads (.refl s)
  | .decodeBatchThreshold .., s => execDecodeBatchThreshold_leads (.refl s)
  | .taskTake .., s => execTaskTake_leads (.refl s)
  | .taskComplete .., s => execTaskComplete_leads (.refl s)
  | .partialArrival .., s => execPartialArrival_leads (.refl s)
  | .arcadeStepComplete .., s => execArcadeStepComplete_leads (.refl s)
  | .checkPassHandover .., s => execCheckPassHandover_leads (.refl s)
  | .balustradeStep .., s => execBalustradeStep_leads (.refl s)
  | .indexCommit .., s => execIndexCommit_leads (.refl s)
  | .consolidationSwitch .., s => execConsolidationSwitch_leads (.refl s)
  | .roomVersionReclaim .., s => execRoomVersionReclaim_leads (.refl s)
  | .tableAddApply .., s => execTableAddApply_leads (.refl s)
  | .stagedRowsApply .., s => execStagedRowsApply_leads (.refl s)
  | .hotRowRebuild .., s => execHotRowRebuild_leads (.refl s)
  | .statusBlockWrite .., s => execStatusBlockWrite_leads (.refl s)
  | .moderationCount .., s => execModerationCount_leads (.refl s)
  | .moderationTimeExpiry .., s => execModerationTimeExpiry_leads (.refl s)
  | .adminDoorbell .., s => execAdminDoorbell_leads (.refl s)
  | .identify .., s => execIdentify_leads (.refl s)
  | .logRead .., s => execLogRead_leads (.refl s)
  | .snapshotRead .., s => execSnapshotRead_leads (.refl s)
  | .storeWrite .., s => execStoreWrite_leads (.refl s)
  | .selfTest .., s => execSelfTest_leads (.refl s)
  | .raiseFloor .., s => execRaiseFloor_leads (.refl s)
  | .revive .., s => execRevive_leads (.refl s)
  | .configWriteComplete .., s => execConfigWriteComplete_leads (.refl s)
  | .fwStart .., s => execFwStart_leads (.refl s)
  | .fwImageChecked .., s => execFwImageChecked_leads (.refl s)
  | .fwRunning .., s => execFwRunning_leads (.refl s)
  | .watchdogExpiry .., s => execWatchdogExpiry_leads (.refl s)
  | .processorReady .., s => execProcessorReady_leads (.refl s)
  | .landingHang .., s => execLandingHang_leads (.refl s)
  | .selfTestComplete .., s => execSelfTestComplete_leads (.refl s)
  | .sparePeriodicTest .., s => execSparePeriodicTest_leads (.refl s)
  | .staleSpeaker .., s => execStaleSpeaker_leads (.refl s)
  | .edgeFenced .., s => execEdgeFenced_leads (.refl s)
  | .patrolScrub .., s => execPatrolScrub_leads (.refl s)
  | .landingBecomesLender .., s => execLandingBecomesLender_leads (.refl s)
  | .functionLevelReset .., s => execFunctionLevelReset_leads (.refl s)
  | .flrComplete .., s => execFlrComplete_leads (.refl s)
  | .flrTimeout .., s => execFlrTimeout_leads (.refl s)
  | .vfEnableWrite .., s => execVfEnableWrite_leads (.refl s)
  | .portFundamentalReset .., s => execPortFundamentalReset_leads (.refl s)
  | .portHotReset .., s => execPortHotReset_leads (.refl s)
  | .portLinkDown .., s => execPortLinkDown_leads (.refl s)
  | .apertureWrite .., s => execApertureWrite_leads (.refl s)
  | .apertureRead .., s => execApertureRead_leads (.refl s)
  | .ringCfgWrite .., s => execRingCfgWrite_leads (.refl s)
  | .msixUnmask .., s => execMsixUnmask_leads (.refl s)
  | .irqForce .., s => execIrqForce_leads (.refl s)
  | .mpDataWrite .., s => execMpDataWrite_leads (.refl s)
  | .mpCommit .., s => execMpCommit_leads (.refl s)
  | .mpClear .., s => execMpClear_leads (.refl s)
  | .tblDataWrite .., s => execTblDataWrite_leads (.refl s)
  | .tblCommit .., s => execTblCommit_leads (.refl s)
  | .tblClear .., s => execTblClear_leads (.refl s)
  | .walkDataWrite .., s => execWalkDataWrite_leads (.refl s)
  | .walkCommit .., s => execWalkCommit_leads (.refl s)
  | .walkClear .., s => execWalkClear_leads (.refl s)
  | .normCommit .., s => execNormCommit_leads (.refl s)
  | .normClear .., s => execNormClear_leads (.refl s)
  | .eccCountClear .., s => execEccCountClear_leads (.refl s)
  | .alcPinWrite .., s => execAlcPinWrite_leads (.refl s)
  | .pinRegionWrite .., s => execPinRegionWrite_leads (.refl s)
  | .pcSetWrite .., s => execPcSetWrite_leads (.refl s)
  | .partRegisterWrite .., s => execPartRegisterWrite_leads (.refl s)
  | .tenRegisterWrite .., s => execTenRegisterWrite_leads (.refl s)
  | .tenRefill .., s => execTenRefill_leads (.refl s)
  | .newelTreadWrite .., s => execNewelTreadWrite_leads (.refl s)
  | .treadLengthChange .., s => execTreadLengthChange_leads (.refl s)
  | .newelTimeRead .., s => execNewelTimeRead_leads (.refl s)
  | .retrainPort .., s => execRetrainPort_leads (.refl s)
  | .declarePeerLost .., s => execDeclarePeerLost_leads (.refl s)
  | .declareLandingDead .., s => execDeclareLandingDead_leads (.refl s)
  | .injectResidue .., s => execInjectResidue_leads (.refl s)
  | .injectEcc .., s => execInjectEcc_leads (.refl s)
  | .module .., s => execModule_leads (.refl s)
  | .partition .., s => execPartition_leads (.refl s)
  | .processor .., s => execProcessor_leads (.refl s)
  | .partitionResetComplete .., s => execPartitionResetComplete_leads (.refl s)
  | .moduleResetEnd .., s => execModuleResetEnd_leads (.refl s)
  | .clearMin .., s => execClearMin_leads (.refl s)
  | .wake .., s => execWake_leads (.refl s)
  | .freeze .., s => execFreeze_leads (.refl s)
  | .unfreeze .., s => execUnfreeze_leads (.refl s)
  | .snapshot .., s => execSnapshot_leads (.refl s)
  | .clear .., s => execClear_leads (.refl s)
  | .evselWrite .., s => execEvselWrite_leads (.refl s)
  | .scheduledCounterAction .., s => execScheduledCounterAction_leads (.refl s)
  | .progCounterWrap .., s => execProgCounterWrap_leads (.refl s)
  | .sampleWrite .., s => execSampleWrite_leads (.refl s)
  | .registerWrite .., s => execRegisterWrite_leads (.refl s)
  | .modrstNAssert .., s => execModrstNAssert_leads (.refl s)
  | .modrstNRelease .., s => execModrstNRelease_leads (.refl s)
  | .ppsInEdge .., s => execPpsInEdge_leads (.refl s)
  | .supplyWarning .., s => execSupplyWarning_leads (.refl s)
  | .supplyWarningClear .., s => execSupplyWarningClear_leads (.refl s)
  | .supplyReset .., s => execSupplyReset_leads (.refl s)
  | .overvoltage .., s => execOvervoltage_leads (.refl s)
  | .overvoltageEnd .., s => execOvervoltageEnd_leads (.refl s)
  | .inputQualify .., s => execInputQualify_leads (.refl s)
  | .inputEnable .., s => execInputEnable_leads (.refl s)
  | .chargeComplete .., s => execChargeComplete_leads (.refl s)
  | .powerOk .., s => execPowerOk_leads (.refl s)
  | .powerCapEvaluate .., s => execPowerCapEvaluate_leads (.refl s)
  | .dieWarn .., s => execDieWarn_leads (.refl s)
  | .dieThrottle .., s => execDieThrottle_leads (.refl s)
  | .coolantHigh .., s => execCoolantHigh_leads (.refl s)
  | .dieTrip .., s => execDieTrip_leads (.refl s)
  | .leak .., s => execLeak_leads (.refl s)
  | .thermalConditionClear .., s => execThermalConditionClear_leads (.refl s)
  | .landingClockGate .., s => execLandingClockGate_leads (.refl s)
  | .wingPowerGate .., s => execWingPowerGate_leads (.refl s)
  | .dormantEntry .., s => execDormantEntry_leads (.refl s)
  | .dormantExitComplete .., s => execDormantExitComplete_leads (.refl s)
  | .storeTokenAdd .., s => execStoreTokenAdd_leads (.refl s)
  | .holdoverLong .., s => execHoldoverLong_leads (.refl s)
  | .sourceTimeout .., s => execSourceTimeout_leads (.refl s)
  | .ptpAnnounce .., s => execPtpAnnounce_leads (.refl s)
  | .ptpSync .., s => execPtpSync_leads (.refl s)
  | .ptpDelayResp .., s => execPtpDelayResp_leads (.refl s)
  | .galleryLinkTrained .., s => execGalleryLinkTrained_leads (.refl s)
  | .galleryLaneLoss .., s => execGalleryLaneLoss_leads (.refl s)
  | .hello .., s => execHello_leads (.refl s)
  | .flitError .., s => execFlitError_leads (.refl s)
  | .replayRequest .., s => execReplayRequest_leads (.refl s)
  | .staleFlitDrop .., s => execStaleFlitDrop_leads (.refl s)
  | .heartbeatSend .., s => execHeartbeatSend_leads (.refl s)
  | .heartbeat .., s => execHeartbeat_leads (.refl s)
  | .peerLossTimeout .., s => execPeerLossTimeout_leads (.refl s)
  | .lossNotice .., s => execLossNotice_leads (.refl s)
  | .subRequest .., s => execSubRequest_leads (.refl s)
  | .subRequestPool .., s => execSubRequestPool_leads (.refl s)
  | .t3Read .., s => execT3Read_leads (.refl s)
  | .remoteTableAdd .., s => execRemoteTableAdd_leads (.refl s)
  | .galleryTimeExchange .., s => execGalleryTimeExchange_leads (.refl s)
  | .spdmGetVersion .., s => execSpdmGetVersion_leads (.refl s)
  | .spdmGetCapabilities .., s => execSpdmGetCapabilities_leads (.refl s)
  | .spdmNegotiateAlgorithms .., s => execSpdmNegotiateAlgorithms_leads (.refl s)
  | .spdmGetDigests .., s => execSpdmGetDigests_leads (.refl s)
  | .spdmGetCertificate .., s => execSpdmGetCertificate_leads (.refl s)
  | .spdmChallenge .., s => execSpdmChallenge_leads (.refl s)
  | .spdmGetMeasurements .., s => execSpdmGetMeasurements_leads (.refl s)
  | .spdmUnsupported .., s => execSpdmUnsupported_leads (.refl s)
  | .doeDiscovery .., s => execDoeDiscovery_leads (.refl s)
  | .perstNRelease .., s => execPerstNRelease_leads (.refl s)
  | .hostLinkTrained .., s => execHostLinkTrained_leads (.refl s)
  | .galleryResponse .., s => execGalleryResponse_leads (.refl s)
  | .peerDirectory .., s => execPeerDirectory_leads (.refl s)
  | .ppsOutEdge .., s => execPpsOutEdge_leads (.refl s)
  | .inputCrosses62v .., s => execInputCrosses62v_leads (.refl s)
  | .newelCtrlWrite .., s => execNewelCtrlWrite_leads (.refl s)
  | .stillExitComplete .., s => execStillExitComplete_leads (.refl s)

/-- What a host makes visible is neither the member nor the fuses. -/
theorem State.publish_identity (s : State) (f : Nat) (pub : List HostPub) : (s.publish f pub).member = s.member ∧ (s.publish f pub).fuses = s.fuses := by
  unfold State.publish
  cases pub.isEmpty <;> exact ⟨rfl, rfl⟩

theorem State.hostSees_identity (s : State) (c : Instr) : (s.hostSees c).member = s.member ∧ (s.hostSees c).fuses = s.fuses := by
  unfold State.hostSees
  split
  · exact s.publish_identity _ _
  · exact ⟨rfl, rfl⟩

/-- No command changes the member or the fuses (R1, R8). -/
theorem exec_identity {c : Instr} {s q : State} (h : exec c s = .next q) : q.member = s.member ∧ q.fuses = s.fuses := by
  have hev := exec_leads c s q h
  obtain ⟨hm, hf⟩ := s.hostSees_identity c
  exact ⟨hev.member.trans hm, hev.fuses.trans hf⟩

/-- Settles O5: a step runs one command, whose answer evolves from the state, or idles. -/
theorem stepKeepsIdentity : Obligations.StepKeepsIdentity := by
  intro s q h
  unfold step at h
  split at h
  · cases h
    exact ⟨rfl, rfl⟩
  · obtain ⟨hmember, hfuses⟩ := exec_identity h
    exact ⟨hmember, hfuses⟩

end Sys2Proof.Machine
end

section
/-! SUPPORT. What reset leaves. -/

namespace Sys2Proof.Machine

open Sys2Proof

set_option Elab.async false

theorem State.reset_ring (f n : Nat) : State.reset.ring f n = {} := rfl

theorem State.reset_vec (f v : Nat) : State.reset.vec f v = {} := rfl

/-- A vector as reset leaves it is masked, with COUNT 1, TIME 0 and no pending message (R366). -/
theorem Vec.reset_values : ({} : Vec).masked = true ∧ ({} : Vec).count = 1 ∧ ({} : Vec).time = 0 ∧ ({} : Vec).pend = false := by
  decide

/-- The registers that the statement names one by one hold their table's value (R59, R91, R468, R412). -/
theorem State.reset_regN : State.reset.regN Reg.pwrRamp = 48 ∧ State.reset.regN (Reg.partDecodeBatch 0) = 64 ∧
    State.reset.regN Reg.pwrCap = 4400 ∧ State.reset.regN Reg.newelTread = 25 := by
  decide

/-- Settles O7: an empty map reads as its default, so reset leaves every register at its table's value and every block in its first state. The empty store
(`flt.seq = 0`) is log entry 7 and the member log entry 4. -/
theorem resetValues : Obligations.ResetValues := by
  obtain ⟨hramp, hbatch, hcap, htread⟩ := State.reset_regN
  refine ⟨fun _ => rfl, hramp, hbatch, hcap, htread, fun f n => ?_, fun f v => ?_, rfl, rfl, rfl, rfl, fun _ => rfl, rfl, rfl, rfl, rfl, rfl, rfl, rfl, rfl,
    fun _ => ⟨rfl, rfl⟩, rfl, rfl⟩
  · rw [State.reset_ring]; rfl
  · rw [State.reset_vec]; exact Vec.reset_values

end Sys2Proof.Machine
end

section
/-! SUPPORT. REGISTER_WRITE: which write a function makes, and what one of a function that is not the owner changes. -/

namespace Sys2Proof.Machine

open Sys2Proof

set_option Elab.async false

/-! ### What a register write of another function reaches -/

/-- What a register write of function f may change where f is not the owner: f's own rings and vectors, the exit from Dormant, and messages sent. -/
structure State.aside (f : Nat) (s q : State) : Prop where
  frame  : s.onlyIn q [.fns, .power, .out]
  others : SMap.but s.fns q.fns f
  waking : { q.power with waking := s.power.waking } = s.power
  sent   : ∃ l, q.out = l ++ s.out

theorem State.aside.refl {f : Nat} {s : State} : s.aside f s := ⟨s.onlyIn_refl _, fun _ _ => rfl, rfl, [], rfl⟩

theorem State.aside.trans {f : Nat} {s q r : State} (h : s.aside f q) (k : q.aside f r) : s.aside f r := by
  obtain ⟨l, hl⟩ := h.sent
  obtain ⟨l', hl'⟩ := k.sent
  refine ⟨State.onlyIn_trans h.frame k.frame, fun j hj => (k.others j hj).trans (h.others j hj), ?_, l' ++ l, by rw [hl', hl, List.append_assoc]⟩
  rw [← h.waking, ← k.waking]

section Operations

variable {f : Nat} {s q : State} (h : s.aside f q)
include h

theorem State.aside.updFn {g : Fn → Fn} : s.aside f (q.updFn f g) :=
  h.trans ⟨State.onlyIn_mono (q.updFn_frame f g) (by decide), fun _ hj => SMap.find_put_ne _ _ _ _ hj, rfl, [], rfl⟩

theorem State.aside.setRing {n : Nat} {r : Ring} : s.aside f (q.setRing f n r) := h.updFn

theorem State.aside.setVec {n : Nat} {x : Vec} : s.aside f (q.setVec f n x) := h.updFn

theorem State.aside.send {m : OutMsg} : s.aside f (q.send m) :=
  h.trans ⟨State.onlyIn_mono (q.send_frame m) (by decide), fun _ _ => rfl, rfl, [m], rfl⟩

theorem State.aside.ite {c : Prop} {_ : Decidable c} {r : State} (k : s.aside f r) : s.aside f (if c then q else r) := by
  split <;> assumption

theorem State.aside.wakeDormant : s.aside f q.wakeDormant :=
  h.trans (.ite ⟨State.onlyIn_mono (q.updPower_frame fun p => { p with waking := some q.now }) (by decide), fun _ _ => rfl, rfl, [], rfl⟩ .refl)

theorem State.aside.sendVec {v : Nat} : s.aside f (q.sendVec f v) := .ite h.setVec h.setVec.send

theorem State.aside.unmask {v : Nat} : s.aside f (q.unmask f v) := .ite h.setVec.send h.setVec

/-- Every branch of a ring's configuration writes the function's own ring or its RING_STATUS. -/
theorem State.aside.ringCfg {n : Nat} {v : Word} : s.aside f (q.ringCfg f n v) :=
  .ite (.ite h (.ite h.updFn (.ite h.updFn (.ite h.updFn h.setRing)))) (.ite h.setRing (.ite h.setRing h.setRing.updFn))

theorem State.aside.msixWrite {off size : Nat} {v : Word} : s.aside f (q.msixWrite f off size v) :=
  .ite h (.ite h.setVec.unmask h.setVec)

end Operations

/-! ### Registers of a function -/

/-- The register at an offset stands where its row and its index say. -/
theorem regAt_eq_some {b i : Nat} {r : RegRow} (h : regAt b = some (r, i)) : r ∈ regRows ∧ r.off ≤ b ∧ (b - r.off) % r.stride = 0 ∧ (b - r.off) / r.stride < r.count := by
  obtain ⟨r', hr, hi⟩ := List.exists_of_findSome?_eq_some h
  obtain ⟨j, hj, he⟩ := Option.map_eq_some_iff.mp hi
  obtain ⟨rfl, rfl⟩ := Prod.mk.inj he
  unfold RegRow.indexAt at hj
  split at hj
  next hc => exact ⟨hr, hc⟩
  next => cases hj

/-- A register stands at a multiple of its row's stride. -/
theorem regAt_offset {b i : Nat} {r : RegRow} (h : regAt b = some (r, i)) : ∃ k, k < r.count ∧ b = r.off + r.stride * k := by
  obtain ⟨-, hle, hmod, hlt⟩ := regAt_eq_some h
  have := Nat.div_add_mod (b - r.off) r.stride
  exact ⟨_, hlt, by omega⟩

/-- The rows of RING_ and IRQ_ that a write can change: RING_STATUS, the admin rings' registers, and those of the rings and vectors of a function. -/
def ownRow (r : RegRow) : Bool :=
  match r.access with
  | .ro => true
  | .wo => true
  | .w1c => r.off == Reg.ringStatus && r.count == 1
  | .rw => [Reg.ringAptBase, Reg.ringAdminSq, Reg.ringAdminCq].contains r.off && r.count == 1 ||
      [Reg.ringBase 0, Reg.ringCfg 0, Reg.ringShadow 0, Reg.irqMod 0].contains r.off || r.off == Reg.irqMsixTable 0 && r.stride * r.count == 0x1000 && r.width == 128
  | .rwl => false

theorem regRows_own : ∀ r ∈ regRows, 0 < r.stride ∧ (r.off + r.stride * r.count ≤ 0x2000 ∨ 0x6000 ≤ r.off ∨ ownRow r = true) := by
  decide +kernel

/-- A register between 0x2000 and 0x6000 has one of those rows. -/
theorem regAt_own {b i : Nat} {r : RegRow} (h : regAt b = some (r, i)) (hlo : 0x2000 ≤ b) (hhi : b < 0x6000) : ownRow r = true := by
  obtain ⟨k, hk, rfl⟩ := regAt_offset h
  obtain ⟨hpos, hlt | hge | hown⟩ := regRows_own r (regAt_eq_some h).1
  · have := Nat.mul_lt_mul_of_pos_left hk hpos
    omega
  · omega
  · exact hown

/-- A write names a register of its own offset, or the upper half of a register of 64 bits. -/
theorem State.regTarget_eq_some {s : State} {f o size i b : Nat} {v w : Word} {r : RegRow} (h : s.regTarget f o size v = some (r, i, b, w)) :
    regAt b = some (r, i) ∧ (b = o ∨ r.width = 64) := by
  unfold State.regTarget at h
  dsimp only at h
  split at h
  next r' i' hr =>
    split at h
    · split at h
      · cases h; exact ⟨hr, .inl rfl⟩
      · cases h
    · split at h
      · cases h; exact ⟨hr, .inl rfl⟩
      · cases h
  next =>
    split at h
    next r' i' hr =>
      split at h
      next hc =>
        cases h
        simp only [Bool.and_eq_true, beq_iff_eq] at hc
        exact ⟨hr, .inr hc.2⟩
      next => cases h
    next => cases h


/-! ### Commands of the owner -/

section OwnerCommands

variable (t : Nat) {f : Nat} {s : State} (h : s.isOwner f = false)
include h

/-- What the test of every command of the owner comes to for another function, at the time of the command. -/
theorem State.advance_notOwner : (s.advance t).isOwner f = false := h

theorem State.ownerCmd_notOwner : s.ownerCmd f = false := by simp [State.ownerCmd, h]

theorem State.rwlOk_notOwner (l : Nat) : s.rwlOk f l = false := by simp [State.rwlOk, h]

theorem State.arm_notOwner (l : Nat) (g : Landing → Landing) : s.arm f l g = s := by simp [State.arm, h]

theorem State.cntCmd_notOwner (n : Nat) : s.cntCmd f n = s := by simp [State.cntCmd, h]

theorem State.walkCommand_notOwner (x : Option (Except (Nat × Nat) Prog)) : s.walkCommand f x = s := by simp [State.walkCommand, State.ownerCmd_notOwner h]

theorem State.normCommand_notOwner (b : Bool) : s.normCommand f b = s := by simp [State.normCommand, State.ownerCmd_notOwner h]

theorem execAdminDoorbell_notOwner (v : Word) : execAdminDoorbell t f v s = .next (s.advance t) := by
  simp [execAdminDoorbell, State.advance_notOwner t h]

theorem execFwStart_notOwner (v : Word) : execFwStart t f v s = .next (s.advance t) := by
  simp [execFwStart, State.advance_notOwner t h]

theorem execPartRegisterWrite_notOwner (o : Nat) (v : Word) : execPartRegisterWrite t f o v s = .next (s.advance t) := by
  simp [execPartRegisterWrite, State.rwlOk_notOwner (State.advance_notOwner t h)]

theorem execTenRegisterWrite_notOwner (o : Nat) (v : Word) : execTenRegisterWrite t f o v s = .next (s.advance t) := by
  simp [execTenRegisterWrite, State.rwlOk_notOwner (State.advance_notOwner t h)]

theorem execTenRefill_notOwner (v : Word) : execTenRefill t f v s = .next (s.advance t) := by
  simp [execTenRefill, State.advance_notOwner t h]

theorem execNewelTreadWrite_notOwner (v : Word) : execNewelTreadWrite t f v s = .next (s.advance t) := by
  simp [execNewelTreadWrite, State.rwlOk_notOwner (State.advance_notOwner t h)]

theorem execNewelCtrlWrite_notOwner (v : Word) : execNewelCtrlWrite t f v s = .next (s.advance t) := by
  simp [execNewelCtrlWrite, State.rwlOk_notOwner (State.advance_notOwner t h)]

theorem execClearMin_notOwner : execClearMin t f s = .next (s.advance t) := by
  simp [execClearMin, State.advance_notOwner t h]

theorem execWake_notOwner : execWake t f s = .next (s.advance t) := by
  simp [execWake, State.advance_notOwner t h]

theorem execModule_notOwner (k : Nat) : execModule t f k s = .next (s.advance t) := by
  simp [execModule, State.advance_notOwner t h]

theorem execPartition_notOwner (p k : Nat) : execPartition t f p k s = .next (s.advance t) := by
  simp [execPartition, State.advance_notOwner t h]

theorem execProcessor_notOwner (p k : Nat) : execProcessor t f p k s = .next (s.advance t) := by
  simp [execProcessor, State.advance_notOwner t h]

theorem execDeclareLandingDead_notOwner (d p : Nat) : execDeclareLandingDead t f d p s = .next (s.advance t) := by
  simp [execDeclareLandingDead, State.advance_notOwner t h]

theorem execInjectResidue_notOwner (l : Nat) (n : Bool) : execInjectResidue t f l n s = .next (s.advance t) := by
  simp [execInjectResidue, State.arm_notOwner (State.advance_notOwner t h)]

theorem execInjectEcc_notOwner (l : Nat) (n : Bool) : execInjectEcc t f l n s = .next (s.advance t) := by
  simp [execInjectEcc, State.arm_notOwner (State.advance_notOwner t h)]

theorem execFreeze_notOwner : execFreeze t f s = .next (s.advance t) := by
  simp [execFreeze, State.cntCmd_notOwner (State.advance_notOwner t h)]

theorem execUnfreeze_notOwner : execUnfreeze t f s = .next (s.advance t) := by
  simp [execUnfreeze, State.cntCmd_notOwner (State.advance_notOwner t h)]

theorem execSnapshot_notOwner : execSnapshot t f s = .next (s.advance t) := by
  simp [execSnapshot, State.cntCmd_notOwner (State.advance_notOwner t h)]

theorem execClear_notOwner : execClear t f s = .next (s.advance t) := by
  simp [execClear, State.cntCmd_notOwner (State.advance_notOwner t h)]

theorem execEvselWrite_notOwner (i : Nat) (v : Word) : execEvselWrite t f i v s = .next (s.advance t) := by
  simp [execEvselWrite, State.advance_notOwner t h]

theorem execMpDataWrite_notOwner (v : Word) : execMpDataWrite t f v s = .next (s.advance t) := by
  simp [execMpDataWrite, State.ownerCmd_notOwner (State.advance_notOwner t h)]

theorem execMpCommit_notOwner : execMpCommit t f s = .next (s.advance t) := by
  simp [execMpCommit, State.ownerCmd_notOwner (State.advance_notOwner t h)]

theorem execMpClear_notOwner : execMpClear t f s = .next (s.advance t) := by
  simp [execMpClear, State.ownerCmd_notOwner (State.advance_notOwner t h)]

theorem execTblDataWrite_notOwner (v : Word) : execTblDataWrite t f v s = .next (s.advance t) := by
  simp [execTblDataWrite, State.ownerCmd_notOwner (State.advance_notOwner t h)]

theorem execTblCommit_notOwner : execTblCommit t f s = .next (s.advance t) := by
  simp [execTblCommit, State.ownerCmd_notOwner (State.advance_notOwner t h)]

theorem execTblClear_notOwner : execTblClear t f s = .next (s.advance t) := by
  simp [execTblClear, State.ownerCmd_notOwner (State.advance_notOwner t h)]

theorem execRetrainPort_notOwner (p : Nat) : execRetrainPort t f p s = .next (s.advance t) := by
  simp [execRetrainPort, State.advance_notOwner t h]

theorem execDeclarePeerLost_notOwner (p : Nat) : execDeclarePeerLost t f p s = .next (s.advance t) := by
  simp [execDeclarePeerLost, State.advance_notOwner t h]

theorem execEccCountClear_notOwner (v : Word) : execEccCountClear t f v s = .next (s.advance t) := by
  simp [execEccCountClear, State.ownerCmd_notOwner (State.advance_notOwner t h)]

theorem execAlcPinWrite_notOwner (a : Nat) (v : Word) : execAlcPinWrite t f a v s = .next (s.advance t) := by
  simp [execAlcPinWrite, State.rwlOk_notOwner (State.advance_notOwner t h)]

theorem execPinRegionWrite_notOwner (i : Nat) (v : Word) : execPinRegionWrite t f i v s = .next (s.advance t) := by
  simp [execPinRegionWrite, State.rwlOk_notOwner (State.advance_notOwner t h)]

theorem execPcSetWrite_notOwner (i d : Nat) (v : Word) : execPcSetWrite t f i d v s = .next (s.advance t) := by
  simp [execPcSetWrite, State.rwlOk_notOwner (State.advance_notOwner t h)]

theorem execWalkDataWrite_notOwner (v : Word) : execWalkDataWrite t f v s = .next (s.advance t) := by
  simp [execWalkDataWrite, State.ownerCmd_notOwner (State.advance_notOwner t h)]

theorem execWalkCommit_notOwner : execWalkCommit t f s = .next (s.advance t) := by
  simp [execWalkCommit, State.walkCommand_notOwner (State.advance_notOwner t h)]

theorem execWalkClear_notOwner : execWalkClear t f s = .next (s.advance t) := by
  simp [execWalkClear, State.walkCommand_notOwner (State.advance_notOwner t h)]

theorem execNormCommit_notOwner : execNormCommit t f s = .next (s.advance t) := by
  simp [execNormCommit, State.normCommand_notOwner (State.advance_notOwner t h)]

theorem execNormClear_notOwner : execNormClear t f s = .next (s.advance t) := by
  simp [execNormClear, State.normCommand_notOwner (State.advance_notOwner t h)]

end OwnerCommands

/-! ### REGISTER_WRITE -/

/-- The state in which a write at offset o takes effect: a write of a physical function outside ID_, RING_ and IRQ_ starts an exit from Dormant (R473). -/
def State.woken (s : State) (f o : Nat) : State :=
  if fnVf f = 0 && !(o < 0x1000 || (0x2000 ≤ o && o < 0x6000)) then s.wakeDormant else s

/-- A write at an offset that the function's window has: to the MSI-X table, to a register that is a command, or to another. -/
def State.writeAt (s : State) (t f o size : Nat) (v : Word) : Res :=
  if Reg.irqMsixTable 0 ≤ o && o < Reg.irqMsixTable 256 then .next (s.msixWrite f o size v)
  else match s.regTarget f o size v with
    | none => .next s
    | some (r, i, b, w) =>
      match regCommand t f b r i w with
      | some c => c s
      | none => .next (s.plainWrite f b r i w)

/-- A write outside the function's window, and one of a function that no host reaches, is without effect (R12). -/
theorem execRegisterWrite_absent {t f o size : Nat} {v : Word} {s : State} (h : canonOff f o = none) : execRegisterWrite t f o size v s = .next (s.advance t) := by
  unfold execRegisterWrite
  rw [h]

theorem execRegisterWrite_unreached {t f o size : Nat} {v : Word} {s : State} (h : (s.advance t).reach f = false) : execRegisterWrite t f o size v s = .next (s.advance t) := by
  unfold execRegisterWrite
  dsimp only
  rw [h]
  split <;> rfl

theorem execRegisterWrite_at {t f o o' size : Nat} {v : Word} {s : State} (hc : canonOff f o = some o') (hr : (s.advance t).reach f = true) :
    execRegisterWrite t f o size v s = ((s.advance t).woken f o').writeAt t f o' size v := by
  unfold execRegisterWrite
  dsimp only
  rw [hc, hr]
  rfl

theorem State.woken_newel (s : State) (f o : Nat) : (s.woken f o).newel = s.newel := by
  unfold State.woken State.wakeDormant
  split
  · split <;> rfl
  · rfl

theorem State.woken_isOwner (s : State) (f o g : Nat) : (s.woken f o).isOwner g = s.isOwner g := by
  unfold State.woken State.wakeDormant
  split
  · split <;> rfl
  · rfl

theorem State.aside.woken {s : State} {f o : Nat} : s.aside f (s.woken f o) := .ite State.aside.refl.wakeDormant .refl

/-- The command that a write runs as finds the clock already at its own time. -/
theorem State.advance_again {t : Nat} {s q : State} (h : q.newel = (s.advance t).newel) : q.advance t = q := by
  have hle : min t q.newel.nextB ≤ q.newel.time := by rw [h]; exact Nat.le_max_right _ _
  unfold State.advance
  rw [Nat.max_eq_left hle]

/-- The command that a write runs as, if any, changes what is f's own alone. -/
def State.asideBy (f : Nat) (s : State) (o : Option (State → Res)) : Prop := ∀ c, o = some c → ∃ q, c s = .next q ∧ s.aside f q

namespace State.asideBy

variable {f : Nat} {s : State}

theorem none : s.asideBy f none := fun _ hc => nomatch hc

theorem some {c : State → Res} {q : State} (hc : c s = .next q) (h : s.aside f q) : s.asideBy f (some c) := by
  rintro _ ⟨⟩
  exact ⟨q, hc, h⟩

theorem ite {p : Prop} {_ : Decidable p} {a b : Option (State → Res)} (h : s.asideBy f a) (k : s.asideBy f b) : s.asideBy f (if p then a else b) := by
  split <;> assumption

end State.asideBy


/-- Of the commands that registers are, RING_CFG and IRQ_FORCE are each function's own; the others are the owner's. -/
theorem regCommand_aside {t f o i : Nat} {r : RegRow} {v : Word} {s : State} (h : s.isOwner f = false) (ht : s.advance t = s) : s.asideBy f (regCommand t f o r i v) := by
  have rebuffed {c : State → Res} (hc : c s = .next (s.advance t)) : s.asideBy f (some c) := .some (hc.trans (by rw [ht])) .refl
  have own : s.aside f (s.advance t) := by rw [ht]; exact .refl
  unfold regCommand
  refine .ite (.some rfl (.ite own.ringCfg own)) (.ite (.some rfl (.ite own.sendVec own)) ?_)
  refine .ite (rebuffed (execAdminDoorbell_notOwner t h _)) ?_
  refine .ite (rebuffed (execFwStart_notOwner t h _)) ?_
  refine .ite (rebuffed (execPartRegisterWrite_notOwner t h _ _)) ?_
  refine .ite (rebuffed (execTenRegisterWrite_notOwner t h _ _)) ?_
  refine .ite (rebuffed (execTenRefill_notOwner t h _)) ?_
  refine .ite (rebuffed (execNewelTreadWrite_notOwner t h _)) ?_
  refine .ite (rebuffed (execNewelCtrlWrite_notOwner t h _)) ?_
  refine .ite ?pwrCmd (.ite ?rstCmd (.ite (.ite (rebuffed (execDeclareLandingDead_notOwner t h _ _)) .none) (.ite ?fltInject (.ite ?cntCmd ?_))))
  case pwrCmd =>
    split
    · exact rebuffed (execClearMin_notOwner t h)
    · exact rebuffed (execWake_notOwner t h)
    · exact .none
  case rstCmd =>
    split
    · exact rebuffed (execModule_notOwner t h _)
    · exact rebuffed (execPartition_notOwner t h _ _)
    · exact rebuffed (execProcessor_notOwner t h _ _)
    · exact .none
  case fltInject =>
    split
    · exact rebuffed (execInjectResidue_notOwner t h _ _)
    · exact rebuffed (execInjectEcc_notOwner t h _ _)
    · exact .none
  case cntCmd =>
    split
    · exact rebuffed (execFreeze_notOwner t h)
    · exact rebuffed (execUnfreeze_notOwner t h)
    · exact rebuffed (execSnapshot_notOwner t h)
    · exact rebuffed (execClear_notOwner t h)
    · exact .none
  refine .ite (rebuffed (execEvselWrite_notOwner t h _ _)) ?_
  refine .ite (rebuffed (execMpDataWrite_notOwner t h _)) ?_
  refine .ite ?mpCmd (.ite (rebuffed (execTblDataWrite_notOwner t h _)) (.ite ?tblCmd (.ite ?galCmd ?_)))
  case mpCmd =>
    split
    · exact rebuffed (execMpCommit_notOwner t h)
    · exact rebuffed (execMpClear_notOwner t h)
    · exact .none
  case tblCmd =>
    split
    · exact rebuffed (execTblCommit_notOwner t h)
    · exact rebuffed (execTblClear_notOwner t h)
    · exact .none
  case galCmd =>
    split
    · exact rebuffed (execRetrainPort_notOwner t h _)
    · exact rebuffed (execDeclarePeerLost_notOwner t h _)
    · exact .none
  refine .ite (rebuffed (execEccCountClear_notOwner t h _)) ?_
  refine .ite (rebuffed (execAlcPinWrite_notOwner t h _ _)) ?_
  refine .ite (rebuffed (execPinRegionWrite_notOwner t h _ _)) ?_
  refine .ite (rebuffed (execPcSetWrite_notOwner t h _ _ _)) ?_
  refine .ite (rebuffed (execWalkDataWrite_notOwner t h _)) (.ite ?walkCmd (.ite ?normCmd .none))
  case walkCmd =>
    split
    · exact rebuffed (execWalkCommit_notOwner t h)
    · exact rebuffed (execWalkClear_notOwner t h)
    · exact .none
  case normCmd =>
    split
    · exact rebuffed (execNormCommit_notOwner t h)
    · exact rebuffed (execNormClear_notOwner t h)
    · exact .none

/-- A function that is not the owner may write its own block of RING_ and IRQ_ but the admin rings, CNT_SEL and CNT_SAMPLE_IDX (R12, R364, R366, R514). -/
theorem State.mayWrite_notOwner {s : State} {f o : Nat} {r : RegRow} (h : s.isOwner f = false) (hw : s.mayWrite f o r = true) :
    (0x2000 ≤ o ∧ o < 0x6000 ∧ (o < 0x2020 ∨ 0x2048 ≤ o)) ∨ o = Reg.cntSel ∨ o = Reg.cntSampleIdx := by
  simp only [State.mayWrite, State.sees, h, Bool.false_or, Bool.and_eq_true, Bool.or_eq_true, decide_eq_true_eq, beq_iff_eq] at hw
  obtain ⟨⟨hsees, (⟨hlo, hhi⟩ | hsel) | hidx⟩, -⟩ := hw
  · rw [if_neg (by omega), if_pos ⟨hlo, hhi⟩] at hsees
    simp only [Bool.not_eq_true', Bool.and_eq_false_iff, decide_eq_false_iff_not] at hsees
    exact .inl ⟨hlo, hhi, by omega⟩
  · exact .inr (.inl hsel)
  · exact .inr (.inr hidx)

/-- A row of one register stands at its row's offset. -/
theorem regAt_single {b i : Nat} {r : RegRow} (h : regAt b = some (r, i)) (hc : r.count = 1) : b = r.off := by
  obtain ⟨k, hk, rfl⟩ := regAt_offset h
  obtain rfl : k = 0 := by omega
  rfl

theorem lockOf_own {o : Nat} (hlo : 0x2000 ≤ o) (hhi : o < 0x6000) : lockOf o = none := by
  unfold lockOf
  rw [if_neg (by omega), if_neg (by omega), if_pos (by omega)]

/-- A write to RING_BASE, RING_SHADOW or IRQ_MOD changes the function's own ring or vector. -/
theorem State.writePlain_own {s : State} {f b i : Nat} {r : RegRow} {v : Word} (hlo : 0x2000 ≤ b) (hhi : b < 0x6000) (hadmin : b < 0x2020 ∨ 0x2048 ≤ b)
    (hr : r.off ∈ [Reg.ringBase 0, Reg.ringShadow 0, Reg.irqMod 0]) : s.aside f (s.writePlain f b r i v) := by
  unfold State.writePlain
  have hnoadmin : (b = Reg.ringAptBase || b = Reg.ringAdminSq || b = Reg.ringAdminCq) = false := by
    simp only [Bool.or_eq_false_iff, decide_eq_false_iff_not]
    simp only [Reg.ringAptBase, Reg.ringAdminSq, Reg.ringAdminCq]
    omega
  rw [lockOf_own hlo hhi, if_neg (by simp), hnoadmin, if_neg Bool.false_ne_true]
  simp only [List.mem_cons, List.not_mem_nil, or_false] at hr
  obtain hr | hr | hr := hr
  · rw [if_pos hr]; exact State.aside.refl.setRing
  · rw [if_neg (by simp [hr, Reg.ringShadow, Reg.ringBase]), if_pos hr]; exact State.aside.refl.setRing
  · rw [if_neg (by simp [hr, Reg.irqMod, Reg.ringBase]), if_neg (by simp [hr, Reg.irqMod, Reg.ringShadow]), if_pos hr]; exact State.aside.refl.setVec

/-- A plain write of RING_ or IRQ_ outside the admin rings, the rows that are commands and the MSI-X table changes the function's rings and vectors alone. -/
theorem State.plainWrite_own {s : State} {f b i : Nat} {r : RegRow} {v : Word} (hr : regAt b = some (r, i)) (hlo : 0x2000 ≤ b) (hhi : b < 0x6000)
    (hadmin : b < 0x2020 ∨ 0x2048 ≤ b) (hcfg : r.off ≠ Reg.ringCfg 0) (hmsix : r.width ≠ 128) : s.aside f (s.plainWrite f b r i v) := by
  have hown := regAt_own hr hlo hhi
  unfold State.plainWrite
  refine .ite .refl ?_
  cases ha : r.access <;> simp only [ownRow, ha] at hown ⊢
  case ro | wo => exact .refl
  case rwl => cases hown
  case w1c =>
    simp only [Bool.and_eq_true, beq_iff_eq] at hown
    have hb : b = Reg.ringStatus := (regAt_single hr hown.2).trans hown.1
    unfold State.writeClear
    rw [if_pos hb]
    exact State.aside.refl.updFn
  case rw =>
    refine .ite (State.writePlain_own hlo hhi hadmin ?_) .refl
    simp only [List.contains_eq_mem, Bool.or_eq_true, Bool.and_eq_true, decide_eq_true_eq, beq_iff_eq] at hown
    obtain (⟨hmem, hone⟩ | hmem) | ⟨⟨-, -⟩, hw⟩ := hown
    · rw [← regAt_single hr hone] at hmem
      simp only [List.mem_cons, List.not_mem_nil, or_false, Reg.ringAptBase, Reg.ringAdminSq, Reg.ringAdminCq] at hmem
      omega
    · simp only [List.mem_cons, List.not_mem_nil, or_false] at hmem ⊢
      obtain hmem | hmem | hmem | hmem := hmem
      · exact .inl hmem
      · exact absurd hmem hcfg
      · exact .inr (.inl hmem)
      · exact .inr (.inr hmem)
    · exact absurd hw hmsix

theorem State.writePlain_cntSel {s : State} {f i : Nat} {r : RegRow} {v : Word} (hr : r.off = Reg.cntSel) :
    s.writePlain f Reg.cntSel r i v = s.updFn f fun x => { x with cntSel := v.toNat } := by
  unfold State.writePlain
  rw [hr]
  rfl

theorem State.writePlain_cntSampleIdx {s : State} {f i : Nat} {r : RegRow} {v : Word} (hr : r.off = Reg.cntSampleIdx) :
    s.writePlain f Reg.cntSampleIdx r i v = s.updFn f fun x => { x with sampleIdx := v.toNat } := by
  unfold State.writePlain
  rw [hr]
  rfl

/-- CNT_SEL and CNT_SAMPLE_IDX are each function's own (R514). -/
theorem State.plainWrite_select {s : State} {f b i : Nat} {r : RegRow} {v : Word} (hr : regAt b = some (r, i)) (hb : b = Reg.cntSel ∨ b = Reg.cntSampleIdx) :
    s.aside f (s.plainWrite f b r i v) := by
  unfold State.plainWrite
  refine .ite .refl ?_
  obtain rfl | rfl := hb
  · have ⟨ha, ho⟩ : r.access = .rw ∧ r.off = Reg.cntSel := by cases hr; exact ⟨rfl, rfl⟩
    rw [ha, State.writePlain_cntSel ho]
    exact .ite State.aside.refl.updFn .refl
  · have ⟨ha, ho⟩ : r.access = .rw ∧ r.off = Reg.cntSampleIdx := by cases hr; exact ⟨rfl, rfl⟩
    rw [ha, State.writePlain_cntSampleIdx ho]
    exact .ite State.aside.refl.updFn .refl

theorem State.plainWrite_notOwner {s : State} {f b i : Nat} {r : RegRow} {v : Word} (h : s.isOwner f = false) (hr : regAt b = some (r, i))
    (hcfg : r.off ≠ Reg.ringCfg 0) (hmsix : r.width ≠ 128) : s.aside f (s.plainWrite f b r i v) := by
  by_cases hw : s.mayWrite f b r = true
  · obtain ⟨hlo, hhi, hadmin⟩ | hsel := State.mayWrite_notOwner h hw
    · exact State.plainWrite_own hr hlo hhi hadmin hcfg hmsix
    · exact State.plainWrite_select hr hsel
  · unfold State.plainWrite
    rw [if_pos (by simp [hw])]
    exact .refl

/-- RING_CFG is a command of its own: a write that runs as no command is of another row. -/
theorem regCommand_ringCfg {t f b i : Nat} {r : RegRow} {v : Word} (h : regCommand t f b r i v = none) : r.off ≠ Reg.ringCfg 0 := by
  intro hr
  unfold regCommand at h
  rw [if_pos hr] at h
  cases h

/-- The MSI-X table alone has entries of 128 bits: a register at an offset outside it has another width. -/
theorem regAt_msix {b i : Nat} {r : RegRow} (h : regAt b = some (r, i)) (hw : r.width = 128) : Reg.irqMsixTable 0 ≤ b ∧ b < Reg.irqMsixTable 256 := by
  have hrow : ∀ r ∈ regRows, r.width = 128 → r.off = Reg.irqMsixTable 0 ∧ r.stride = 16 ∧ r.count = 256 := by decide +kernel
  obtain ⟨hoff, hstride, hcount⟩ := hrow r (regAt_eq_some h).1 hw
  obtain ⟨k, hk, rfl⟩ := regAt_offset h
  rw [hoff, hstride]
  rw [hcount] at hk
  simp only [Reg.irqMsixTable]
  omega

theorem State.writeAt_notOwner {t f o size : Nat} {v : Word} {s : State} (h : s.isOwner f = false) (ht : s.advance t = s) :
    ∃ q, s.writeAt t f o size v = .next q ∧ s.aside f q := by
  unfold State.writeAt
  split
  next => exact ⟨_, rfl, State.aside.refl.msixWrite⟩
  next hmsix =>
    split
    next => exact ⟨_, rfl, .refl⟩
    next r i b w htarget =>
      obtain ⟨hr, hb⟩ := State.regTarget_eq_some htarget
      split
      next c hc => exact regCommand_aside h ht c hc
      next hc =>
        refine ⟨_, rfl, State.plainWrite_notOwner h hr (regCommand_ringCfg hc) fun hw => ?_⟩
        obtain rfl | hw' := hb
        · exact hmsix (by simpa using regAt_msix hr hw)
        · omega

theorem execRegisterWrite_notOwner (t f o size : Nat) (v : Word) (s : State) (h : s.isOwner f = false) :
    ∃ q, execRegisterWrite t f o size v s = .next q ∧ (s.advance t).aside f q := by
  cases hc : canonOff f o with
  | none => exact ⟨_, execRegisterWrite_absent hc, .refl⟩
  | some o' =>
    cases hr : (s.advance t).reach f with
    | false => exact ⟨_, execRegisterWrite_unreached hr, .refl⟩
    | true =>
      have hown : ((s.advance t).woken f o').isOwner f = false := (State.woken_isOwner _ f o' f).trans h
      obtain ⟨q, hq, haside⟩ := State.writeAt_notOwner (o := o') (size := size) (v := v) hown (State.advance_again (State.woken_newel (s.advance t) f o'))
      exact ⟨q, (execRegisterWrite_at hc hr).trans hq, State.aside.woken.trans haside⟩

/-- Settles O51: a write of another function runs as a command that turns it away, as RING_CFG or IRQ_FORCE, or as a plain write, and the rows of RING_ and IRQ_
that it can reach hold that function's rings and vectors alone. -/
theorem nonOwnerWrites : Obligations.NonOwnerWrites := by
  intro t f o size v s h
  obtain ⟨q, hq, haside⟩ := execRegisterWrite_notOwner t f o size v s h
  exact ⟨q, hq, haside.frame, haside.others, haside.waking, haside.sent⟩

end Sys2Proof.Machine
end

section
/-! SUPPORT. REGISTER_WRITE by the owner: the registers that are written with no effect beside their value. -/

namespace Sys2Proof.Machine

open Sys2Proof

set_option Elab.async false

/-! ### Plain registers -/

theorem State.reg_setReg (s : State) (o : Nat) (v : Word) : (s.setReg o v).reg o = v := by
  simp [State.reg, State.setReg]

theorem State.regsBut_setReg (s : State) (o : Nat) (v : Word) : s.regsBut (s.setReg o v) [o] := fun j hj => by
  simp only [State.reg, State.setReg, SMap.find_put_ne _ _ _ _ (List.ne_of_not_mem_cons hj)]

/-- The registers of 32 bits that are written with no effect beside their value: those with a range, the locks, and the W1C status registers. -/
def rangedRegs : List Nat := [Reg.fltPolicy, Reg.pwrCap, Reg.pwrCtrl, Reg.memLend, Reg.galLoss, Reg.idxWarn, Reg.newelPpsOut]
def lockRegs : List Nat :=
  [Reg.partLock, Reg.tenLock, Reg.newelLock, Reg.pwrLock, Reg.rstLock, Reg.fltLock, Reg.cntLock, Reg.sfuLock, Reg.galLock, Reg.memLock, Reg.txtLock, Reg.fwLock, Reg.secLock]
def statusRegs : List Nat :=
  [Reg.pwrStatus, Reg.rstStatus, Reg.fltStatus, Reg.galStatus, Reg.memStatus, Reg.partStatus, Reg.tenStatus, Reg.newelStatus, Reg.cntStatus, Reg.idxStatus]

/-- A register of 32 bits that every member has, that stands outside the MSI-X table, and that is no command. -/
structure PlainReg (o : Nat) (r : RegRow) : Prop where
  row     : regAt o = some (r, 0)
  width   : r.width = 32
  outside : (Reg.irqMsixTable 0 ≤ o && o < Reg.irqMsixTable 256) = false
  command : ∀ (t f : Nat) (v : Word), regCommand t f o r 0 v = none
  present : ∀ (m : Member) (f : Nat), absentReg m f r 0 = false

theorem plainReg_ranged {o : Nat} {r : RegRow} (ho : o ∈ rangedRegs) (hr : regAt o = some (r, 0)) : PlainReg o r ∧ (r.access = .rw ∨ r.access = .rwl) ∧
    ∀ (s : State) (f : Nat) (v : Word), s.writePlain f o r 0 v = s.setReg o v := by
  simp only [rangedRegs, List.mem_cons, List.not_mem_nil, or_false] at ho
  obtain rfl | rfl | rfl | rfl | rfl | rfl | rfl := ho <;> cases hr
  all_goals exact ⟨⟨rfl, rfl, rfl, fun _ _ _ => rfl, fun _ _ => rfl⟩, by decide, fun _ _ _ => rfl⟩

/-- A lock register has one bit, and a write ORs it in. -/
theorem plainReg_lock {o : Nat} (ho : o ∈ lockRegs) : ∃ r, PlainReg o r ∧ r.access = .rw ∧ r.mask = 1 ∧ (∀ (s : State) (v : Word), s.valueOk r v = true) ∧
    ∀ (s : State) (f : Nat) (v : Word), s.writePlain f o r 0 v = s.setReg o (s.reg o ||| v) := by
  simp only [lockRegs, List.mem_cons, List.not_mem_nil, or_false] at ho
  obtain rfl | rfl | rfl | rfl | rfl | rfl | rfl | rfl | rfl | rfl | rfl | rfl | rfl := ho
  all_goals exact ⟨_, ⟨rfl, rfl, rfl, fun _ _ _ => rfl, fun _ _ => rfl⟩, rfl, rfl, fun _ _ => rfl, fun _ _ _ => rfl⟩

theorem plainReg_status {o : Nat} {r : RegRow} (ho : o ∈ statusRegs) (hr : regAt o = some (r, 0)) : PlainReg o r ∧ r.access = .w1c ∧
    ∀ (s : State) (f : Nat) (v : Word), s.writeClear f o v = s.setReg o (s.reg o &&& ~~~v) := by
  simp only [statusRegs, List.mem_cons, List.not_mem_nil, or_false] at ho
  obtain rfl | rfl | rfl | rfl | rfl | rfl | rfl | rfl | rfl | rfl := ho <;> cases hr
  all_goals exact ⟨⟨rfl, rfl, rfl, fun _ _ _ => rfl, fun _ _ => rfl⟩, rfl, fun _ _ _ => rfl⟩

/-! ### Writes of the owner -/

theorem State.woken_regs (s : State) (f o : Nat) : (s.woken f o).regs = s.regs := by
  unfold State.woken State.wakeDormant
  split
  · split <;> rfl
  · rfl

theorem State.woken_member (s : State) (f o : Nat) : (s.woken f o).member = s.member := by
  unfold State.woken State.wakeDormant
  split
  · split <;> rfl
  · rfl

theorem State.woken_reg (s : State) (f o j : Nat) : (s.woken f o).reg j = s.reg j := by
  unfold State.reg
  rw [State.woken_regs, State.woken_member]

theorem State.woken_frame (s : State) (f o : Nat) : s.onlyIn (s.woken f o) [.power] :=
  State.onlyIn_ite _ s.wakeDormant_frame (s.onlyIn_refl _)

theorem State.sees_owner {s : State} {f : Nat} (h : s.isOwner f = true) (hf : fnVf f = 0) (o : Nat) : s.sees f o = true := by
  simp [State.sees, h, hf]

section Owner

variable {t f o size : Nat} {v : Word} {r : RegRow} {s : State}

/-- The owner's write of a plain register reaches its block as a plain write of the low 32 bits. -/
theorem execRegisterWrite_plainReg (hown : s.ownerAt t f) (hf : fnVf f = 0) (h : PlainReg o r) (hs : 4 ≤ size) :
    exec (.registerWrite t f o size v) s = .next (((s.advance t).woken f o).plainWrite f o r 0 (v &&& 0xFFFFFFFF)) := by
  have htarget (u : State) : u.regTarget f o size v = some (r, 0, o, v &&& 0xFFFFFFFF) := by
    simp [State.regTarget, h.row, h.width, hs]
  have hcanon : canonOff f o = some o := if_pos hf
  change execRegisterWrite t f o size v s = _
  rw [execRegisterWrite_at hcanon hown.1]
  unfold State.writeAt
  simp only [h.outside, htarget, h.command, Bool.false_eq_true, if_false]

/-- An RWL register of a locked block keeps its value. -/
theorem State.plainWrite_locked {l : Nat} (ha : r.access = .rwl) (hl : lockOf o = some l) (hlock : bitW (s.reg l) 0 = true) : s.plainWrite f o r 0 v = s := by
  simp [State.plainWrite, State.mayWrite, ha, hl, hlock]

variable (hown : s.isOwner f = true) (hf : fnVf f = 0) (h : PlainReg o r)
include hown hf h

theorem State.plainWrite_status (ha : r.access = .w1c) : s.plainWrite f o r 0 v = s.writeClear f o (v &&& BitVec.ofNat 64 r.mask) := by
  simp [State.plainWrite, State.mayWrite, State.sees_owner hown hf, hown, h.present, ha]

/-- A RW register, or an RWL register of an unlocked block, takes its writable bits where the value is in range. -/
theorem State.plainWrite_unlocked (ha : r.access = .rw ∨ r.access = .rwl) (hlock : ∀ l, r.access = .rwl → lockOf o = some l → bitW (s.reg l) 0 = false) :
    s.plainWrite f o r 0 v = if s.valueOk r v then s.writePlain f o r 0 (v &&& BitVec.ofNat 64 r.mask) else s := by
  obtain ha | ha := ha
  · simp [State.plainWrite, State.mayWrite, State.sees_owner hown hf, hown, h.present, ha]
  · have hmay : s.mayWrite f o r = true := by
      cases hl : lockOf o with
      | none => simp [State.mayWrite, State.sees_owner hown hf, hown, hl]
      | some l => simp [State.mayWrite, State.sees_owner hown hf, hown, hl, hlock l ha hl]
    simp [State.plainWrite, hmay, h.present, ha]

end Owner

/-- A write that may wake the module and sets no register. -/
theorem does_woken {t f o size : Nat} {v : Word} {s : State} (h : exec (.registerWrite t f o size v) s = .next ((s.advance t).woken f o)) :
    Does (.registerWrite t f o size v) s t [.regs, .power] (fun q => q.regs = s.regs) :=
  ⟨_, h, State.onlyIn_mono (State.woken_frame _ f o) (by decide), State.woken_regs _ f o⟩

/-- A write that may wake the module and sets one register. -/
theorem does_setReg {t f o size : Nat} {v w : Word} {s : State} (h : exec (.registerWrite t f o size v) s = .next (((s.advance t).woken f o).setReg o w)) :
    Does (.registerWrite t f o size v) s t [.regs, .power] (fun q => q.reg o = w ∧ s.regsBut q [o]) := by
  refine ⟨_, h, State.onlyIn_trans (State.onlyIn_mono (State.woken_frame _ f o) (by decide)) (State.onlyIn_mono (State.setReg_frame _ o w) (by decide)),
    State.reg_setReg _ o w, fun j hj => ?_⟩
  exact (State.regsBut_setReg _ o w j hj).trans (State.woken_reg _ f o j)

/-- The ranges of values depend on the member alone. -/
theorem State.valueOk_woken (s : State) (f o : Nat) (r : RegRow) (v : Word) : (s.woken f o).valueOk r v = s.valueOk r v := by
  unfold State.valueOk
  rw [State.woken_member]

section Settled

variable {t f o : Nat} {v : Word} {s : State} (hown : s.ownerAt t f) (hf : fnVf f = 0)
include hown hf

theorem registerWrite_locked {r : RegRow} {l : Nat} (h : PlainReg o r) (ha : r.access = .rwl) (hl : lockOf o = some l) (hlock : bitW (s.reg l) 0 = true) :
    Does (.registerWrite t f o 8 v) s t [.regs, .power] (fun q => q.regs = s.regs) := by
  have hlock' : bitW (((s.advance t).woken f o).reg l) 0 = true := by rw [State.woken_reg]; exact hlock
  exact does_woken ((execRegisterWrite_plainReg hown hf h (by omega)).trans (by rw [State.plainWrite_locked ha hl hlock']))

/-- A ranged register of an unlocked block after the owner's write. -/
theorem registerWrite_ranged {r : RegRow} (ho : o ∈ rangedRegs) (hr : regAt o = some (r, 0))
    (hlock : ∀ l, r.access = .rwl → lockOf o = some l → bitW (s.reg l) 0 = false) :
    exec (.registerWrite t f o 8 v) s = .next (if s.valueOk r (v &&& 0xFFFFFFFF) then ((s.advance t).woken f o).setReg o ((v &&& 0xFFFFFFFF) &&& BitVec.ofNat 64 r.mask)
      else (s.advance t).woken f o) := by
  obtain ⟨h, ha, hplain⟩ := plainReg_ranged ho hr
  have hown' : ((s.advance t).woken f o).isOwner f = true := (State.woken_isOwner _ f o f).trans hown.2
  rw [execRegisterWrite_plainReg hown hf h (by omega), State.plainWrite_unlocked hown' hf h ha fun l hrwl hl => (congrArg (bitW · 0) (State.woken_reg _ f o l)).trans (hlock l hrwl hl),
    hplain, State.valueOk_woken]
  rfl

theorem registerWrite_lock (ho : o ∈ lockRegs) : Does (.registerWrite t f o 4 v) s t [.regs, .power] (fun q => q.reg o = s.reg o ||| (v &&& 1) ∧ s.regsBut q [o]) := by
  obtain ⟨r, h, ha, hmask, hok, hplain⟩ := plainReg_lock ho
  have hown' : ((s.advance t).woken f o).isOwner f = true := (State.woken_isOwner _ f o f).trans hown.2
  have hbit : (v &&& 0xFFFFFFFF) &&& BitVec.ofNat 64 1 = v &&& 1 := by rw [BitVec.and_assoc]; rfl
  refine does_setReg ((execRegisterWrite_plainReg hown hf h (by omega)).trans ?_)
  rw [State.plainWrite_unlocked hown' hf h (.inl ha) fun l hrwl => by simp [ha] at hrwl, if_pos (hok _ _), hplain, hmask, hbit, State.woken_reg]
  rfl

theorem registerWrite_status {r : RegRow} (ho : o ∈ statusRegs) (hr : regAt o = some (r, 0)) : Does (.registerWrite t f o 4 v) s t [.regs, .power]
    (fun q => q.reg o = s.reg o &&& ~~~((v &&& 0xFFFFFFFF) &&& BitVec.ofNat 64 r.mask) ∧ s.regsBut q [o]) := by
  obtain ⟨h, ha, hclear⟩ := plainReg_status ho hr
  have hown' : ((s.advance t).woken f o).isOwner f = true := (State.woken_isOwner _ f o f).trans hown.2
  refine does_setReg ((execRegisterWrite_plainReg hown hf h (by omega)).trans ?_)
  rw [State.plainWrite_status hown' hf h ha, hclear _ f, State.woken_reg]
  rfl

end Settled

/-- Settles O50: each of the listed registers is plain, so the owner's write is a plain write of its row; a virtual function's window ends at 0x9000. That a value
out of its range is ignored where the table gives a range alone is log entry 37. -/
theorem registerWrites : Obligations.RegisterWrites := by
  intro t f o v r s
  refine ⟨fun hown hf => ⟨fun ho hr _ => ?ranged, fun ho => registerWrite_lock hown hf ho, fun ho hr => registerWrite_status hown hf ho hr⟩, fun hvf ho => ?beyond⟩
  case ranged =>
    obtain ⟨h, -, -⟩ := plainReg_ranged ho hr
    refine ⟨fun l ha hl hlock => registerWrite_locked hown hf h ha hl hlock, fun hlock => ?_⟩
    have hwrite := registerWrite_ranged (v := v) hown hf ho hr hlock
    simp only [h.width, if_true]
    refine ⟨fun hok => does_setReg (hwrite.trans ?_), fun hbad => does_woken (hwrite.trans ?_)⟩
    · rw [if_pos hok]
    · rw [hbad, if_neg Bool.false_ne_true]
  case beyond =>
    have hcanon : canonOff f o = none := by
      unfold canonOff
      rw [if_neg hvf, if_neg (by simp; omega), if_neg (by simp; omega)]
    exact ⟨_, execRegisterWrite_absent hcanon, State.onlyIn_refl _ _, rfl⟩

end Sys2Proof.Machine
end

section
/-! SUPPORT. Micro-programs, function tables, walker programs and normalisation slots: what the owner's writes and commands change. -/

namespace Sys2Proof

set_option Elab.async false

/-! ### Fields of registers -/

/-- A number with a field replaced: what stands below, the field, what stands above. -/
theorem putBits_eq (v x : Nat) {hi lo : Nat} (h : lo ≤ hi) :
    putBits v hi lo x = 2 ^ lo * (2 ^ (hi + 1 - lo) * (v / 2 ^ (hi + 1)) + x % 2 ^ (hi + 1 - lo)) + v % 2 ^ lo := by
  have hpow : 2 ^ (hi + 1) = 2 ^ lo * 2 ^ (hi + 1 - lo) := by rw [← Nat.pow_add, Nat.add_sub_cancel' (by omega)]
  have hlow := Nat.div_add_mod v (2 ^ lo)
  have hfield := Nat.div_add_mod (v / 2 ^ lo) (2 ^ (hi + 1 - lo))
  rw [Nat.div_div_eq_div_mul, ← hpow] at hfield
  unfold putBits bitsN shl
  rw [Nat.shiftRight_eq_div_pow]
  generalize v / 2 ^ lo % 2 ^ (hi + 1 - lo) = field at *
  generalize 2 ^ (hi + 1 - lo) * (v / 2 ^ (hi + 1)) = above at *
  rw [← hfield, Nat.mul_add] at hlow
  rw [Nat.mul_add, Nat.mul_comm field, Nat.mul_comm (x % _)]
  omega

theorem testBit_putBits (v x j : Nat) {hi lo : Nat} (h : lo ≤ hi) :
    (putBits v hi lo x).testBit j = if lo ≤ j ∧ j ≤ hi then x.testBit (j - lo) else v.testBit j := by
  rw [putBits_eq v x h, Nat.testBit_two_pow_mul_add _ (Nat.mod_lt _ (Nat.two_pow_pos _)), Nat.testBit_two_pow_mul_add _ (Nat.mod_lt _ (Nat.two_pow_pos _))]
  rcases Nat.lt_or_ge j lo with hlo | hlo
  · simp [hlo, Nat.not_le.2 hlo]
  · rcases Nat.lt_or_ge hi j with hhi | hhi
    · have hup : ¬ j - lo < hi + 1 - lo := by omega
      have hsame : j - lo - (hi + 1 - lo) + (hi + 1) = j := by omega
      simp [Nat.not_lt.2 hlo, Nat.not_le.2 hhi, hup, Nat.testBit_div_two_pow, hsame]
    · have hin : j - lo < hi + 1 - lo := by omega
      simp [Nat.not_lt.2 hlo, hlo, hhi, hin]

theorem testBit_putBitsW (v : Word) (x : Nat) {hi lo j : Nat} (h : lo ≤ hi) (hj : j < 64) :
    (putBitsW v hi lo x).toNat.testBit j = if lo ≤ j ∧ j ≤ hi then x.testBit (j - lo) else v.toNat.testBit j := by
  rw [putBitsW, BitVec.toNat_ofNat, Nat.testBit_mod_two_pow, testBit_putBits _ _ _ h, decide_eq_true hj, Bool.true_and]

theorem testBit_bitsW (v : Word) (hi lo j : Nat) : (bitsW v hi lo).testBit j = (decide (j < hi + 1 - lo) && v.toNat.testBit (lo + j)) := by
  rw [bitsW, bitsN, Nat.testBit_mod_two_pow, Nat.testBit_shiftRight]

theorem bitsW_putBitsW_same (v : Word) (x : Nat) {hi lo : Nat} (h : lo ≤ hi) (hhi : hi < 64) : bitsW (putBitsW v hi lo x) hi lo = x % 2 ^ (hi + 1 - lo) := by
  refine Nat.eq_of_testBit_eq fun j => ?_
  rw [testBit_bitsW, Nat.testBit_mod_two_pow]
  by_cases hj : j < hi + 1 - lo
  · have hin : lo ≤ lo + j ∧ lo + j ≤ hi := by omega
    rw [testBit_putBitsW v x h (by omega), if_pos hin, Nat.add_sub_cancel_left]
  · simp [hj]

theorem bitsW_putBitsW_below (v : Word) (x a b : Nat) {hi lo : Nat} (h : lo ≤ hi) (hhi : hi < 64) (ha : a < lo) : bitsW (putBitsW v hi lo x) a b = bitsW v a b := by
  refine Nat.eq_of_testBit_eq fun j => ?_
  rw [testBit_bitsW, testBit_bitsW]
  by_cases hj : j < a + 1 - b
  · have hout : ¬ (lo ≤ b + j ∧ b + j ≤ hi) := by omega
    rw [testBit_putBitsW v x h (by omega), if_neg hout]
  · simp [hj]

/-! ### Bytes past the end -/

/-- A byte past the end of a string reads as zero. -/
theorem Blob.slice_eq_map (b : Blob) (off n : Nat) : Blob.slice b off n = (List.range n).map fun i => b.getD (off + i) 0#8 := by
  have hlen : ((b.drop off).take n).length = min n (b.length - off) := by rw [List.length_take, List.length_drop]
  refine List.ext_getElem? fun i => ?_
  unfold Blob.slice zeros
  dsimp only
  rw [hlen]
  rcases Nat.lt_or_ge i n with hi | hi
  · rw [List.getElem?_map, List.getElem?_range hi, Option.map_some, List.getD_eq_getElem?_getD]
    rcases Nat.lt_or_ge (off + i) b.length with hb | hb
    · rw [List.getElem?_append_left (by omega), List.getElem?_take_of_lt hi, List.getElem?_drop, List.getElem?_eq_getElem hb, Option.getD_some]
    · rw [List.getElem?_append_right (by omega), List.getElem?_replicate, if_pos (by omega), List.getElem?_eq_none hb, Option.getD_none]
  · have hmap : ((List.range n).map fun i => b.getD (off + i) 0#8).length ≤ i := by rwa [List.length_map, List.length_range]
    have hfill : ((b.drop off).take n ++ List.replicate (n - min n (b.length - off)) 0#8).length ≤ i := by
      rw [List.length_append, hlen, List.length_replicate]
      omega
    rw [List.getElem?_eq_none hmap, List.getElem?_eq_none hfill]

/-- Zeros after a string change no byte that is read of it. -/
theorem Blob.getD_slice (b : Blob) {n : Nat} (h : b.length ≤ n) (i : Nat) : (Blob.slice b 0 n).getD i 0#8 = b.getD i 0#8 := by
  rw [Blob.slice_eq_map, List.getD_eq_getElem?_getD, List.getElem?_map]
  rcases Nat.lt_or_ge i n with hi | hi
  · rw [List.getElem?_range hi, Option.map_some, Option.getD_some, Nat.zero_add]
  · have hrange : (List.range n).length ≤ i := by rwa [List.length_range]
    rw [List.getElem?_eq_none hrange, Option.map_none, List.getD_eq_getElem?_getD, List.getElem?_eq_none (Nat.le_trans h hi)]

theorem Blob.u_slice (b : Blob) {m : Nat} (h : b.length ≤ m) (off n : Nat) : Blob.u (Blob.slice b 0 m) off n = Blob.u b off n := by
  simp only [Blob.u, Blob.slice_eq_map (Blob.slice b 0 m) off n, Blob.slice_eq_map b off n, Blob.getD_slice b h]

namespace Machine

/-! ### Completing a command -/

/-- A claim about what a command leaves holds of any wider frame, and of any weaker claim. -/
theorem Does.mono {c : Instr} {s : State} {t : Nat} {ks ls : List Area} {P Q : State → Prop} (h : Does c s t ks P) (hk : ∀ a ∈ ks, a ∈ ls) (hq : ∀ q, P q → Q q) :
    Does c s t ls Q := by
  obtain ⟨q, hexec, hframe, hp⟩ := h
  exact ⟨q, hexec, State.onlyIn_mono hframe hk, hq q hp⟩

@[simp] theorem State.wakeDormant_units (s : State) : s.wakeDormant.units = s.units := s.wakeDormant_frame .units (by decide)
@[simp] theorem State.wakeDormant_regs (s : State) : s.wakeDormant.regs = s.regs := s.wakeDormant_frame .regs (by decide)
@[simp] theorem State.wakeDormant_reg (s : State) (o : Nat) : s.wakeDormant.reg o = s.reg o := by
  obtain ⟨hmember, -⟩ := s.wakeDormant_frame .config (by decide)
  rw [State.reg, State.wakeDormant_regs, hmember, State.reg]

/-- A command that may wake the module and changes the loadable units. -/
theorem does_updUnits {c : Instr} {t : Nat} {s : State} {g : Units → Units} (h : exec c s = .next ((s.advance t).wakeDormant.updUnits g)) :
    Does c s t [.units, .power] (fun q => q.units = g s.units ∧ q.regs = s.regs) := by
  refine ⟨_, h, State.onlyIn_trans (State.onlyIn_mono (State.wakeDormant_frame _) (by decide)) (State.onlyIn_mono (State.updUnits_frame _ g) (by decide)), ?_, ?_⟩
  · simp [State.updUnits]
  · simp

/-- A command that may wake the module, sets one register, and changes the loadable units. -/
theorem does_setReg_updUnits {c : Instr} {t o : Nat} {w : Word} {s : State} {g : Units → Units}
    (h : exec c s = .next (((s.advance t).wakeDormant.setReg o w).updUnits g)) :
    Does c s t [.regs, .units, .power] (fun q => q.units = g s.units ∧ q.reg o = w ∧ s.regsBut q [o]) := by
  refine ⟨_, h, ?frame, ?units, State.reg_setReg _ o w, fun j hj => ?regs⟩
  case frame =>
    exact State.onlyIn_trans (State.onlyIn_mono (State.wakeDormant_frame _) (by decide))
      (State.onlyIn_trans (State.onlyIn_mono (State.setReg_frame _ o w) (by decide)) (State.onlyIn_mono (State.updUnits_frame _ g) (by decide)))
  case units => simp [State.updUnits]
  case regs => exact (State.regsBut_setReg _ o w j hj).trans (State.wakeDormant_reg _ j)

/-! ### Loaders -/

/-- A commit or a clear of a unit answers in its status, and what is staged stays staged (log entry 60). -/
theorem Loader.command_answered (l : Loader) (locked used : Bool) (n : Nat) (content : Option (Except (Nat × Nat) Prog)) :
    l.answered (l.command locked used n content) locked used n content := by
  unfold Loader.answered
  cases locked with
  | true => simp [Loader.command, Loader.fail]
  | false =>
    cases content with
    | none => cases used <;> simp [Loader.command, Loader.fail, Loader.hold]
    | some checked =>
      cases hover : l.overrun with
      | true => simp [Loader.command, Loader.fail, hover]
      | false =>
        cases checked with
        | error e => simp [Loader.command, Loader.fail, hover]
        | ok p => cases used <;> simp [Loader.command, Loader.fail, Loader.hold, hover]

theorem State.stageWord_within {s : State} {sel hi lo top : Nat} {l : Loader} {v : Word} (h : bitsW (s.reg sel) hi lo < top) :
    s.stageWord sel hi lo top l v =
      (s.setReg sel (putBitsW (s.reg sel) hi lo (bitsW (s.reg sel) hi lo + 1)), { l with staged := SMap.put l.staged (bitsW (s.reg sel) hi lo) v }) :=
  if_neg (Nat.not_le.2 h)

theorem State.stageWord_past {s : State} {sel hi lo top : Nat} {l : Loader} {v : Word} (h : top ≤ bitsW (s.reg sel) hi lo) :
    s.stageWord sel hi lo top l v = (s, { l with overrun := true }) :=
  if_pos h

/-- A command that stages a word below the top place of its unit, `put` being how the unit's loader is replaced: the selector's index moves on by one. -/
theorem does_stageWord {c : Instr} {t sel top : Nat} {v : Word} {l : Loader} {s : State} (put : Units → Loader → Units)
    (h : exec c s = .next (((s.advance t).wakeDormant.stageWord sel 14 8 top l v).1.updUnits fun u => put u ((s.advance t).wakeDormant.stageWord sel 14 8 top l v).2))
    (hi : bitsW (s.reg sel) 14 8 < top) (htop : top < 128) :
    Does c s t [.regs, .units, .power] (fun q => q.units = put s.units { l with staged := SMap.put l.staged (bitsW (s.reg sel) 14 8) v } ∧
      bitsW (q.reg sel) 14 8 = bitsW (s.reg sel) 14 8 + 1 ∧ bitsW (q.reg sel) 7 0 = bitsW (s.reg sel) 7 0 ∧ s.regsBut q [sel]) := by
  have hreg : (s.advance t).wakeDormant.reg sel = s.reg sel := State.wakeDormant_reg _ sel
  rw [State.stageWord_within (by rwa [hreg]), hreg] at h
  refine (does_setReg_updUnits h).mono (fun _ ha => ha) fun q ⟨hunits, hsel, hbut⟩ => ⟨hunits, ?index, ?number, hbut⟩
  case index => rw [hsel, bitsW_putBitsW_same _ _ (by omega) (by omega), Nat.mod_eq_of_lt (by omega)]
  case number => rw [hsel, bitsW_putBitsW_below _ _ _ _ (by omega) (by omega) (by omega)]

/-- A commit or a clear, `get` and `put` being how the units hold the loader that it is for. -/
theorem does_command {c : Instr} {t n : Nat} {s : State} {locked used : Bool} {content : Option (Except (Nat × Nat) Prog)} (get : Units → Loader) (put : Units → Loader → Units)
    (hget : ∀ u l, get (put u l) = l) (hput : ∀ u l, put (put u l) (get u) = u)
    (h : exec c s = .next ((s.advance t).wakeDormant.updUnits fun u => put u ((get u).command locked used n content))) :
    Does c s t [.units, .power] (fun q => (get s.units).answered (get q.units) locked used n content ∧ put q.units (get s.units) = s.units) := by
  refine (does_updUnits h).mono (fun _ ha => ha) fun q ⟨hunits, _⟩ => ?_
  rw [hunits, hget, hput]
  exact ⟨Loader.command_answered _ _ _ _ _, rfl⟩

/-! ### Normalisation images -/

theorem normSecsOk_slice (b : Blob) {n : Nat} (h : b.length ≤ n) : normSecsOk (Blob.slice b 0 n) = normSecsOk b := by
  have hread : Blob.u32 (Blob.slice b 0 n) = Blob.u32 b := funext fun off => Blob.u_slice b h off 4
  unfold normSecsOk normKeys normPool normSec
  rw [hread]

theorem normErr_magic {b : Blob} (h : Blob.u32 b 0 ≠ 0x4C4E524D) : normErr b = 1 := by
  simp [normErr, h]

theorem normErr_le (b : Blob) : normErr b ≤ 3 := by
  unfold normErr
  dsimp only
  split
  next => decide
  next =>
    split
    next => decide
    next => split <;> decide

/-- An image that passes has a size in bounds and sections that are in order (R158). -/
theorem normErr_passed {b : Blob} (h : normErr b = 0) : 64 ≤ Blob.u32 b 56 ∧ Blob.u32 b 56 ≤ 4194304 ∧ normSecsOk b = true := by
  unfold normErr at h
  dsimp only at h
  split at h
  next => cases h
  next =>
    split at h
    next => cases h
    next hsize =>
      split at h
      next => cases h
      next hsecs =>
        simp only [Bool.or_eq_true, decide_eq_true_eq, not_or, Nat.not_lt] at hsize
        obtain ⟨⟨hmax, hmin⟩, -⟩ := hsize
        exact ⟨hmin, hmax, by simpa only [Bool.not_eq_true', Bool.not_eq_false] using hsecs⟩

/-- The first failed check of an image as NORM_COMMIT reads it: zeros fill one that is shorter than its header. -/
def imageErr (b : Blob) : Nat := normErr (Blob.slice b 0 (max 64 b.length))

/-- The zeros that fill an image change no field, so its checks speak of the image itself. -/
theorem imageErr_checks (b : Blob) : (Blob.u32 b 0 ≠ 0x4C4E524D → imageErr b = 1) ∧ imageErr b ≤ 3 ∧
    (imageErr b = 0 → 64 ≤ Blob.u32 b 56 ∧ Blob.u32 b 56 ≤ 4194304 ∧ normSecsOk b = true) := by
  have hlen : b.length ≤ max 64 b.length := Nat.le_max_right _ _
  have hread (off : Nat) : Blob.u32 (Blob.slice b 0 (max 64 b.length)) off = Blob.u32 b off := Blob.u_slice b hlen off 4
  refine ⟨fun h => normErr_magic (by rwa [hread]), normErr_le _, fun h => ?_⟩
  have hpassed := normErr_passed h
  rwa [hread, normSecsOk_slice b hlen] at hpassed

/-! ### The owner's writes and commands -/

/-- The image that NORM_COMMIT reads: at the source address, as long as its header says, at most 4 MiB (R156, R158). -/
def State.normImage (s : State) : Blob :=
  let src := s.regN Reg.txtNormSrc / 4096 * 4096
  Memory.readN s.hbm src (min (leNat (Memory.readN s.hbm (src + 56) 4)) 4194304)

/-- The error of a write to TXT_NORM_CMD: the lock, a vocabulary that names the slot, else that of the image (R156, R173). -/
def State.normRefusal (s : State) (err : Nat) : Nat :=
  if bitW (s.reg Reg.txtLock) 0 then 5 else if s.normUsed (bitsW (s.reg Reg.txtNormSel) 2 0) then 4 else err

/-- TXT_NORM_STATUS with an error, or a slot's new content that waits for the boundary (R156, R173). -/
def Units.normAnswer (u : Units) (err n : Nat) (content : Option Blob) : Units :=
  if err != 0 then { u with normStatus := statusWord 3 err 0 } else { u with normStatus := 1, normPend := SMap.put u.normPend n content }

theorem State.normRefusal_locked {s : State} (h : bitW (s.reg Reg.txtLock) 0 = true) (err : Nat) : s.normRefusal err = 5 := if_pos h

theorem State.normRefusal_used {s : State} (h : bitW (s.reg Reg.txtLock) 0 = false) (hu : s.normUsed (bitsW (s.reg Reg.txtNormSel) 2 0) = true) (err : Nat) :
    s.normRefusal err = 4 := by
  simp [State.normRefusal, h, hu]

theorem State.normRefusal_free {s : State} (h : bitW (s.reg Reg.txtLock) 0 = false) (hu : s.normUsed (bitsW (s.reg Reg.txtNormSel) 2 0) = false) (err : Nat) :
    s.normRefusal err = err := by
  simp [State.normRefusal, h, hu]

theorem Units.normAnswer_error {err : Nat} (h : err ≠ 0) (u : Units) (n : Nat) (content : Option Blob) :
    u.normAnswer err n content = { u with normStatus := statusWord 3 err 0 } :=
  if_pos (by simpa using h)

theorem Units.normAnswer_held {err : Nat} (h : err = 0) (u : Units) (n : Nat) (content : Option Blob) :
    u.normAnswer err n content = { u with normStatus := 1, normPend := SMap.put u.normPend n content } :=
  if_neg (by simpa using h)

section Owner

variable {t f : Nat} {v : Word} {s : State} (hown : s.ownerAt t f)
include hown

theorem State.ownerCmd_owner : ¬ (!(s.advance t).ownerCmd f) = true := by
  have howner : (s.advance t).isOwner f = true := hown.2
  simp [State.ownerCmd, hown.1, howner]

theorem exec_mpDataWrite : exec (.mpDataWrite t f v) s = .next
    (((s.advance t).wakeDormant.stageWord Reg.sfuMpSel 14 8 65 s.units.mp v).1.updUnits fun u =>
      { u with mp := ((s.advance t).wakeDormant.stageWord Reg.sfuMpSel 14 8 65 s.units.mp v).2 }) :=
  if_neg (State.ownerCmd_owner hown)

theorem exec_tblDataWrite : exec (.tblDataWrite t f v) s = .next
    (((s.advance t).wakeDormant.setReg Reg.sfuTblSel (putBitsW (s.reg Reg.sfuTblSel) 19 10 (bitsW (s.reg Reg.sfuTblSel) 19 10 + 1))).updUnits fun u =>
      { u with tbl := { u.tbl with staged := SMap.put u.tbl.staged (bitsW (s.reg Reg.sfuTblSel) 19 10) (v &&& 0xFFFFFFFF) } }) :=
  if_neg (State.ownerCmd_owner hown)

theorem exec_mpCommit : exec (.mpCommit t f) s = .next ((s.advance t).wakeDormant.updUnits fun u =>
    { u with mp := u.mp.command (bitW (s.reg Reg.sfuLock) 0) ((s.listed 2).contains (bitsW (s.reg Reg.sfuMpSel) 7 0)) (bitsW (s.reg Reg.sfuMpSel) 7 0) (some s.mpCheck) }) :=
  if_neg (State.ownerCmd_owner hown)

theorem exec_mpClear : exec (.mpClear t f) s = .next ((s.advance t).wakeDormant.updUnits fun u =>
    { u with mp := u.mp.command (bitW (s.reg Reg.sfuLock) 0) ((s.listed 2).contains (bitsW (s.reg Reg.sfuMpSel) 7 0)) (bitsW (s.reg Reg.sfuMpSel) 7 0) none }) :=
  if_neg (State.ownerCmd_owner hown)

theorem exec_tblCommit : exec (.tblCommit t f) s = .next ((s.advance t).wakeDormant.updUnits fun u =>
    { u with tbl := u.tbl.command (bitW (s.reg Reg.sfuLock) 0) (s.tableUsed (bitsW (s.reg Reg.sfuTblSel) 4 0)) (bitsW (s.reg Reg.sfuTblSel) 4 0) (some s.tblCheck) }) :=
  if_neg (State.ownerCmd_owner hown)

theorem exec_tblClear : exec (.tblClear t f) s = .next ((s.advance t).wakeDormant.updUnits fun u =>
    { u with tbl := u.tbl.command (bitW (s.reg Reg.sfuLock) 0) (s.tableUsed (bitsW (s.reg Reg.sfuTblSel) 4 0)) (bitsW (s.reg Reg.sfuTblSel) 4 0) none }) :=
  if_neg (State.ownerCmd_owner hown)

theorem exec_walkDataWrite_below (h : bitsW (s.reg Reg.memWalkSel) 14 8 < 127) : exec (.walkDataWrite t f v) s = .next
    (((s.advance t).wakeDormant.stageWord Reg.memWalkSel 14 8 127 s.units.walk v).1.updUnits fun u =>
      { u with walk := ((s.advance t).wakeDormant.stageWord Reg.memWalkSel 14 8 127 s.units.walk v).2 }) := by
  refine ((if_neg (State.ownerCmd_owner hown)).trans (if_neg (Nat.ne_of_lt h))).trans ?_
  rw [State.wakeDormant_units]
  rfl

theorem exec_walkDataWrite_last (h : bitsW (s.reg Reg.memWalkSel) 14 8 = 127) (hfree : SMap.find s.units.walk.staged 127 = none) :
    exec (.walkDataWrite t f v) s = .next ((s.advance t).wakeDormant.updUnits fun u => { u with walk := { u.walk with staged := SMap.put u.walk.staged 127 v } }) :=
  ((if_neg (State.ownerCmd_owner hown)).trans (if_pos h)).trans (if_neg (by simp [hfree]))

theorem exec_walkDataWrite_past (h : bitsW (s.reg Reg.memWalkSel) 14 8 = 127) (hfull : SMap.find s.units.walk.staged 127 ≠ none) :
    exec (.walkDataWrite t f v) s = .next ((s.advance t).wakeDormant.updUnits fun u => { u with walk := { u.walk with overrun := true } }) :=
  ((if_neg (State.ownerCmd_owner hown)).trans (if_pos h)).trans (if_pos (by simpa [Option.isSome_iff_ne_none] using hfull))

theorem State.walkCommand_owner (content : Option (Except (Nat × Nat) Prog)) : (s.advance t).walkCommand f content = (s.advance t).wakeDormant.updUnits fun u =>
    { u with walk := if bitsW (s.reg Reg.memWalkSel) 5 0 < 16 then u.walk.fail 8 0 else
      u.walk.command (bitW (s.reg Reg.memLock) 0) ((s.listed 3).contains (bitsW (s.reg Reg.memWalkSel) 5 0)) (bitsW (s.reg Reg.memWalkSel) 5 0) content } :=
  if_neg (State.ownerCmd_owner hown)

theorem State.normCommand_owner (commit : Bool) : (s.advance t).normCommand f commit = (s.advance t).wakeDormant.updUnits fun u =>
    u.normAnswer (s.normRefusal (if commit then imageErr s.normImage else 0)) (bitsW (s.reg Reg.txtNormSel) 2 0)
      (if commit then some s.normImage else none) :=
  if_neg (State.ownerCmd_owner hown)

end Owner

/-! ### What the statement claims -/

section Writes

variable {t f : Nat} {v : Word} {s : State} (hown : s.ownerAt t f)
include hown

theorem mpDataWrite_past (h : 65 ≤ bitsW (s.reg Reg.sfuMpSel) 14 8) : Does (.mpDataWrite t f v) s t [.units, .power]
    (fun q => q.units = { s.units with mp := { s.units.mp with overrun := true } } ∧ q.regs = s.regs) := by
  have hexec := exec_mpDataWrite (v := v) hown
  rw [State.stageWord_past (by rwa [State.wakeDormant_reg])] at hexec
  exact does_updUnits hexec

theorem tblDataWrite_staged : Does (.tblDataWrite t f v) s t [.regs, .units, .power] (fun q =>
    q.units = { s.units with tbl := { s.units.tbl with staged := SMap.put s.units.tbl.staged (bitsW (s.reg Reg.sfuTblSel) 19 10) (v &&& 0xFFFFFFFF) } } ∧
    bitsW (q.reg Reg.sfuTblSel) 19 10 = (bitsW (s.reg Reg.sfuTblSel) 19 10 + 1) % 1024 ∧ s.regsBut q [Reg.sfuTblSel]) := by
  refine (does_setReg_updUnits (exec_tblDataWrite hown)).mono (fun _ ha => ha) fun q ⟨hunits, hsel, hbut⟩ => ⟨hunits, ?_, hbut⟩
  exact (congrArg (bitsW · 19 10) hsel).trans (bitsW_putBitsW_same _ _ (by omega) (by omega))

/-- Programs 0 to 15 stand in the firmware image: no command reaches them (log entry 24). -/
theorem walkCommand_refused (h : bitsW (s.reg Reg.memWalkSel) 5 0 < 16) {c : Instr} {content : Option (Except (Nat × Nat) Prog)}
    (hc : exec c s = .next ((s.advance t).walkCommand f content)) :
    Does c s t [.units, .power] (fun q => q.units = { s.units with walk := { s.units.walk with status := statusWord 3 8 0 } }) := by
  rw [State.walkCommand_owner hown] at hc
  refine (does_updUnits hc).mono (fun _ ha => ha) fun q ⟨hunits, _⟩ => hunits.trans ?_
  rw [if_pos h]
  rfl

theorem walkCommand_answered (h : 16 ≤ bitsW (s.reg Reg.memWalkSel) 5 0) {c : Instr} {content : Option (Except (Nat × Nat) Prog)}
    (hc : exec c s = .next ((s.advance t).walkCommand f content)) : Does c s t [.units, .power] (fun q =>
      s.units.walk.answered q.units.walk (bitW (s.reg Reg.memLock) 0) ((s.listed 3).contains (bitsW (s.reg Reg.memWalkSel) 5 0)) (bitsW (s.reg Reg.memWalkSel) 5 0) content ∧
      { q.units with walk := s.units.walk } = s.units) := by
  rw [State.walkCommand_owner hown] at hc
  simp only [if_neg (Nat.not_lt.2 h)] at hc
  exact does_command Units.walk (fun u l => { u with walk := l }) (fun _ _ => rfl) (fun _ _ => rfl) hc

theorem normCommand_answer (commit : Bool) {c : Instr} (hc : exec c s = .next ((s.advance t).normCommand f commit)) : Does c s t [.units, .power] (fun q => q.units =
    s.units.normAnswer (s.normRefusal (if commit then imageErr s.normImage else 0)) (bitsW (s.reg Reg.txtNormSel) 2 0) (if commit then some s.normImage else none)) := by
  rw [State.normCommand_owner hown] at hc
  exact (does_updUnits hc).mono (fun _ ha => ha) fun _ ⟨hunits, _⟩ => hunits

/-- A commit and a clear that the lock or a vocabulary refuses answer alike. -/
theorem normWrite_refused {e : Nat} (he : e ≠ 0) (h : ∀ err, s.normRefusal err = e) :
    ∀ c ∈ [Instr.normCommit t f, .normClear t f], Does c s t [.units, .power] (fun q => q.units = { s.units with normStatus := statusWord 3 e 0 }) := by
  have refused (commit : Bool) {c : Instr} (hc : exec c s = .next ((s.advance t).normCommand f commit)) :=
    (normCommand_answer hown commit hc).mono (fun _ ha => ha) fun q hq => hq.trans (by rw [h, Units.normAnswer_error he])
  exact List.forall_mem_cons.2 ⟨refused true rfl, List.forall_mem_singleton.2 (refused false rfl)⟩

section Free

variable (hlock : bitW (s.reg Reg.txtLock) 0 = false) (hfree : s.normUsed (bitsW (s.reg Reg.txtNormSel) 2 0) = false)
include hlock hfree

theorem normClear_held : Does (.normClear t f) s t [.units, .power]
    (fun q => q.units = { s.units with normStatus := 1, normPend := SMap.put s.units.normPend (bitsW (s.reg Reg.txtNormSel) 2 0) none }) :=
  (normCommand_answer hown false rfl).mono (fun _ ha => ha) fun _ hq => hq.trans (Units.normAnswer_held (State.normRefusal_free hlock hfree 0) _ _ _)

theorem normCommit_failed (he : imageErr s.normImage ≠ 0) : Does (.normCommit t f) s t [.units, .power]
    (fun q => q.units = { s.units with normStatus := statusWord 3 (imageErr s.normImage) 0 }) :=
  (normCommand_answer hown true rfl).mono (fun _ ha => ha) fun q hq => hq.trans (by rw [State.normRefusal_free hlock hfree, if_pos rfl, Units.normAnswer_error he])

theorem normCommit_held (he : imageErr s.normImage = 0) : Does (.normCommit t f) s t [.units, .power]
    (fun q => q.units = { s.units with normStatus := 1, normPend := SMap.put s.units.normPend (bitsW (s.reg Reg.txtNormSel) 2 0) (some s.normImage) }) :=
  (normCommand_answer hown true rfl).mono (fun _ ha => ha) fun q hq => hq.trans (by rw [State.normRefusal_free hlock hfree, if_pos rfl, Units.normAnswer_held he, if_pos rfl])

end Free

end Writes

/-- Settles O44: each write stages its word or overflows, each commit and clear runs `Loader.command` on its unit, and a normalisation slot's image is checked as
read, since the zeros that fill it change no field. That a table's index wraps and that programs 0 to 15 answer error 8 is log entry 24; that words stay staged after
a commit or a clear is log entry 60. -/
theorem loadableUnits : Obligations.LoadableUnits := by
  refine ⟨fun t f v s hown => ⟨?mpBelow, ?mpPast, tblDataWrite_staged hown, ?walkBelow, ?walkLast, ?walkPast⟩,
    fun t f s hown => ⟨?mpCommit, ?mpClear, ?tblCommit, ?tblClear, ?walk, ?walkFirmware, ?normLocked, ?normUsed, ?norm⟩⟩
  case mpBelow => exact fun hi => does_stageWord (fun u l => { u with mp := l }) (exec_mpDataWrite hown) hi (by decide)
  case mpPast => exact fun hi => (mpDataWrite_past hown hi).mono (by decide) fun _ hq => hq
  case walkBelow =>
    intro hk
    refine (does_stageWord (fun u l => { u with walk := l }) (exec_walkDataWrite_below hown hk) hk (by decide)).mono (fun _ ha => ha) ?_
    exact fun q ⟨hunits, hindex, _, hbut⟩ => ⟨hunits, hindex, hbut⟩
  case walkLast => exact fun hk hfree => (does_updUnits (exec_walkDataWrite_last hown hk hfree)).mono (by decide) fun _ hq => hq
  case walkPast => exact fun hk hfull => (does_updUnits (exec_walkDataWrite_past hown hk hfull)).mono (by decide) fun _ hq => hq
  case mpCommit => exact does_command Units.mp (fun u l => { u with mp := l }) (fun _ _ => rfl) (fun _ _ => rfl) (exec_mpCommit hown)
  case mpClear => exact does_command Units.mp (fun u l => { u with mp := l }) (fun _ _ => rfl) (fun _ _ => rfl) (exec_mpClear hown)
  case tblCommit => exact does_command Units.tbl (fun u l => { u with tbl := l }) (fun _ _ => rfl) (fun _ _ => rfl) (exec_tblCommit hown)
  case tblClear => exact does_command Units.tbl (fun u l => { u with tbl := l }) (fun _ _ => rfl) (fun _ _ => rfl) (exec_tblClear hown)
  case walk => exact fun hk => ⟨walkCommand_answered hown hk rfl, walkCommand_answered hown hk rfl⟩
  case walkFirmware => exact fun hk => List.forall_mem_cons.2 ⟨walkCommand_refused hown hk rfl, List.forall_mem_singleton.2 (walkCommand_refused hown hk rfl)⟩
  case normLocked => exact fun hlock => normWrite_refused hown (by decide) (State.normRefusal_locked hlock)
  case normUsed => exact fun hlock hused => normWrite_refused hown (by decide) (State.normRefusal_used hlock hused)
  case norm =>
    intro hlock hfree
    obtain ⟨hmagic, hle, hpassed⟩ := imageErr_checks s.normImage
    refine ⟨normClear_held hown hlock hfree, normCommit_failed hown hlock hfree, hmagic, hle, fun he => ?_⟩
    obtain ⟨hmin, hmax, hsecs⟩ := hpassed he
    exact ⟨hmin, hmax, hsecs, normCommit_held hown hlock hfree he⟩

end Machine

end Sys2Proof
end

section
/-! SUPPORT. The owner's writes of the memory registers: the counts of corrected and uncorrectable errors, pinned ways, pinned regions, pseudo-channel sets. -/

namespace Sys2Proof.Machine

open Sys2Proof

set_option Elab.async false

/-! ### The state in which the owner's write takes effect -/

/-- The arrival of a command and an exit from Dormant change the counter and the power block alone: whatever else is read of the state is as before. -/
theorem State.arrival_eq (s : State) (t : Nat) : ∃ n p, (s.advance t).wakeDormant = { s with newel := n, power := p } := by
  unfold State.wakeDormant
  split
  · exact ⟨_, _, rfl⟩
  · exact ⟨_, _, rfl⟩

theorem State.arrival_reg (s : State) (t o : Nat) : (s.advance t).wakeDormant.reg o = s.reg o := State.wakeDormant_reg _ o

theorem State.arrival_staged (s : State) (t : Nat) : (s.advance t).wakeDormant.staged = s.staged := State.wakeDormant_frame _ .staged (by decide)

theorem State.arrival_usedOn (s : State) (t i d : Nat) : (s.advance t).wakeDormant.usedOn i d = s.usedOn i d := by
  obtain ⟨n, p, h⟩ := s.arrival_eq t
  rw [h]
  rfl

theorem State.arrival_pinRefused (s : State) (t a v : Nat) : (s.advance t).wakeDormant.pinRefused a v = s.pinRefused a v := by
  obtain ⟨n, p, h⟩ := s.arrival_eq t
  rw [h]
  rfl

theorem State.arrival_regionBad (s : State) (t i : Nat) (w : Word) : (s.advance t).wakeDormant.regionBad i w = s.regionBad i w := by
  obtain ⟨n, p, h⟩ := s.arrival_eq t
  rw [h]
  rfl

/-- A frame without the registers leaves every register as it was. -/
theorem State.reg_frame {s q : State} {ks : List Area} (h : s.onlyIn q ks) (hregs : Area.regs ∉ ks) (hconfig : Area.config ∉ ks) (o : Nat) : q.reg o = s.reg o := by
  have hr : q.regs = s.regs := h _ hregs
  obtain ⟨hm, -⟩ := h _ hconfig
  rw [State.reg, hr, hm, State.reg]

/-- A command that may wake the module, and from there changes the areas of a frame. -/
theorem does_arrival {c : Instr} {s q : State} {t : Nat} {ks : List Area} {P : State → Prop} (h : exec c s = .next q)
    (hframe : (s.advance t).wakeDormant.onlyIn q ks) (hp : P q) : Does c s t (.power :: ks) P :=
  ⟨q, h, State.onlyIn_trans (State.onlyIn_mono (State.wakeDormant_frame _) (by simp)) (State.onlyIn_mono hframe fun _ ha => List.mem_cons_of_mem _ ha), hp⟩

/-- A command that may wake the module, and sets one register. -/
theorem does_arrival_setReg {c : Instr} {s : State} {t o : Nat} {w : Word} (h : exec c s = .next ((s.advance t).wakeDormant.setReg o w)) :
    Does c s t [.power, .regs] (fun q => q.reg o = w ∧ s.regsBut q [o] ∧ q.staged = s.staged) :=
  does_arrival h (State.setReg_frame _ o w)
    ⟨State.reg_setReg _ o w, fun j hj => (State.regsBut_setReg _ o w j hj).trans (s.arrival_reg t j), s.arrival_staged t⟩

theorem bitW_setBitW (v : Word) {b : Nat} (hb : b < 64) (i : Nat) : bitW (setBitW v b) i = (bitW v i || decide (i = b)) := by
  have hword : (((1 <<< b : Nat) : Word)).toNat = 2 ^ b := by
    rw [BitVec.natCast_eq_ofNat, BitVec.toNat_ofNat, Nat.one_shiftLeft, Nat.mod_eq_of_lt (Nat.pow_lt_pow_right (by decide) hb)]
  simp only [bitW, setBitW, BitVec.toNat_or, hword, Nat.testBit_or, Nat.testBit_two_pow, eq_comm]

/-- A command that may wake the module, and sets a bit of a status register. -/
theorem does_arrival_orReg {c : Instr} {s : State} {t o b : Nat} (hb : b < 64) (h : exec c s = .next ((s.advance t).wakeDormant.orReg o b)) :
    Does c s t [.power, .regs] (fun q => bitW (q.reg o) b = true ∧ s.regsBut q [o] ∧ q.staged = s.staged) := by
  refine (does_arrival_setReg h).mono (fun _ ha => ha) fun q ⟨hreg, hbut⟩ => ⟨?_, hbut⟩
  rw [hreg, bitW_setBitW _ hb]
  simp

/-! ### Error counts -/

/-- ECC_COUNT_CLEAR at one count (R118). -/
def State.zeroCount (v : Word) (s : State) (i : Nat) : State := if bitW v i then s.setReg (Reg.memEccCount i) 0 else s
/-- Its walk over the counts. -/
def State.zeroCounts (v : Word) (s : State) (is : List Nat) : State := is.foldl (State.zeroCount v) s

theorem memEccCount_inj {i j : Nat} (h : Reg.memEccCount i = Reg.memEccCount j) : i = j := by
  unfold Reg.memEccCount at h
  omega

theorem State.zeroCount_reg_set (s : State) {v : Word} {i : Nat} (h : bitW v i = true) : (s.zeroCount v i).reg (Reg.memEccCount i) = 0 := by
  rw [State.zeroCount, if_pos h, State.reg_setReg]

theorem State.zeroCount_reg_other (s : State) {v : Word} {i o : Nat} (h : bitW v i = true → o ≠ Reg.memEccCount i) : (s.zeroCount v i).reg o = s.reg o := by
  unfold State.zeroCount
  split
  next hi => exact State.regsBut_setReg s _ 0 o (by simpa using h hi)
  next => rfl

theorem State.zeroCounts_frame (v : Word) (s : State) (is : List Nat) : s.onlyIn (s.zeroCounts v is) [.regs] :=
  State.onlyIn_foldl (State.zeroCount v) (fun s i => State.onlyIn_ite _ (s.setReg_frame (Reg.memEccCount i) 0) (s.onlyIn_refl _)) is s

/-- A register that is no count of the walk keeps its value. -/
theorem State.zeroCounts_reg_other (v : Word) (s : State) (is : List Nat) {o : Nat} (h : ∀ i ∈ is, bitW v i = true → o ≠ Reg.memEccCount i) :
    (s.zeroCounts v is).reg o = s.reg o := by
  induction is generalizing s with
  | nil => rfl
  | cons i is ih => exact (ih (s.zeroCount v i) fun j hj => h j (List.mem_cons_of_mem i hj)).trans (s.zeroCount_reg_other (h i List.mem_cons_self))

/-- A count of the walk whose bit is set is 0 after it. -/
theorem State.zeroCounts_reg_set (v : Word) (s : State) (is : List Nat) {j : Nat} (hj : j ∈ is) (h : bitW v j = true) :
    (s.zeroCounts v is).reg (Reg.memEccCount j) = 0 := by
  induction is generalizing s with
  | nil => cases hj
  | cons i is ih =>
    by_cases hmem : j ∈ is
    · exact ih (s.zeroCount v i) hmem
    · obtain rfl : j = i := (List.mem_cons.1 hj).resolve_right hmem
      refine (State.zeroCounts_reg_other v (s.zeroCount v j) is fun i hi _ heq => hmem ?_).trans (s.zeroCount_reg_set h)
      exact memEccCount_inj heq ▸ hi

theorem State.zeroCounts_reg (v : Word) (s : State) {j : Nat} (hj : j < 8) :
    (s.zeroCounts v (List.range 8)).reg (Reg.memEccCount j) = if bitW v j then 0 else s.reg (Reg.memEccCount j) := by
  split
  next h => exact s.zeroCounts_reg_set v _ (List.mem_range.2 hj) h
  next h => exact s.zeroCounts_reg_other v _ fun i _ hi heq => h (memEccCount_inj heq ▸ hi)

theorem eccCountClear_clears {t f : Nat} {v : Word} {s : State} (hown : s.ownerAt t f) : Does (.eccCountClear t f v) s t [.power, .regs] (fun q =>
    (∀ j, j < 8 → q.reg (Reg.memEccCount j) = if bitW v j then 0 else s.reg (Reg.memEccCount j)) ∧
    s.regsBut q ((List.range 8).map Reg.memEccCount) ∧ q.staged = s.staged) := by
  have hexec : exec (.eccCountClear t f v) s = .next ((s.advance t).wakeDormant.zeroCounts v (List.range 8)) := if_neg (State.ownerCmd_owner hown)
  refine does_arrival hexec (State.zeroCounts_frame v _ _) ⟨fun j hj => ?counts, fun o ho => ?others, ?staged⟩
  case counts => rw [State.zeroCounts_reg v _ hj, State.arrival_reg]
  case others =>
    refine (State.zeroCounts_reg_other v _ _ fun i hi _ heq => ho ?_).trans (s.arrival_reg t o)
    exact List.mem_map.2 ⟨i, hi, heq.symm⟩
  case staged => exact (State.zeroCounts_frame v _ _ .staged (by decide)).trans (s.arrival_staged t)

/-! ### Pinned ways -/

theorem State.stage_frame (s : State) (o : Nat) (v : Word) : s.onlyIn (s.stage o v) [.staged] := by
  intro a h; cases a <;> first | exact absurd (by decide) h | exact ⟨rfl, rfl, rfl, rfl⟩ | rfl

/-! ### Regions -/

theorem State.regionWrite_frame (s : State) (i off : Nat) (d : Blob) : s.onlyIn (s.regionWrite i off d) [.hbm, .alc] :=
  State.onlyIn_trans (s.devWrite_frame _ d) (State.onlyIn_mono (State.setPinMem_frame _ _ _) (by decide))

theorem State.regionSync_frame (s : State) (i off : Nat) : s.onlyIn (s.regionSync i off) [.hbm, .alc] :=
  State.onlyIn_foldl (fun (s : State) (p : Nat × Blob) => s.regionWrite i (off + p.1) p.2) (fun s p => s.regionWrite_frame i (off + p.1) p.2) (s.regionImage i) s

theorem State.syncContent_frame (s : State) (content : Nat) : s.onlyIn (s.syncContent content) [.hbm, .alc] :=
  State.onlyIn_foldl (fun (s : State) i => s.regionSync i 0) (fun s i => s.regionSync_frame i 0) (s.regionsWith content) s

theorem State.staticWrite_frame (s : State) (content : Nat) : s.onlyIn (s.staticWrite content) [.hbm, .alc] :=
  State.onlyIn_ite _ (State.onlyIn_mono (s.updAlc_frame _) (by decide)) (s.syncContent_frame content)

/-- A region's content goes to its source copy and to its ways (R101). -/
theorem State.regionLoad_frame (s : State) (i : Nat) : s.onlyIn (s.regionLoad i) [.hbm, .alc] :=
  State.onlyIn_ite _ (s.staticWrite_frame _) (State.onlyIn_ite _ (s.regionSync_frame i _) (s.regionSync_frame i 0))

/-- The word that PIN_REGION_WRITE gives a region: ACTIVE_HALF stays while the region stays valid (R119). -/
def State.regionWord (s : State) (i : Nat) (v : Word) : Word :=
  let old := s.reg (Reg.memPinRegion i)
  (v &&& 0xFFFFFFFF00FFFF37) ||| (if bitW v 0 && bitW old 0 then old &&& 0x1000000 else 0)

/-! ### Writes of an unlocked block -/

section Unlocked

variable {t f i : Nat} {v : Word} {s : State} (hrwl : s.rwlAt t f Reg.memLock)
include hrwl

theorem State.rwlOk_memLock : (s.advance t).rwlOk f Reg.memLock = true := by
  obtain ⟨⟨hreach, howner⟩, hlock⟩ := hrwl
  have howner' : (s.advance t).isOwner f = true := howner
  have hlock' : bitW ((s.advance t).reg Reg.memLock) 0 = false := hlock
  simp [State.rwlOk, hreach, howner', hlock']

theorem exec_alcPinWrite (hi : i < s.member.alcoves) : exec (.alcPinWrite t f i v) s = .next (
    if s.pinRefused i (bitsW v 15 0) then (s.advance t).wakeDormant.orReg Reg.memStatus 0
    else (s.advance t).wakeDormant.stage (Reg.memAlcPin i) (BitVec.ofNat 64 (bitsW v 15 0))) := by
  refine (if_neg ?_).trans (by rw [State.arrival_pinRefused])
  simp [State.rwlOk_memLock hrwl, hi]

theorem exec_pinRegionWrite (hi : i < 32) : exec (.pinRegionWrite t f i v) s = .next (
    if bitW (s.regionWord i v) 0 && s.regionBad i (s.regionWord i v) then (s.advance t).wakeDormant.orReg Reg.memStatus 2
    else if bitW (s.regionWord i v) 0 then ((s.advance t).wakeDormant.setReg (Reg.memPinRegion i) (s.regionWord i v)).regionLoad i
    else (s.advance t).wakeDormant.setReg (Reg.memPinRegion i) (s.regionWord i v)) := by
  refine (if_neg ?_).trans (by rw [State.arrival_reg, State.arrival_regionBad]; rfl)
  simp [State.rwlOk_memLock hrwl, hi]

theorem alcPinWrite_held (hi : i < s.member.alcoves) (hok : s.pinRefused i (bitsW v 15 0) = false) : Does (.alcPinWrite t f i v) s t [.power, .staged] (fun q =>
    SMap.find q.staged (Reg.memAlcPin i) = some (BitVec.ofNat 64 (bitsW v 15 0)) ∧ SMap.but s.staged q.staged (Reg.memAlcPin i) ∧ q.regs = s.regs) := by
  have hexec := exec_alcPinWrite (v := v) hrwl hi
  rw [hok, if_neg Bool.false_ne_true] at hexec
  refine does_arrival hexec (State.stage_frame _ _ _) ⟨SMap.find_put_self _ _ _, fun j hj => ?others, State.wakeDormant_regs _⟩
  case others => exact (SMap.find_put_ne _ _ _ _ hj).trans (by rw [State.arrival_staged])

theorem alcPinWrite_refused (hi : i < s.member.alcoves) (hbad : s.pinRefused i (bitsW v 15 0) = true) : Does (.alcPinWrite t f i v) s t [.power, .regs] (fun q =>
    bitW (q.reg Reg.memStatus) 0 = true ∧ s.regsBut q [Reg.memStatus] ∧ q.staged = s.staged) :=
  does_arrival_orReg (by decide) ((exec_alcPinWrite hrwl hi).trans (by rw [if_pos hbad]))

theorem pinRegionWrite_refused (hi : i < 32) (hvalid : bitW (s.regionWord i v) 0 = true) (hbad : s.regionBad i (s.regionWord i v) = true) :
    Does (.pinRegionWrite t f i v) s t [.power, .regs] (fun q => bitW (q.reg Reg.memStatus) 2 = true ∧ s.regsBut q [Reg.memStatus] ∧ q.staged = s.staged) :=
  does_arrival_orReg (by decide) ((exec_pinRegionWrite hrwl hi).trans (by rw [hvalid, hbad]; rfl))

/-- A word without VALID gives the region no content (R119). -/
theorem pinRegionWrite_invalid (hi : i < 32) (hvalid : bitW (s.regionWord i v) 0 = false) : Does (.pinRegionWrite t f i v) s t [.power, .regs] (fun q =>
    q.reg (Reg.memPinRegion i) = s.regionWord i v ∧ s.regsBut q [Reg.memPinRegion i] ∧ q.staged = s.staged ∧ q.hbm = s.hbm ∧ q.alc = s.alc) := by
  have hexec := exec_pinRegionWrite (v := v) hrwl hi
  simp only [hvalid, Bool.false_and, Bool.false_eq_true, if_false] at hexec
  obtain ⟨q, hq, hframe, hreg, hbut, hstaged⟩ := does_arrival_setReg hexec
  exact ⟨q, hq, hframe, hreg, hbut, hstaged, hframe .hbm (by decide), hframe .alc (by decide)⟩

/-- An accepted word with VALID is written, and the region is loaded with its content. -/
theorem pinRegionWrite_valid (hi : i < 32) (hvalid : bitW (s.regionWord i v) 0 = true) (hok : s.regionBad i (s.regionWord i v) = false) :
    Does (.pinRegionWrite t f i v) s t [.power, .regs, .hbm, .alc] (fun q =>
      q.reg (Reg.memPinRegion i) = s.regionWord i v ∧ s.regsBut q [Reg.memPinRegion i] ∧ q.staged = s.staged) := by
  have hexec := exec_pinRegionWrite (v := v) hrwl hi
  simp only [hvalid, hok, Bool.and_false, Bool.false_eq_true, if_false, if_true] at hexec
  have hload := ((s.advance t).wakeDormant.setReg (Reg.memPinRegion i) (s.regionWord i v)).regionLoad_frame i
  have hreg (o : Nat) := State.reg_frame hload (by decide) (by decide) o
  refine does_arrival hexec ?frame ⟨(hreg _).trans (State.reg_setReg _ _ _), fun o ho => ?others, (hload .staged (by decide)).trans (s.arrival_staged t)⟩
  case frame => exact State.onlyIn_trans (State.onlyIn_mono (State.setReg_frame _ _ _) (by decide)) (State.onlyIn_mono hload (by decide))
  case others => exact (hreg o).trans ((State.regsBut_setReg _ _ _ o ho).trans (s.arrival_reg t o))

end Unlocked

/-! ### Pseudo-channel sets -/

/-- Another set holds one of the pseudo-channels that PC_SET_WRITE gives set i on die d (R102). -/
def State.setClash (s : State) (i d : Nat) (v : Word) : Bool :=
  (List.range 16).any fun k => k != i && (s.regN (Reg.memPcSet (8 * k + d)) &&& (v.toNat &&& dieChannels s.member d)) != 0

theorem State.setClash_iff (s : State) (i d : Nat) (v : Word) : s.setClash i d v = true ↔
    ∃ k, k < 16 ∧ k ≠ i ∧ (s.regN (Reg.memPcSet (8 * k + d)) &&& (v.toNat &&& dieChannels s.member d)) ≠ 0 := by
  simp only [State.setClash, List.any_eq_true, List.mem_range, Bool.and_eq_true, bne_iff_ne]

theorem State.arrival_setClash (s : State) (t i d : Nat) (v : Word) : (s.advance t).wakeDormant.setClash i d v = s.setClash i d v := by
  obtain ⟨n, p, h⟩ := s.arrival_eq t
  rw [h]
  rfl

section SetWrites

variable {t f i d : Nat} {v : Word} {s : State} (hrwl : s.rwlAt t f Reg.memLock) (hi : i < 16) (hd : d < s.member.halls)
include hrwl hi hd

theorem exec_pcSetWrite : exec (.pcSetWrite t f i d v) s = .next (
    if s.setClash i d v then (s.advance t).wakeDormant.orReg Reg.memStatus 1
    else if s.usedOn i d != 0 then (s.advance t).wakeDormant
    else (s.advance t).wakeDormant.setRegN (Reg.memPcSet (8 * i + d)) (v.toNat &&& dieChannels s.member d)) := by
  have hmember : (s.advance t).wakeDormant.member = s.member := by
    obtain ⟨n, p, h⟩ := s.arrival_eq t
    rw [h]
  have hreaches : ¬ (!(s.advance t).rwlOk f Reg.memLock || !decide (i < 16) || !decide (d < (s.advance t).member.halls)) = true := by
    simp [State.rwlOk_memLock hrwl, hi, hd]
  change execPcSetWrite t f i d v s = _
  unfold execPcSetWrite
  dsimp only
  rw [if_neg hreaches, hmember]
  have hclash := s.arrival_setClash t i d v
  rw [State.setClash, hmember] at hclash
  rw [hclash]
  cases s.setClash i d v with
  | true => rfl
  | false => simp [State.arrival_usedOn]

/-- A pseudo-channel that another set holds is reported (R102). -/
theorem pcSetWrite_clash (h : s.setClash i d v = true) : Does (.pcSetWrite t f i d v) s t [.power, .regs] (fun q =>
    bitW (q.reg Reg.memStatus) 1 = true ∧ s.regsBut q [Reg.memStatus] ∧ q.staged = s.staged) :=
  does_arrival_orReg (by decide) ((exec_pcSetWrite hrwl hi hd).trans (by rw [if_pos h]))

/-- A set that holds an allocation on the die keeps its pseudo-channels there (R102). -/
theorem pcSetWrite_holding (h : s.setClash i d v = false) (hused : s.usedOn i d ≠ 0) :
    Does (.pcSetWrite t f i d v) s t [.power] (fun q => q.regs = s.regs ∧ q.staged = s.staged) := by
  have hexec : exec (.pcSetWrite t f i d v) s = .next (s.advance t).wakeDormant := by
    rw [exec_pcSetWrite hrwl hi hd, h, if_neg Bool.false_ne_true, if_pos (bne_iff_ne.2 hused)]
  exact does_arrival hexec (State.onlyIn_refl _ []) ⟨State.wakeDormant_regs _, s.arrival_staged t⟩

theorem pcSetWrite_written (h : s.setClash i d v = false) (hfree : s.usedOn i d = 0) : Does (.pcSetWrite t f i d v) s t [.power, .regs] (fun q =>
    q.regN (Reg.memPcSet (8 * i + d)) = v.toNat &&& dieChannels s.member d ∧ s.regsBut q [Reg.memPcSet (8 * i + d)] ∧ q.staged = s.staged) := by
  have hexec : exec (.pcSetWrite t f i d v) s = .next ((s.advance t).wakeDormant.setReg (Reg.memPcSet (8 * i + d)) (BitVec.ofNat 64 (v.toNat &&& dieChannels s.member d))) := by
    rw [exec_pcSetWrite hrwl hi hd, h, if_neg Bool.false_ne_true, if_neg (by simp [hfree])]
    rfl
  refine (does_arrival_setReg hexec).mono (fun _ ha => ha) fun q ⟨hreg, hbut⟩ => ⟨?_, hbut⟩
  rw [State.regN, hreg, BitVec.toNat_ofNat, Nat.mod_eq_of_lt (Nat.lt_of_le_of_lt Nat.and_le_left v.isLt)]

end SetWrites

/-- Settles O45: a command that is taken wakes the module and writes what its rule names; one that is refused sets its bit of MEM_STATUS alone. A set that holds
an allocation on the die refuses a write with no bit (R102). -/
theorem memoryRegisters : Obligations.MemoryRegisters := by
  intro t f i d v s
  refine ⟨fun hown => (eccCountClear_clears hown).mono (by decide) fun _ hq => hq, fun hrwl hi => ⟨?pins, ?pinsRefused⟩,
    fun hrwl hi => ⟨?region, ?regionRefused⟩, fun hrwl hi hd => ⟨?clash, ?holding, ?written⟩⟩
  case pins => exact fun hok => (alcPinWrite_held hrwl hi hok).mono (by decide) fun _ hq => hq
  case pinsRefused => exact fun hbad => (alcPinWrite_refused hrwl hi hbad).mono (by decide) fun _ hq => hq
  case region =>
    intro h
    cases hvalid : bitW (s.regionWord i v) 0 with
    | false =>
      refine (pinRegionWrite_invalid hrwl hi hvalid).mono (by decide) ?_
      exact fun q ⟨hreg, hbut, hstaged, hsame⟩ => ⟨hreg, hbut, hstaged, fun _ => hsame⟩
    | true =>
      have hok : s.regionBad i (s.regionWord i v) = false := h.resolve_left fun hinvalid => Bool.false_ne_true (hinvalid.symm.trans hvalid)
      refine (pinRegionWrite_valid hrwl hi hvalid hok).mono (by decide) ?_
      exact fun q ⟨hreg, hbut, hstaged⟩ => ⟨hreg, hbut, hstaged, fun hinvalid => absurd (hinvalid.symm.trans hvalid) Bool.false_ne_true⟩
  case regionRefused => exact fun hvalid hbad => (pinRegionWrite_refused hrwl hi hvalid hbad).mono (by decide) fun _ hq => hq
  case clash => exact fun h => (pcSetWrite_clash hrwl hi hd ((s.setClash_iff i d v).2 h)).mono (by decide) fun _ hq => hq
  case holding =>
    intro h hused
    have hclash : s.setClash i d v = false := Bool.eq_false_iff.2 fun hc => h ((s.setClash_iff i d v).1 hc)
    exact (pcSetWrite_holding hrwl hi hd hclash hused).mono (by decide) fun _ hq => hq
  case written =>
    intro h hfree
    have hclash : s.setClash i d v = false := Bool.eq_false_iff.2 fun hc => h ((s.setClash_iff i d v).1 hc)
    exact (pcSetWrite_written hrwl hi hd hclash hfree).mono (by decide) fun _ hq => hq

end Sys2Proof.Machine
end

section
/-! SUPPORT. The Aperture: the owner's reads and writes of device memory. -/

namespace Sys2Proof.Machine

open Sys2Proof

set_option Elab.async false

/-! ### Device memory -/

theorem State.devWrite_hbm (s : State) (a : Nat) (d : Blob) : (s.devWrite a d).hbm = Memory.writeN s.hbm a (d.take (s.member.hbmBytes - a)) := by
  obtain ⟨x, h⟩ := s.devWrite_eq a d
  rw [h]

/-- A T2 write reaches the bytes of its stretch that lie in the HBM, and no others (R341). -/
theorem State.hbmOutside_devWrite (s : State) (a : Nat) (d : Blob) : s.hbmOutside (s.devWrite a d) [(a, min d.length (s.member.hbmBytes - a))] := by
  intro j hj
  have hout := hj _ List.mem_cons_self
  rw [s.devWrite_hbm, Memory.read_writeN_outside _ _ _ _ (by rwa [List.length_take, Nat.min_comm])]

/-- A T2 write that lies in the HBM reads back. -/
theorem State.readN_devWrite (s : State) (a : Nat) (d : Blob) (hwf : s.memWf = true) (h : a + d.length ≤ s.member.hbmBytes) :
    Memory.readN (s.devWrite a d).hbm a d.length = d := by
  simp only [State.memWf, Bool.and_eq_true] at hwf
  rw [s.devWrite_hbm, List.take_of_length_le (by omega), Memory.readN_writeN _ _ _ hwf.1]

theorem State.arrival_t2 (s : State) (t a n : Nat) : (s.advance t).wakeDormant.t2 a n = s.t2 a n := by
  obtain ⟨c, p, h⟩ := s.arrival_eq t
  rw [h]
  rfl

/-! ### Accesses of the owner -/

section Owner

variable {t f off len b : Nat} {d : List Byte} {s : State} (hown : s.ownerAt t f)
include hown

/-- Only a write or a read of the owner within the Aperture has an effect. -/
theorem State.aperture_owner {n : Nat} (h : n ≤ 2 ^ 36) : ((s.advance t).reach f && (s.advance t).isOwner f && decide (n ≤ 2 ^ 36)) = true := by
  obtain ⟨hreach, howner⟩ := hown
  have howner' : (s.advance t).isOwner f = true := howner
  rw [hreach, howner', decide_eq_true h]
  rfl

theorem exec_apertureWrite (h : off + d.length ≤ 2 ^ 36) : exec (.apertureWrite t f off d) s = .next ((s.advance t).wakeDormant.devWrite (s.aptAddr off) d) := by
  obtain ⟨c, p, harrival⟩ := s.arrival_eq t
  refine congrArg Host.Outcome.next ((if_pos (State.aperture_owner hown h)).trans ?_)
  rw [harrival]
  rfl

/-- The bytes of T2 that lie in the HBM, and then ones (R341). -/
theorem exec_apertureRead (h : off + len ≤ 2 ^ 36) : exec (.apertureRead t f off len none) s = .next ((s.advance t).wakeDormant.send
    (.aptData f off (some (s.t2 (s.aptAddr off) (min len (s.member.hbmBytes - s.aptAddr off)) ++
      List.replicate (len - min len (s.member.hbmBytes - s.aptAddr off)) 0xFF#8)))) := by
  have hpass : ¬ (!((s.advance t).reach f && (s.advance t).isOwner f && decide (off + len ≤ 2 ^ 36))) = true := by rw [State.aperture_owner hown h]; decide
  obtain ⟨c, p, harrival⟩ := s.arrival_eq t
  refine (if_neg hpass).trans ?_
  rw [harrival]
  rfl

/-- A line that cannot be corrected is answered by Completer Abort, and is recorded (R117). -/
theorem exec_apertureRead_bad (h : off + len ≤ 2 ^ 36) : exec (.apertureRead t f off len (some b)) s = .next
    (((s.advance t).wakeDormant.send (.aptData f off none)).emit { kind := 0x11, sev := 2, site := 8 + fnPort f, fn := some f, addr := b }) :=
  if_neg (by rw [State.aperture_owner hown h]; decide)

theorem apertureWrite_stores (h : off + d.length ≤ 2 ^ 36) : Does (.apertureWrite t f off d) s t [.power, .hbm, .alc] (fun q =>
    s.hbmOutside q [(s.aptAddr off, min d.length (s.member.hbmBytes - s.aptAddr off))] ∧
    (s.memWf = true → s.aptAddr off + d.length ≤ s.member.hbmBytes → Memory.readN q.hbm (s.aptAddr off) d.length = d)) := by
  refine does_arrival (exec_apertureWrite hown h) (State.devWrite_frame _ _ _) ?_
  obtain ⟨c, p, harrival⟩ := s.arrival_eq t
  rw [harrival]
  exact ⟨State.hbmOutside_devWrite { s with newel := c, power := p } _ d, fun hwf hin => State.readN_devWrite { s with newel := c, power := p } _ d hwf hin⟩

/-- A read that does not cross the end of the HBM answers what `bytes` says. -/
theorem apertureRead_answers (h : off + len ≤ 2 ^ 36) {bytes : Blob}
    (hbytes : s.t2 (s.aptAddr off) (min len (s.member.hbmBytes - s.aptAddr off)) ++ List.replicate (len - min len (s.member.hbmBytes - s.aptAddr off)) 0xFF#8 = bytes) :
    Does (.apertureRead t f off len none) s t [.power, .out] (fun q => q.out = .aptData f off (some bytes) :: s.out) := by
  refine does_arrival (exec_apertureRead hown h) (State.send_frame _ _) ?_
  have hout : (s.advance t).wakeDormant.out = s.out := State.wakeDormant_frame _ .out (by decide)
  rw [hbytes, State.send, hout]

theorem apertureRead_aborts (h : off + len ≤ 2 ^ 36) : Does (.apertureRead t f off len (some b)) s t (.power :: recAreas) (fun q =>
    s.sent q (.aptData f off none) ∧ s.recorded q) := by
  refine does_arrival (exec_apertureRead_bad hown h) ?frame ⟨?sent, ?recorded⟩
  case frame => exact State.onlyIn_trans (State.onlyIn_mono (State.send_frame _ _) (by decide)) (State.emit_frame _ _)
  case sent =>
    obtain ⟨l, hl, -⟩ := (State.evolves.emit (.refl ((s.advance t).wakeDormant.send (.aptData f off none)))).sent
    have hout : (s.advance t).wakeDormant.out = s.out := State.wakeDormant_frame _ .out (by decide)
    exact ⟨l ++ [.aptData f off none], by rw [hl, State.send, hout, List.append_assoc]; rfl, by simp⟩
  case recorded =>
    have hflt : (s.advance t).wakeDormant.flt = s.flt := State.wakeDormant_frame _ .flt (by decide)
    refine (State.emit_recorded _ _).trans ?_
    rw [State.send, hflt]

end Owner

/-- Settles O43: a write stores the part of its bytes that lies in the HBM; a read answers T2 inside it, ones beyond it, and for a line that cannot be corrected it
aborts and emits a record. -/
theorem apertureAccess : Obligations.ApertureAccess := by
  intro t f off len b d s hown
  refine ⟨fun h => (apertureWrite_stores hown h).mono (by decide) fun _ hq => hq, fun h hin => ?inside, fun h hout => ?beyond, fun h => apertureRead_aborts hown h⟩
  case inside =>
    have hall : min len (s.member.hbmBytes - s.aptAddr off) = len := Nat.min_eq_left (by unfold State.aptAddr; omega)
    exact (apertureRead_answers hown h (by rw [hall, Nat.sub_self, List.replicate_zero, List.append_nil]; rfl)).mono (by decide) fun _ hq => hq
  case beyond =>
    have hnone : min len (s.member.hbmBytes - s.aptAddr off) = 0 := by unfold State.aptAddr; omega
    exact (apertureRead_answers hown h (by rw [hnone]; rfl)).mono (by decide) fun _ hq => hq

end Sys2Proof.Machine
end

section
/-! SUPPORT. Patrol scrub: what an error record leaves of the fault block, and what a finding counts, records and retires. -/

namespace Sys2Proof.Machine

open Sys2Proof

set_option Elab.async false

/-! ### What an error record leaves -/

/-- What an error record leaves of registers and granules: all of them, but for the bit of FLT_STATUS that tells of a record that the log dropped (R451). -/
structure State.recordLeaves (s q : State) : Prop where
  granules : q.flt.granules = s.flt.granules
  retired  : q.flt.retired = s.flt.retired
  regs     : q.regs = s.regs ∨ q.regs = (s.orReg Reg.fltStatus 4).regs
  member   : q.member = s.member
  now      : q.now = s.now

theorem State.recordLeaves.of_frame {s u q : State} {ks : List Area} (h : s.onlyIn u ks) (hks : ∀ a ∈ [Area.flt, .regs, .config, .clock], a ∉ ks) (k : u.recordLeaves q) :
    s.recordLeaves q := by
  have hflt : u.flt = s.flt := h _ (hks .flt (by decide))
  have hregs : u.regs = s.regs := h _ (hks .regs (by decide))
  obtain ⟨hmember, -⟩ := h _ (hks .config (by decide))
  refine ⟨k.granules.trans (by rw [hflt]), k.retired.trans (by rw [hflt]), ?_, k.member.trans hmember, k.now.trans (h _ (hks .clock (by decide)))⟩
  have hstatus : (u.orReg Reg.fltStatus 4).regs = (s.orReg Reg.fltStatus 4).regs := by simp only [State.orReg, State.setReg, State.reg, hregs, hmember]
  exact k.regs.imp (·.trans hregs) (·.trans hstatus)

/-- The record goes to the error rings, and then to the log or to the count of dropped records. -/
theorem State.emit_leaves (s : State) (r : Rec) : s.recordLeaves (s.emit r) := by
  have hrings : s.onlyIn ((s.recTargets r).foldl (fun s' f => s'.recTo f r s.flt.seq ((s.logDecide r).1 == some true)) s) [.fns, .hostMem, .out] :=
    State.onlyIn_foldl _ (fun s' f => s'.recTo_frame f r s.flt.seq ((s.logDecide r).1 == some true)) (s.recTargets r) s
  refine State.recordLeaves.of_frame hrings (by decide) ?_
  unfold State.emit
  dsimp only
  generalize (s.recTargets r).foldl (fun s' f => s'.recTo f r s.flt.seq ((s.logDecide r).1 == some true)) s = u
  split
  next => split <;> exact ⟨rfl, rfl, .inl rfl, rfl, rfl⟩
  next => exact ⟨rfl, rfl, .inr rfl, rfl, rfl⟩
  next => exact ⟨rfl, rfl, .inl rfl, rfl, rfl⟩

section Leaves

variable {s q : State} (h : s.recordLeaves q)
include h

theorem State.recordLeaves.reg {o : Nat} (ho : o ≠ Reg.fltStatus) : q.reg o = s.reg o := by
  obtain hregs | hregs := h.regs
  · rw [State.reg, hregs, h.member, State.reg]
  · have hstatus : q.reg o = (s.orReg Reg.fltStatus 4).reg o := by rw [State.reg, hregs, h.member]; rfl
    exact hstatus.trans (State.regsBut_setReg s _ _ o (by simpa using ho))

/-- The bits of FLT_STATUS that stand before a record stand after it. -/
theorem State.recordLeaves.status {b : Nat} (hb : bitW (s.reg Reg.fltStatus) b = true) : bitW (q.reg Reg.fltStatus) b = true := by
  obtain hregs | hregs := h.regs
  · rwa [State.reg, hregs, h.member]
  · have hstatus : q.reg Reg.fltStatus = (s.orReg Reg.fltStatus 4).reg Reg.fltStatus := by rw [State.reg, hregs, h.member]; rfl
    rw [hstatus, State.orReg, State.reg_setReg, bitW_setBitW _ (by decide), hb, Bool.true_or]

theorem State.recordLeaves.inWindow (ts : List Nat) : q.inWindow ts = s.inWindow ts := by
  have hpolicy : q.reg Reg.fltPolicy = s.reg Reg.fltPolicy := h.reg (by decide)
  rw [State.inWindow, State.faultWindow, h.now, hpolicy, State.inWindow, State.faultWindow]

end Leaves

/-! ### Uncorrectable errors of the HBM -/

theorem State.granuleError_frame (s : State) (a : Nat) : s.onlyIn (s.granuleError a) recAreas := by
  have hflt (s : State) (x : Faults) : s.onlyIn { s with flt := x } recAreas := State.onlyIn_mono (s.setFlt_frame x) (by decide)
  unfold State.granuleError
  dsimp only
  split
  · exact State.onlyIn_trans (hflt s _) (State.onlyIn_trans (hflt _ _) (State.onlyIn_trans (State.onlyIn_mono (State.orReg_frame _ _ _) (by decide)) (State.emit_frame _ _)))
  · exact hflt s _

/-- An error of the HBM leaves the registers but FLT_STATUS as they are. -/
theorem State.granuleError_reg (s : State) (a : Nat) {o : Nat} (ho : o ≠ Reg.fltStatus) : (s.granuleError a).reg o = s.reg o := by
  unfold State.granuleError
  dsimp only
  split
  · exact ((State.emit_leaves _ _).reg ho).trans (State.regsBut_setReg _ _ _ o (by simpa using ho))
  · rfl

/-- The second error of a granule within the window retires it (R447). -/
theorem State.granuleError_retires (s : State) {a : Nat} (hsecond : s.inWindow (SMap.at s.flt.granules (a / 2097152) []) ≠ []) (hnew : a / 2097152 ∉ s.flt.retired) :
    a / 2097152 ∈ (s.granuleError a).flt.retired ∧ bitW ((s.granuleError a).reg Reg.fltStatus) 6 = true := by
  have htwo : 2 ≤ (s.now :: s.inWindow (SMap.at s.flt.granules (a / 2097152) [])).length := by
    have := List.length_pos_iff.2 hsecond
    rw [List.length_cons]
    omega
  have hretires : (decide (2 ≤ (s.now :: s.inWindow (SMap.at s.flt.granules (a / 2097152) [])).length) && !s.flt.retired.contains (a / 2097152)) = true := by
    simpa using ⟨by simpa using htwo, hnew⟩
  unfold State.granuleError
  dsimp only
  rw [if_pos hretires]
  refine ⟨by rw [(State.emit_leaves _ _).retired]; exact List.mem_cons_self, (State.emit_leaves _ _).status ?_⟩
  rw [State.orReg, State.reg_setReg, bitW_setBitW _ (by decide)]
  simp

/-! ### Findings -/

/-- The record of an uncorrectable error that the scrubber finds (R117): it names the site on which the store lies (R14). -/
def State.scrubRecord (s : State) (x : ScrubFinding) : Rec :=
  { kind := 0x03, sev := 2, site := if x.store = 4 then dieOfAddr s.member x.addr else x.site, addr := x.addr, detail := x.store }

theorem State.scrubOne_corrected (s : State) {x : ScrubFinding} (hc : x.corrected = true) (hs : x.store ≠ 2) :
    s.scrubOne x = s.satField (Reg.memEccCount (eccIndex x.store - 1)) 31 0 1 := by
  rw [State.scrubOne, if_pos hc, if_neg hs]

theorem State.scrubOne_uncorrectable (s : State) {x : ScrubFinding} (hc : x.corrected = false) (hs : x.store ≠ 4) :
    s.scrubOne x = (s.satField (Reg.memEccCount (eccIndex x.store)) 31 0 1).emit (s.scrubRecord x) :=
  (if_neg (by simp [hc])).trans (if_neg hs)

theorem State.scrubOne_hbm (s : State) {x : ScrubFinding} (hc : x.corrected = false) (hs : x.store = 4) :
    s.scrubOne x = ((s.satField (Reg.memEccCount (eccIndex x.store)) 31 0 1).emit (s.scrubRecord x)).granuleError x.addr :=
  (if_neg (by simp [hc])).trans (if_pos hs)

theorem State.scrubOne_frame (s : State) (x : ScrubFinding) : s.onlyIn (s.scrubOne x) recAreas := by
  have hcount (i : Nat) : s.onlyIn (s.satField (Reg.memEccCount i) 31 0 1) recAreas := State.onlyIn_mono (s.satField_frame _ _ _ _) (by decide)
  cases hc : x.corrected with
  | true =>
    rw [State.scrubOne, if_pos hc]
    exact State.onlyIn_ite _ (s.onlyIn_refl _) (hcount _)
  | false =>
    by_cases hs : x.store = 4
    · rw [s.scrubOne_hbm hc hs]
      exact State.onlyIn_trans (State.onlyIn_trans (hcount _) (State.emit_frame _ _)) (State.granuleError_frame _ _)
    · rw [s.scrubOne_uncorrectable hc hs]
      exact State.onlyIn_trans (hcount _) (State.emit_frame _ _)

/-- A count of MEM_ECC_COUNT saturates at 2^32 - 1 (R118). -/
theorem State.satField_count (s : State) (o : Nat) : bitsW ((s.satField o 31 0 1).reg o) 31 0 = min (2 ^ 32 - 1) (bitsW (s.reg o) 31 0 + 1) := by
  rw [State.satField, State.reg_setReg, bitsW_putBitsW_same _ _ (by decide) (by decide), satAdd]
  omega

theorem memEccCount_ne_fltStatus (i : Nat) : Reg.memEccCount i ≠ Reg.fltStatus := by
  unfold Reg.memEccCount Reg.fltStatus
  omega

/-- An uncorrectable error counts, whatever the store (R117). -/
theorem State.scrubOne_count (s : State) {x : ScrubFinding} (hc : x.corrected = false) :
    bitsW ((s.scrubOne x).reg (Reg.memEccCount (eccIndex x.store))) 31 0 = min (2 ^ 32 - 1) (bitsW (s.reg (Reg.memEccCount (eccIndex x.store))) 31 0 + 1) := by
  have ho := memEccCount_ne_fltStatus (eccIndex x.store)
  have hemit := ((s.satField (Reg.memEccCount (eccIndex x.store)) 31 0 1).emit_leaves (s.scrubRecord x)).reg ho
  rw [← s.satField_count, ← hemit]
  by_cases hs : x.store = 4
  · rw [s.scrubOne_hbm hc hs, State.granuleError_reg _ _ ho]
  · rw [s.scrubOne_uncorrectable hc hs]

/-- The second error that the scrubber finds in a granule within the window retires it (R447). -/
theorem State.scrubOne_retires (s : State) {x : ScrubFinding} (hc : x.corrected = false) (hs : x.store = 4)
    (hsecond : s.inWindow (SMap.at s.flt.granules (x.addr / 2097152) []) ≠ []) (hnew : x.addr / 2097152 ∉ s.flt.retired) :
    x.addr / 2097152 ∈ (s.scrubOne x).flt.retired ∧ bitW ((s.scrubOne x).reg Reg.fltStatus) 6 = true := by
  have hleaves := (s.satField (Reg.memEccCount (eccIndex x.store)) 31 0 1).emit_leaves (s.scrubRecord x)
  have hpolicy : (s.satField (Reg.memEccCount (eccIndex x.store)) 31 0 1).reg Reg.fltPolicy = s.reg Reg.fltPolicy :=
    State.regsBut_setReg s _ _ _ (by unfold Reg.memEccCount Reg.fltPolicy; simp only [List.mem_singleton]; omega)
  have hwindow (ts : List Nat) : (s.satField (Reg.memEccCount (eccIndex x.store)) 31 0 1).inWindow ts = s.inWindow ts := by
    rw [State.inWindow, State.faultWindow, hpolicy]
    rfl
  rw [s.scrubOne_hbm hc hs]
  refine State.granuleError_retires _ ?_ ?_
  · rw [hleaves.inWindow, hleaves.granules, hwindow]
    exact hsecond
  · rw [hleaves.retired]
    exact hnew

/-! ### PATROL_SCRUB -/

theorem exec_patrolScrub {t : Nat} {s : State} (hrun : s.running = true) (hawake : s.power.dormant = false) (xs : List ScrubFinding) :
    exec (.patrolScrub t xs) s = .next (xs.foldl State.scrubOne (s.advance t)) := by
  have hpass : ((s.advance t).running && !(s.advance t).power.dormant) = true := by
    have hrun' : (s.advance t).running = true := hrun
    rw [hrun', State.advance_power, hawake]
    rfl
  exact congrArg Host.Outcome.next (if_pos hpass)

/-- In Dormant scrubbing pauses (R472). -/
theorem exec_patrolScrub_dormant {t : Nat} {s : State} (hdormant : s.power.dormant = true) (xs : List ScrubFinding) :
    exec (.patrolScrub t xs) s = .next (s.advance t) :=
  congrArg Host.Outcome.next (if_neg (by simp [hdormant]))

/-- A command that arrives in the past of the counter finds the state as it is (log entry 2). -/
theorem State.advance_past {s : State} {t : Nat} (h : t ≤ s.now) : s.advance t = s := by
  have htime : max s.newel.time (min t s.newel.nextB) = s.newel.time := Nat.max_eq_left (Nat.le_trans (Nat.min_le_left _ _) h)
  rw [State.advance, htime]

/-- Settles O39: one finding counts in its store's register, and an uncorrectable one writes its record and passes through the granule's window. -/
theorem scrubbing : Obligations.Scrubbing := by
  intro t x rest s hrun
  refine ⟨?paused, fun hawake => ⟨_, exec_patrolScrub hrun hawake (x :: rest), ?frame, ?finding⟩⟩
  case paused =>
    rintro (hdormant | rfl)
    · exact ⟨_, exec_patrolScrub_dormant hdormant rest, State.onlyIn_refl _ _, rfl⟩
    · cases hd : s.power.dormant with
      | true => exact ⟨_, exec_patrolScrub_dormant hd [], State.onlyIn_refl _ _, rfl⟩
      | false => exact ⟨_, exec_patrolScrub hrun hd [], State.onlyIn_refl _ _, rfl⟩
  case frame => exact State.onlyIn_foldl _ State.scrubOne_frame (x :: rest) (s.advance t)
  case finding =>
    rintro rfl
    refine ⟨fun hc hs => ?corrected, fun hc => ⟨(s.advance t).scrubOne_count hc, fun hs => ?record⟩, ?retired⟩
    case corrected =>
      change bitsW (((s.advance t).scrubOne x).reg _) 31 0 = _ ∧ ((s.advance t).scrubOne x).flt = _
      rw [State.scrubOne_corrected _ hc hs]
      exact ⟨State.satField_count _ _, rfl⟩
    case record =>
      change s.recorded ((s.advance t).scrubOne x)
      rw [State.scrubOne_uncorrectable _ hc hs]
      exact State.emit_recorded _ _
    case retired =>
      rintro hc hs g rfl hsecond hnew hpast
      change _ ∈ ((s.advance t).scrubOne x).flt.retired ∧ bitW (((s.advance t).scrubOne x).reg _) 6 = true
      rw [State.advance_past hpast]
      exact s.scrubOne_retires hc hs hsecond hnew

end Sys2Proof.Machine
end

section
/-! SUPPORT. The filter of a retrieval. -/

namespace Sys2Proof.Machine

open Sys2Proof

/-- A condition that only a set flag asks for. -/
theorem unlessFlag_iff {flag cond : Bool} {P : Prop} (h : cond = true ↔ P) : (!flag || cond) = true ↔ flag = false ∨ P := by
  rw [Bool.or_eq_true, Bool.not_eq_true', h]

/-- Settles O60: both sides ask for the two conditions of R222, each under its flag alone. The field of RANGE is a remainder in the model and a mask in the rule. -/
theorem filterPasses : Obligations.FilterPasses := by
  intro d a filter range f
  have hfield : (a >>> Blob.u8 d 84) % 2 ^ Blob.u8 d 85 = f := (Nat.and_two_pow_sub_one_eq_mod _ _).symm
  have hfilter : ((a &&& Blob.u32 d 76) == Blob.u32 d 80) = true ↔ a &&& Blob.u32 d 76 = Blob.u32 d 80 := beq_iff_eq
  have hrange : (decide (Blob.u32 d 88 ≤ f) && decide (f ≤ Blob.u32 d 92)) = true ↔ Blob.u32 d 88 ≤ f ∧ f ≤ Blob.u32 d 92 := by
    rw [Bool.and_eq_true, decide_eq_true_iff, decide_eq_true_iff]
  rw [passes, hfield, Bool.and_eq_true]
  exact and_congr (unlessFlag_iff hfilter) (unlessFlag_iff hrange)

end Sys2Proof.Machine
end

section
/-! SUPPORT. Action 3 of a boundary: the refill of the tenants' budgets. -/

namespace Sys2Proof.Machine

open Sys2Proof

/-- What a refill cuts off above the burst; a commanded one cuts nothing (R293). -/
theorem Tenant.refillOne_cut (x : Tenant) : x.refillOne.2 = if x.refill then 0 else (x.own + bitsW x.rate 31 0 - bitsW x.rate 63 32).toNat := by
  unfold Tenant.refillOne
  split <;> rfl

/-- A refill sets a tenant's own budget and ends its command; it leaves the tenant's other fields. -/
theorem Tenant.refillOne_eq (x : Tenant) : x.refillOne.1 =
    { x with own := if x.refill then (bitsW x.rate 63 32 : Int) else min (bitsW x.rate 63 32 : Int) (x.own + bitsW x.rate 31 0), refill := false } := by
  cases h : x.refill with
  | true => simp [Tenant.refillOne, Tenant.burst, h]
  | false => simp [Tenant.refillOne, Tenant.burst, Tenant.rateN, h]

theorem State.eligible_iff (s : State) (k : Nat) : s.eligible k = true ↔ ∃ e ∈ s.reqs, e.2.peer = none ∧ Req.tenant e.2 = k := by
  simp only [State.eligible, List.any_eq_true, Bool.and_eq_true, Option.isNone_iff_eq_none, beq_iff_eq]

/-- What the refills of the enabled tenants cut off, which is shared as surplus. -/
def State.refillPool (s : State) : Nat := ((s.tenants.filter fun e => e.2.on).map fun e => e.2.refillOne.2).foldl (· + ·) 0

/-- The sum of the rates of the enabled tenants that are eligible for surplus. -/
def State.refillSum (s : State) : Nat := (((s.tenants.filter fun e => e.2.on).filter fun e => s.eligible e.1).map fun e => e.2.rateN).foldl (· + ·) 0

/-- A refill looks at each tenant alone, but for the pool of what was cut and the sum of the rates. -/
theorem State.refill_find {s : State} {k : Nat} {x : Tenant} (h : SMap.find s.tenants k = some x) : SMap.find s.refill.tenants k = some
    (if x.on then { x.refillOne.1 with surplus := if s.eligible k && s.refillSum != 0 then s.refillPool * x.rateN / s.refillSum else 0 } else x) := by
  unfold State.refill
  rw [SMap.find_mapVals, h]
  rfl

/-- Settles O23: a tenant's refill and its share of the pool. That a request in a slot makes its tenant eligible is log entry 39. -/
theorem budgetRefill : Obligations.BudgetRefill := by
  intro s k x hx overrun on pool sum
  have hpool : s.refillPool = pool := by
    simp only [State.refillPool, Tenant.refillOne_cut]
    rfl
  have hfind := State.refill_find hx
  rw [hpool, Tenant.refillOne_eq] at hfind
  cases hon : bitW x.cfg 0 with
  | false => exact ⟨x, by rw [hfind, Tenant.on, hon]; rfl, rfl, rfl, rfl, rfl, fun _ => rfl, nofun, s.eligible_iff k⟩
  | true =>
    rw [Tenant.on, hon, if_pos rfl] at hfind
    have hshare : (s.eligible k && s.refillSum != 0) = true ↔ s.eligible k = true ∧ sum ≠ 0 := by
      rw [Bool.and_eq_true, bne_iff_ne]
      rfl
    exact ⟨_, hfind, rfl, rfl, rfl, rfl, nofun, fun _ => ⟨rfl, rfl, ite_congr (propext hshare) (fun _ => rfl) fun _ => rfl⟩, s.eligible_iff k⟩

end Sys2Proof.Machine
end

section
/-! SUPPORT. DOORBELL_WRITE: the statement fails in a state that lists an admission slot twice; what holds of a doorbell in every state, and where each slot is
listed once. -/

namespace Sys2Proof.Machine

open Sys2Proof

set_option Elab.async false

/-! ### Rings after a write -/

theorem State.fnOf_updFn_self (s : State) (f : Nat) (g : Fn → Fn) : (s.updFn f g).fnOf f = g (s.fnOf f) := SMap.at_put_self _ _ _ _

theorem State.fnOf_updFn_ne (s : State) {f j : Nat} (g : Fn → Fn) (h : j ≠ f) : (s.updFn f g).fnOf j = s.fnOf j := SMap.at_put_ne _ _ _ _ _ h

theorem State.ring_setRing_self (s : State) (f n : Nat) (r : Ring) : (s.setRing f n r).ring f n = r := by
  rw [State.ring, State.setRing, State.fnOf_updFn_self]
  exact SMap.at_put_self _ _ _ _

theorem State.ring_setRing_ne (s : State) {f g n m : Nat} (r : Ring) (h : (g, m) ≠ (f, n)) : (s.setRing f n r).ring g m = s.ring g m := by
  by_cases hg : g = f
  · subst hg
    rw [State.ring, State.setRing, State.fnOf_updFn_self]
    exact SMap.at_put_ne _ _ _ _ _ fun hm => h (by rw [hm])
  · rw [State.ring, State.setRing, State.fnOf_updFn_ne _ _ hg]
    rfl

theorem State.fnOf_congr {s q : State} (h : q.fns = s.fns) (f : Nat) : q.fnOf f = s.fnOf f := by
  rw [State.fnOf, h]
  rfl

theorem State.ring_congr {s q : State} (h : q.fns = s.fns) (f n : Nat) : q.ring f n = s.ring f n := by
  rw [State.ring, State.fnOf_congr h]
  rfl

theorem State.publish_frame (s : State) (f : Nat) (pub : List HostPub) : s.onlyIn (s.publish f pub) [.hostMem] := by
  unfold State.publish
  dsimp only
  split
  · exact s.onlyIn_refl _
  · intro a h; cases a <;> first | exact absurd (by decide) h | exact ⟨rfl, rfl, rfl, rfl⟩ | rfl

/-! ### Records that wait -/

/-- What the flush of waiting records may change; it moves no ring's host index. -/
structure State.flushed (s q : State) : Prop where
  frame : s.onlyIn q [.hostMem, .fns, .out, .reqs]
  hosts : ∀ f n, (q.ring f n).host = (s.ring f n).host

section Operations

variable {s q : State} (h : s.flushed q)
include h

theorem State.flushed.trans {r : State} (k : q.flushed r) : s.flushed r :=
  ⟨State.onlyIn_trans h.frame k.frame, fun f n => (k.hosts f n).trans (h.hosts f n)⟩

theorem State.flushed.ite {c : Prop} {_ : Decidable c} {r : State} (k : s.flushed r) : s.flushed (if c then q else r) := by
  split <;> assumption

/-- An operation that leaves the functions. -/
theorem State.flushed.aside {r : State} {ks : List Area} (k : q.onlyIn r ks) (hfns : Area.fns ∉ ks) (hks : ∀ a ∈ ks, a ∈ [Area.hostMem, .fns, .out, .reqs]) :
    s.flushed r :=
  h.trans ⟨State.onlyIn_mono k hks, fun f n => congrArg Ring.host (State.ring_congr (k _ hfns) f n)⟩

theorem State.flushed.setReq {slot : Nat} {r : Req} : s.flushed (q.setReq slot r) := h.aside (q.setReq_frame slot r) (by decide) (by decide)

theorem State.flushed.hostWrite {f a : Nat} {d : Blob} {relaxed : Bool} : s.flushed (q.hostWrite f a d relaxed) :=
  h.aside (q.hostWrite_frame f a d relaxed) (by decide) (by decide)

theorem State.flushed.send {m : OutMsg} : s.flushed (q.send m) := h.aside (q.send_frame m) (by decide) (by decide)

theorem State.flushed.setRing {f n : Nat} {r : Ring} (hr : r.host = (q.ring f n).host) : s.flushed (q.setRing f n r) := by
  refine h.trans ⟨State.onlyIn_mono (q.setRing_frame f n r) (by decide), fun g m => ?_⟩
  by_cases hg : (g, m) = (f, n)
  · obtain ⟨rfl, rfl⟩ := Prod.mk.inj hg
    rw [State.ring_setRing_self, hr]
  · rw [State.ring_setRing_ne _ _ hg]

theorem State.flushed.setVec {f v : Nat} {x : Vec} : s.flushed (q.setVec f v x) := by
  refine h.trans ⟨State.onlyIn_mono (q.setVec_frame f v x) (by decide), fun g m => ?_⟩
  by_cases hg : g = f
  · subst hg
    rw [State.ring, State.setVec, State.fnOf_updFn_self]
    rfl
  · rw [State.ring, State.setVec, State.fnOf_updFn_ne _ _ hg]
    rfl

theorem State.flushed.ringAdvance {f n : Nat} : s.flushed (q.ringAdvance f n) := by
  have hring (d : Nat) (p : Bool) : s.flushed (q.setRing f n { q.ring f n with dev := d, phase := p }) := h.setRing rfl
  exact .ite (hring _ _) (hring _ _).hostWrite

theorem State.flushed.ringPut {f n : Nat} {e : Blob} : s.flushed (q.ringPut f n e) := h.hostWrite.ringAdvance

theorem State.flushed.sendVec {f v : Nat} : s.flushed (q.sendVec f v) := .ite h.setVec h.setVec.send

theorem State.flushed.countEvent {f v : Nat} : s.flushed (q.countEvent f v) := .ite h (.ite h.setVec.sendVec h.setVec)

theorem State.flushed.streamFlush {k slot : Nat} : s.flushed (State.streamFlush k q slot) := by
  induction k generalizing q with
  | zero => exact h
  | succ k ih =>
    unfold State.streamFlush
    split
    · exact h
    · split
      · exact .ite h (ih (.ite h.ringPut.setReq.countEvent h.ringPut.setReq))
      · exact h

end Operations

/-- The records that wait for a ring, written to it in slot order (R306). -/
def State.flushRing (s : State) (f n : Nat) : State :=
  (s.streamUsers f n).foldl (fun s slot => State.streamFlush (match s.req? slot with | some q => q.stream.waiting.length | none => 0) s slot) s

theorem State.flushRing_flushed (s : State) (f n : Nat) : s.flushed (s.flushRing f n) :=
  List.foldlRecOn (motive := s.flushed) _ _ ⟨s.onlyIn_refl _, fun _ _ => rfl⟩ fun _ h _ _ => h.streamFlush

/-- A request that streams to no enabled stream ring has no record to write. -/
theorem State.streamFlush_idle {s : State} {slot : Nat} {r : Req} (hr : s.req? slot = some r) (h : s.streamOf r = none) (k : Nat) : State.streamFlush k s slot = s := by
  cases k with
  | zero => rfl
  | succ k => simp only [State.streamFlush, hr, h]

/-- Where each slot is listed once, nothing waits for a ring that is no stream ring. -/
theorem State.flushRing_idle {s : State} {f n : Nat} (hslots : ∀ e ∈ s.reqs, s.req? e.1 = some e.2) (hkind : (s.ring f n).kind ≠ 3) : s.flushRing f n = s := by
  refine List.foldlRecOn (motive := (· = s)) _ _ rfl fun q hq slot hslot => ?_
  subst hq
  simp only [State.streamUsers, SMap.keysOf, List.mem_map, List.mem_filter, Bool.and_eq_true, beq_iff_eq] at hslot
  obtain ⟨e, ⟨he, hf, hn⟩, rfl⟩ := hslot
  refine State.streamFlush_idle (hslots e he) ?_ _
  simp only [State.streamOf, hn, hf, Ring.live, beq_eq_false_iff_ne.2 hkind, Bool.and_false]
  rfl

/-! ### What holds of a doorbell -/

/-- The state that a doorbell of function f finds: what its host has made visible stands in the host memory (R348). -/
abbrev State.rung (s : State) (t f : Nat) (pub : List HostPub) : State := (s.advance t).publish f pub

/-- A doorbell of ring n that none of R347's conditions turns away. -/
structure State.validDoorbell (s : State) (f n : Nat) (v : Word) : Prop where
  ring    : n < 64
  reach   : s.reach f = true
  noFlr   : s.inFlr f = false
  proc    : (s.proc (fnPort f)).state ≠ 3
  enabled : (s.ring f n).en = true
  number  : bitsW v 21 16 = n
  rest    : bitsW v 63 22 = 0
  forward : (s.ring f n).forward (bitsW v 15 0) = true

/-- The ring after a valid doorbell. -/
def State.ringRung (s : State) (f n : Nat) (v : Word) : Ring := { s.ring f n with host := bitsW v 15 0 }

theorem exec_doorbellWrite {t f off size : Nat} {v : Word} {pub : List HostPub} {s : State} (h : (s.rung t f pub).reach f = true) :
    exec (.doorbellWrite t f off size v pub) s = .next ((s.rung t f pub).doorbell f off size v) := by
  change Host.Outcome.next _ = _
  rw [if_pos h]

theorem State.doorbellErr_valid {s : State} {f n : Nat} {v : Word} (h : s.validDoorbell f n v) : s.doorbellErr f (0x40 * n) 8 v = 0 := by
  have hdiv : 0x40 * n / 0x40 = n := Nat.mul_div_cancel_left n (by decide)
  obtain ⟨hring, -, hflr, hproc, hen, hnumber, hrest, hforward⟩ := h
  have hstate : ((s.proc (fnPort f)).state == 3) = false := beq_eq_false_iff_ne.2 hproc
  have hpast : decide (64 ≤ n) = false := decide_eq_false (Nat.not_le.2 hring)
  simp only [State.doorbellErr, hdiv, Nat.mul_mod_right, hnumber, hrest, hen, hpast, hstate, hforward, hflr, bne_self_eq_false, Bool.not_true, Bool.or_false,
    Bool.and_false, b2n, Bool.false_eq_true, if_false]

/-- The four bits of RING_STATUS that a doorbell can set, each under its own condition. -/
theorem testBit_b2n_sum : ∀ a b c d : Bool, (b2n a + 2 * b2n b + 4 * b2n c + 64 * b2n d).testBit 0 = a ∧ (b2n a + 2 * b2n b + 4 * b2n c + 64 * b2n d).testBit 1 = b ∧
    (b2n a + 2 * b2n b + 4 * b2n c + 64 * b2n d).testBit 2 = c ∧ (b2n a + 2 * b2n b + 4 * b2n c + 64 * b2n d).testBit 6 = d := by
  decide

/-- The bits of RING_STATUS that a doorbell is ignored with: 0 for its width or offset, 1 for a number, reserved bits, a disabled ring or a failed processor, 2 for an
index out of range, 6 for a function-level reset (R347, R381, R429; several at once are log entry 14). -/
theorem State.doorbellErr_testBit (s : State) (f off size : Nat) (v : Word) :
    (s.doorbellErr f off size v).testBit 0 = (size != 8 || off % 0x40 != 0) ∧
    (s.doorbellErr f off size v).testBit 1 =
      (bitsW v 21 16 != off / 0x40 || bitsW v 63 22 != 0 || !(s.ring f (off / 0x40)).en || decide (64 ≤ off / 0x40) || (s.proc (fnPort f)).state == 3) ∧
    (s.doorbellErr f off size v).testBit 2 = ((s.ring f (off / 0x40)).en && decide (off / 0x40 < 64) && !(s.ring f (off / 0x40)).forward (bitsW v 15 0)) ∧
    (s.doorbellErr f off size v).testBit 6 = s.inFlr f :=
  testBit_b2n_sum _ _ _ _

/-- A valid doorbell replaces the host index, flushes the records that wait for the ring, and wakes the module where the ring is a submission ring. -/
theorem State.doorbell_valid {s : State} {f n : Nat} {v : Word} (h : s.validDoorbell f n v) : s.doorbell f (0x40 * n) 8 v =
    if (s.ring f n).kind = 1 then ((s.setRing f n (s.ringRung f n v)).flushRing f n).wakeDormant else (s.setRing f n (s.ringRung f n v)).flushRing f n := by
  have hdiv : 0x40 * n / 0x40 = n := Nat.mul_div_cancel_left n (by decide)
  simp only [State.doorbell, State.doorbellErr_valid h, hdiv]
  rfl

/-- Where each slot is listed once, no record is flushed by a doorbell of a ring that is no stream ring. -/
theorem State.doorbell_quiet {s : State} {f n : Nat} {v : Word} (h : s.validDoorbell f n v) (hslots : ∀ e ∈ s.reqs, s.req? e.1 = some e.2)
    (hkind : (s.ring f n).kind ≠ 3) : s.doorbell f (0x40 * n) 8 v =
      if (s.ring f n).kind = 1 then (s.setRing f n (s.ringRung f n v)).wakeDormant else s.setRing f n (s.ringRung f n v) := by
  have hidle : (s.setRing f n (s.ringRung f n v)).flushRing f n = s.setRing f n (s.ringRung f n v) :=
    State.flushRing_idle hslots (by rw [State.ring_setRing_self]; exact hkind)
  rw [State.doorbell_valid h, hidle]

/-- A write of one ring, and of the power block after it, leaves all else of the functions and the host memory. -/
theorem State.setRing_ringsOnly (s : State) (f n : Nat) (r : Ring) {q : State} (h : (s.setRing f n r).onlyIn q [.power]) :
    q.ring f n = r ∧ (∀ m, m ≠ n → q.ring f m = s.ring f m) ∧ s.ringsOnly q f ∧ q.hostMem = s.hostMem := by
  have hfns : q.fns = (s.setRing f n r).fns := h .fns (by decide)
  refine ⟨(State.ring_congr hfns f n).trans (State.ring_setRing_self s f n r), fun m hm => ?_, ⟨fun j hj => ?_, ?_⟩, h .hostMem (by decide)⟩
  · exact (State.ring_congr hfns f m).trans (State.ring_setRing_ne s r fun he => hm (Prod.mk.inj he).2)
  · rw [hfns]
    exact SMap.find_put_ne _ _ _ _ hj
  · rw [State.fnOf_congr hfns, State.setRing, State.fnOf_updFn_self]

/-- An exit from Dormant starts at the time of the traffic that asks for it (R473). -/
theorem State.wakeDormant_waking {s : State} (hdormant : s.power.dormant = true) (hasleep : s.power.waking = none) : s.wakeDormant.power.waking = some s.now := by
  simp [State.wakeDormant, hdormant, hasleep]

theorem State.doorbell_ignored {s : State} {f off size : Nat} {v : Word} (h : s.doorbellErr f off size v ≠ 0) : s.doorbell f off size v =
    s.updFn f fun x => { x with status := x.status ||| BitVec.ofNat 64 (s.doorbellErr f off size v), dbErrors := satAdd 32 x.dbErrors 1 } :=
  if_pos (bne_iff_ne.2 h)

section Doorbells

variable {t f n : Nat} {v : Word} {pub : List HostPub} {s : State}

theorem State.rung_frame : (s.advance t).onlyIn (s.rung t f pub) [.hostMem] := State.publish_frame _ f pub

theorem State.rung_fns : (s.rung t f pub).fns = s.fns := State.rung_frame (t := t) (f := f) (pub := pub) .fns (by decide)

/-- A valid doorbell of any ring replaces its host index by INDEX (R346). -/
theorem doorbellWrite_replaces (h : (s.rung t f pub).validDoorbell f n v) :
    Does (.doorbellWrite t f (0x40 * n) 8 v pub) s t [.hostMem, .fns, .power, .out, .reqs] (fun q => (q.ring f n).host = bitsW v 15 0) := by
  have hset := State.setRing_frame (s.rung t f pub) f n ((s.rung t f pub).ringRung f n v)
  have hflush := State.flushRing_flushed ((s.rung t f pub).setRing f n ((s.rung t f pub).ringRung f n v)) f n
  have hframe := State.onlyIn_trans (State.onlyIn_mono State.rung_frame (by decide))
    (State.onlyIn_trans (State.onlyIn_mono hset (by decide)) (State.onlyIn_mono (ls := [.hostMem, .fns, .power, .out, .reqs]) hflush.frame (by decide)))
  have hhost := (hflush.hosts f n).trans (congrArg Ring.host (State.ring_setRing_self _ f n _))
  refine ⟨_, exec_doorbellWrite h.reach, ?_⟩
  rw [State.doorbell_valid h]
  split
  · refine ⟨State.onlyIn_trans hframe (State.onlyIn_mono (State.wakeDormant_frame _) (by decide)), ?_⟩
    exact (congrArg Ring.host (State.ring_congr (State.wakeDormant_frame _ .fns (by decide)) f n)).trans hhost
  · exact ⟨hframe, hhost⟩

/-- Where each slot is listed once, a valid doorbell of a ring that is no stream ring changes nothing else but what the host published and, for a submission ring, an
exit from Dormant. -/
theorem doorbellWrite_replacesOnly (hslots : ∀ e ∈ s.reqs, s.req? e.1 = some e.2) (h : (s.rung t f pub).validDoorbell f n v) (hkind : ((s.rung t f pub).ring f n).kind ≠ 3) :
    Does (.doorbellWrite t f (0x40 * n) 8 v pub) s t [.hostMem, .fns, .power] (fun q =>
      q.ring f n = (s.rung t f pub).ringRung f n v ∧ (∀ m, m ≠ n → q.ring f m = s.ring f m) ∧ (s.rung t f pub).ringsOnly q f ∧ q.hostMem = (s.rung t f pub).hostMem ∧
      (((s.rung t f pub).ring f n).kind ≠ 1 → q.power = s.power) ∧
      (((s.rung t f pub).ring f n).kind = 1 → s.power.dormant = true → s.power.waking = none → q.power.waking = some (s.rung t f pub).now)) := by
  have hring (m : Nat) : (s.rung t f pub).ring f m = s.ring f m := State.ring_congr State.rung_fns f m
  have hreqs : (s.rung t f pub).reqs = s.reqs := State.rung_frame .reqs (by decide)
  have hpower : (s.rung t f pub).power = s.power := State.rung_frame .power (by decide)
  have hfound : ∀ e ∈ (s.rung t f pub).reqs, (s.rung t f pub).req? e.1 = some e.2 :=
    fun e he => (congrArg (SMap.find · e.1) hreqs).trans (hslots e (hreqs ▸ he))
  have hset := State.onlyIn_trans (State.onlyIn_mono (ls := [.hostMem, .fns, .power]) State.rung_frame (by decide))
    (State.onlyIn_mono (State.setRing_frame (s.rung t f pub) f n ((s.rung t f pub).ringRung f n v)) (by decide))
  have hwake := State.wakeDormant_frame ((s.rung t f pub).setRing f n ((s.rung t f pub).ringRung f n v))
  refine ⟨_, exec_doorbellWrite h.reach, ?_⟩
  rw [State.doorbell_quiet h hfound hkind]
  split
  next hsub =>
    obtain ⟨hone, hothers, honly, hmem⟩ := State.setRing_ringsOnly _ f n _ hwake
    refine ⟨State.onlyIn_trans hset (State.onlyIn_mono hwake (by decide)), hone, fun m hm => (hothers m hm).trans (hring m), honly, hmem, absurd hsub, ?_⟩
    exact fun _ hdormant hasleep => State.wakeDormant_waking (hpower ▸ hdormant) (hpower ▸ hasleep)
  next hsub =>
    obtain ⟨hone, hothers, honly, hmem⟩ := State.setRing_ringsOnly _ f n _ (State.onlyIn_refl _ _)
    exact ⟨hset, hone, fun m hm => (hothers m hm).trans (hring m), honly, hmem, fun _ => hpower, fun hone => absurd hone hsub⟩

/-- A doorbell that one of R347's conditions turns away sets the conditions' bits in RING_STATUS and counts once (R347, R381). -/
theorem doorbellWrite_ignored {off size : Nat} (hreach : (s.rung t f pub).reach f = true) (h : (s.rung t f pub).doorbellErr f off size v ≠ 0) :
    Does (.doorbellWrite t f off size v pub) s t [.hostMem, .fns] (fun q =>
      q.fnOf f = { s.fnOf f with status := (s.fnOf f).status ||| BitVec.ofNat 64 ((s.rung t f pub).doorbellErr f off size v)
                                 dbErrors := min (2 ^ 32 - 1) ((s.fnOf f).dbErrors + 1) } ∧
      SMap.but s.fns q.fns f ∧ q.hostMem = (s.rung t f pub).hostMem) := by
  refine ⟨_, exec_doorbellWrite hreach, ?_⟩
  rw [State.doorbell_ignored h]
  refine ⟨State.onlyIn_trans (State.onlyIn_mono State.rung_frame (by decide)) (State.onlyIn_mono (State.updFn_frame _ f _) (by decide)), ?_, fun j hj => ?_, rfl⟩
  · rw [State.fnOf_updFn_self, State.fnOf_congr State.rung_fns]
    rfl
  · exact (SMap.find_put_ne _ _ _ _ hj).trans (by rw [State.rung_fns])

end Doorbells

/-! ### The counterexample -/

/-- A GENERATE of function 0 with STREAM to ring n (R305), with records that wait. -/
def streamerTo (n : Nat) (waiting : List Blob) : Req := { desc := [3, 2] ++ zeros 54 ++ leBytes 4 n, stream := { waiting := waiting } }

/-- The owner's link is up; function 0 has a submission ring 0 and a stream ring 1 of 16 elements. Slot 0 is listed twice, though every write of a slot replaces its
entry: the first entry streams to ring 1, and the second, which no read of the slot finds, to ring 0. -/
def slotTwice : State := { State.reset with
  power := { phase := .up }
  ports := [(0, { linkUp := true })]
  fns := [(0, { rings := [(0, { cfg := 0x43 }), (1, { cfg := 0x47 })] })]
  reqs := [(0, streamerTo 1 [zeros 64]), (0, streamerTo 0 [])] }

/-- The doorbell of ring 0 takes the hidden entry for a request of its own, and flushes the one that is found: a record goes to ring 1. -/
theorem slotTwice_flushes : (((slotTwice.rung 0 0 []).doorbell 0 0 8 0).ring 0 1).dev = 1 := by decide +kernel

theorem slotTwice_valid : (slotTwice.rung 0 0 []).validDoorbell 0 0 0 := by
  constructor <;> decide +kernel

/-- Refutes O10: the statement quantifies over states that list a slot twice. In `slotTwice` a valid doorbell of submission ring 0 moves the device index of ring 1
from 0 to 1. No other case fails: `doorbellWrite_replacesOnly` has that part where each slot is listed once, and `doorbellWrite_replaces`, `doorbellWrite_ignored`
and `State.doorbellErr_testBit` have the rest in every state. -/
theorem not_doorbellWrite : ¬ Obligations.DoorbellWrite := by
  rintro ⟨hvalid, -⟩
  obtain ⟨hring, hreach, hflr, hproc, hen, hnumber, hrest, hforward⟩ := slotTwice_valid
  obtain ⟨-, hquiet⟩ := hvalid 0 0 0 0 [] slotTwice hring hreach hflr hproc hen hnumber hrest hforward
  obtain ⟨q, hq, -, -, hrings, -⟩ := hquiet (by decide +kernel)
  rw [exec_doorbellWrite hreach] at hq
  obtain rfl := Host.Outcome.next.inj hq
  have hdev := congrArg Ring.dev (hrings 1 (by decide))
  rw [slotTwice_flushes] at hdev
  exact absurd hdev (by decide +kernel)

end Sys2Proof.Machine
end
